-- ==== Sys2Proof/Word.lean ====
section
/-! DEFINITION. Word.lean: the word types of the PVZ-96 and their plainest arithmetic (00 R5, R7). -/

namespace Sys2Proof

/-- A byte (00 R4). -/
abbrev Byte := BitVec 8

/-- A register or general-register word: every register is 32 bits wide (00 R7, 04 R82). -/
abbrev Word := BitVec 32

/-- A 64-bit quantity: positions of time bases, counters, stamps of whole bases (10 R257). -/
abbrev DWord := BitVec 64

end Sys2Proof
end

