-- ==== Sys2Proof/Syntax.lean ====
section
/-! DEFINITION. Syntax.lean: the commands of the PVZ-96, one constructor for each row of the operation table, with
the operands each row's text names, and the plain data those operands are made of. -/

namespace Sys2Proof

/-- The two logic dies (01 Table 1.1). -/
inductive Die where
  | west
  | east
  deriving DecidableEq, Repr

/-- The other logic die. -/
def Die.other : Die → Die
  | .west => .east
  | .east => .west

/-- The requesters of Table 2.7 (02 R43). A host core is secure in machine mode only; a request of the remote die keeps
its originating ID and the secure attribute it had there. -/
inductive Requester where
  | core (c : Fin 4) (machine : Bool)
  | pcie
  | remote (origin : Fin 32) (secure : Bool)
  | darkroom
  | debug
  deriving DecidableEq, Repr

/-- Who makes an access, and on which die it is performed. -/
structure Acc where
  die : Die
  req : Requester
  deriving DecidableEq, Repr

/-- One bus access as its requester issues it (02 R36, R38): a write carries its bytes, a read none. -/
structure BusReq where
  write : Bool
  addr  : Nat
  size  : Nat
  data  : List Byte
  deriving DecidableEq, Repr

/-- A context of an engine: engine 8c + e of a die, context k (03 R55). -/
structure Ctx where
  die : Die
  eng : Fin 32
  ctx : Fin 4
  deriving DecidableEq, Repr

/-- A general register w0 to w15 (04 R82). -/
abbrev GReg := Fin 16

/-- Frame formats of the engine view (03 Table 3.5). -/
inductive BusFmt where
  | cc
  | fd
  | xl
  | lin
  deriving DecidableEq, Repr

/-- A field-bus frame: what the 16-byte header of Table 3.5 and the payload after it carry (03 R66). `dlc` is the
DLC field of a received classical frame (06 R164); elsewhere the payload length speaks. -/
structure BusFrame where
  id    : BitVec 29
  ide   : Bool
  rtr   : Bool
  fmt   : BusFmt
  flags : Byte
  dlc   : Nat
  sdt   : Byte
  vcid  : Byte
  af    : Word
  data  : List Byte
  deriving DecidableEq, Repr

/-- An Ethernet frame as it stands on the wire, from the first destination-address byte to the last byte before the
FCS; `fcsOk` says whether the FCS that followed was correct, `cut` that the frame was cut (07 R182, R181). -/
structure EthFrame where
  bytes : List Byte
  fcsOk : Bool
  cut   : Bool
  deriving DecidableEq, Repr

/-- The six windowed blocks (02 Table 2.6). -/
inductive WinBlock where
  | can
  | lin
  | eth
  | fke
  | mbx
  | qbk
  deriving DecidableEq, Repr

/-- The source of a field instruction (04 R93): the frame at the cursor, or a register. -/
inductive FieldSrc where
  | cur
  | reg (r : GReg)
  deriving DecidableEq, Repr

/-- The source of a CRC instruction (04 R96): the frame at the cursor, or data memory at a register's address. -/
inductive CrcSrc where
  | cur
  | mem (r : GReg)
  deriving DecidableEq, Repr

/-- The field-order word of a field instruction (04 R92). -/
inductive BitOrder where
  | le
  | be
  deriving DecidableEq, Repr

/-- A unit that a commit's BOUNDARY mode switches on its own (02 R50): a port, a CAN or a LIN channel. -/
inductive BoundaryUnit where
  | port (p : Fin 29)
  | can (c : Fin 32)
  | lin (l : Fin 8)
  deriving DecidableEq, Repr

/-- A unit in which an error arises (01 R15, 17 Table 17.1): its block class and its index in the class. In class 6 the indices
from 65,536 on name table entries, table · 65,536 + index above it. -/
structure UnitRef where
  cls : Fin 21
  idx : Nat
  deriving DecidableEq, Repr

/-- Categories of CAN errors (06 R163, words 14 to 16 of CAN.CNT). -/
inductive CanError where
  | bit
  | stuff
  | form
  | crc
  | ack
  deriving DecidableEq, Repr

/-- Fields of a CAN frame in which a transmit error can fall (05 R138): the fields after won arbitration count. -/
inductive CanField where
  | arbitration
  | control
  | data
  | crc
  | ack
  | eof
  deriving DecidableEq, Repr

/-- The cipher units that hold parity (11 R303). -/
inductive CipherUnit where
  | lane (l : Fin 4)
  | macsec (port : Fin 26)
  | macsecEgress (port : Fin 26)
  | seal
  | xts
  deriving DecidableEq, Repr

/-- A flit of the Stairwell as it arrives (12 R314, R316): its virtual channel, sequence number and CRC verdict. -/
structure Flit where
  vc    : Fin 4
  seq   : BitVec 8
  crcOk : Bool
  deriving DecidableEq, Repr

/-- Operations of an AMO (12 R323): those of the RV64 A extension. -/
inductive AmoOp where
  | swap
  | add
  | and
  | or
  | xor
  | min
  | max
  | minu
  | maxu
  deriving DecidableEq, Repr

/-- An IEEE 1722 message inside a frame (05 R133, R135, R436). -/
structure AcfMsg where
  kind   : Nat
  length : Nat
  busId  : Nat
  frame  : BusFrame
  beyond : Bool
  deriving DecidableEq, Repr

/-- An IEEE 1722 frame: subtype, stream_id, sequence_num, its messages, and whether stream_data_length reaches beyond
the frame (05 R135, 17 R436). -/
structure Ieee1722 where
  subtype  : Byte
  streamId : DWord
  seqNum   : Byte
  tooLong  : Bool
  msgs     : List AcfMsg
  deriving DecidableEq, Repr

/-- One record of a Signal PDU (05 Table 5.10). -/
structure PduRecord where
  handle : BitVec 16
  status : Byte
  typ    : Byte
  value  : Word
  deriving DecidableEq, Repr

/-- A Signal PDU with the UDP port and length that carried it (05 R136, R137). -/
structure SignalPdu where
  port    : BitVec 16
  udpLen  : Nat
  version : Nat
  n       : Nat
  seq     : BitVec 16
  stamp   : Word
  records : List PduRecord
  deriving DecidableEq, Repr

/-- Stepping frames of P_0 and P_1 (07 Table 7.2). -/
structure StepFrame where
  target : Byte
  reason : Byte
  token  : Word
  dly    : Nat
  deriving DecidableEq, Repr

/-- The wake evidence of a CAN channel (06 R165): a dominant pattern, or a wake frame. -/
inductive WakeKind where
  | dominant
  | frame (id : BitVec 29) (ide : Bool) (dlc : Nat) (data : List Byte)
  deriving DecidableEq, Repr

/-- A frame of the Newel link, without its CRC (14 Table 14.1). -/
structure NlFrame where
  seq : Fin 16
  op  : Fin 16
  arg : BitVec 16
  deriving DecidableEq, Repr

/-- The commands: one constructor for each row of the operation table. -/
inductive Instr where
  -- Bus, semaphores, commit, events (chapters 2 and 17)
  | registerWrite (a : Acc) (req : BusReq)
  | selWrite (a : Acc) (blk : WinBlock) (v : Word)
  | remoteWindowAccess (a : Acc) (req : BusReq)
  | decodeErrorAccess (a : Acc) (req : BusReq)
  | hallAsleepAnswer (a : Acc) (req : BusReq)
  | busTimeout (a : Acc)
  | lateResponse (a : Acc)
  | semClaim (a : Acc) (n : Fin 64)
  | semRelease (a : Acc) (n : Fin 64) (v : Word)
  | semForce (a : Acc) (n : Fin 64)
  | commitGo (a : Acc) (v : Word)
  | commitAbort (a : Acc) (v : Word)
  | commitDiscard (a : Acc) (v : Word)
  | commitValidationDone (d : Die)
  | commitApply (d : Die)
  | commitBoundaryApply (d : Die) (u : BoundaryUnit)
  | commitDrainDone (d : Die)
  | commitDrainLimit (d : Die)
  | eventRemoteArrive (d : Die)
  | uncorrectableError (d : Die) (u : UnitRef)
  -- Engines (chapter 3)
  | eventDispatch (d : Die) (cl : Fin 4)
  | residenceExpiry (c : Ctx)
  | lockRelease (c : Ctx)
  | lookupResult (c : Ctx) (tag : Fin 4)
  | contextWaitEnd (c : Ctx)
  | engineTimerFire (d : Die) (t : Fin 256)
  | engineCodeWrite (a : Acc) (cl : Fin 4) (index : BitVec 15) (w : Word)
  | clusterReset (a : Acc) (v : Word)
  -- Forrek instructions (chapter 4)
  | add (c : Ctx) (rd ra rb : GReg)
  | sub (c : Ctx) (rd ra rb : GReg)
  | and (c : Ctx) (rd ra rb : GReg)
  | or (c : Ctx) (rd ra rb : GReg)
  | xor (c : Ctx) (rd ra rb : GReg)
  | shl (c : Ctx) (rd ra rb : GReg)
  | shr (c : Ctx) (rd ra rb : GReg)
  | sar (c : Ctx) (rd ra rb : GReg)
  | rol (c : Ctx) (rd ra rb : GReg)
  | mul (c : Ctx) (rd ra rb : GReg)
  | mulh (c : Ctx) (rd ra rb : GReg)
  | mulhu (c : Ctx) (rd ra rb : GReg)
  | muls (c : Ctx) (rd ra rb : GReg)
  | adds (c : Ctx) (rd ra rb : GReg)
  | subs (c : Ctx) (rd ra rb : GReg)
  | addsu (c : Ctx) (rd ra rb : GReg)
  | subsu (c : Ctx) (rd ra rb : GReg)
  | min (c : Ctx) (rd ra rb : GReg)
  | max (c : Ctx) (rd ra rb : GReg)
  | minu (c : Ctx) (rd ra rb : GReg)
  | maxu (c : Ctx) (rd ra rb : GReg)
  | slt (c : Ctx) (rd ra rb : GReg)
  | sltu (c : Ctx) (rd ra rb : GReg)
  | sat (c : Ctx) (rd ra : GReg) (k : Fin 32)
  | satu (c : Ctx) (rd ra : GReg) (k : Fin 32)
  | bswap (c : Ctx) (rd ra : GReg)
  | addsh (c : Ctx) (rd ra rb : GReg)
  | subsh (c : Ctx) (rd ra rb : GReg)
  | minh (c : Ctx) (rd ra rb : GReg)
  | maxh (c : Ctx) (rd ra rb : GReg)
  | packh (c : Ctx) (rd ra rb : GReg)
  | scl (c : Ctx) (rd ra rb rc : GReg) (k : Fin 32)
  | sclu (c : Ctx) (rd ra rb rc : GReg) (k : Fin 32)
  | addi (c : Ctx) (rd ra : GReg) (imm : BitVec 16)
  | andi (c : Ctx) (rd ra : GReg) (imm : BitVec 16)
  | ori (c : Ctx) (rd ra : GReg) (imm : BitVec 16)
  | xori (c : Ctx) (rd ra : GReg) (imm : BitVec 16)
  | lui (c : Ctx) (rd : GReg) (imm : BitVec 16)
  | shli (c : Ctx) (rd ra : GReg) (n : Fin 32)
  | shri (c : Ctx) (rd ra : GReg) (n : Fin 32)
  | sari (c : Ctx) (rd ra : GReg) (n : Fin 32)
  | roli (c : Ctx) (rd ra : GReg) (n : Fin 32)
  | slti (c : Ctx) (rd ra : GReg) (imm : BitVec 16)
  | sltiu (c : Ctx) (rd ra : GReg) (imm : BitVec 16)
  | ldb (c : Ctx) (rd ra : GReg) (imm : BitVec 16)
  | ldh (c : Ctx) (rd ra : GReg) (imm : BitVec 16)
  | ldw (c : Ctx) (rd ra : GReg) (imm : BitVec 16)
  | ldbs (c : Ctx) (rd ra : GReg) (imm : BitVec 16)
  | ldhs (c : Ctx) (rd ra : GReg) (imm : BitVec 16)
  | stb (c : Ctx) (rs ra : GReg) (imm : BitVec 16)
  | sth (c : Ctx) (rs ra : GReg) (imm : BitVec 16)
  | stw (c : Ctx) (rs ra : GReg) (imm : BitVec 16)
  | fext (c : Ctx) (rd : GReg) (src : FieldSrc) (pos : BitVec 11) (w1 : Fin 32) (o : BitOrder)
  | fexts (c : Ctx) (rd : GReg) (src : FieldSrc) (pos : BitVec 11) (w1 : Fin 32) (o : BitOrder)
  | fins (c : Ctx) (dst : FieldSrc) (pos : BitVec 11) (w1 : Fin 32) (rs : GReg) (o : BitOrder)
  | cset (c : Ctx) (imm : BitVec 16)
  | cadd (c : Ctx) (imm : BitVec 16)
  | csetr (c : Ctx) (ra : GReg) (imm : BitVec 16)
  | flen (c : Ctx) (rd : GReg)
  | fnew (c : Ctx) (rd ra : GReg) (len : BitVec 16)
  | fnewz (c : Ctx) (rd : GReg) (len : BitVec 16)
  | fswp (c : Ctx) (rd ra : GReg)
  | emit (c : Ctx) (ra : GReg)
  | ffree (c : Ctx)
  | fsetlen (c : Ctx) (ra : GReg)
  | crc8 (c : Ctx) (rd ra : GReg) (src : CrcSrc) (n1 : BitVec 11)
  | crc16 (c : Ctx) (rd ra : GReg) (src : CrcSrc) (n1 : BitVec 11)
  | crc32c (c : Ctx) (rd ra : GReg) (src : CrcSrc) (n1 : BitVec 11)
  | gget (c : Ctx) (rd ra : GReg)
  | ggets (c : Ctx) (rd ra : GReg)
  | ggetm (c : Ctx) (rd ra : GReg)
  | ggetp (c : Ctx) (rd ra : GReg)
  | gput (c : Ctx) (ra rb rc : GReg)
  | gputn (c : Ctx) (ra rb rc : GReg) (k : Fin 32)
  | gadd (c : Ctx) (rd ra rb : GReg)
  | gcas (c : Ctx) (rd ra rb rc : GReg)
  | lkp (c : Ctx) (ra : GReg) (table : Fin 8) (tag : Fin 4)
  | lwait (c : Ctx) (rd : GReg) (tag : Fin 4)
  | qput (c : Ctx) (ra rb : GReg) (k : Fin 8)
  | qget (c : Ctx) (rd ra : GReg) (k : Fin 8)
  | mbput (c : Ctx) (ra rb : GReg) (k : Fin 8) (db : Bool)
  | mbget (c : Ctx) (rd ra : GReg) (k : Fin 8)
  | raise (c : Ctx) (ra : GReg) (code : BitVec 7)
  | cjob (c : Ctx) (rd ra : GReg)
  | tarm (c : Ctx) (ra rd : GReg) (entry : Byte)
  | tdis (c : Ctx) (ra : GReg)
  | tget (c : Ctx) (rd : GReg) (n : Fin 8)
  | mfs (c : Ctx) (rd : GReg) (code : Fin 8)
  | mts (c : Ctx) (code : Fin 8) (ra : GReg)
  | beq (c : Ctx) (ra rb : GReg) (off : BitVec 15)
  | bne (c : Ctx) (ra rb : GReg) (off : BitVec 15)
  | blt (c : Ctx) (ra rb : GReg) (off : BitVec 15)
  | bge (c : Ctx) (ra rb : GReg) (off : BitVec 15)
  | bltu (c : Ctx) (ra rb : GReg) (off : BitVec 15)
  | bgeu (c : Ctx) (ra rb : GReg) (off : BitVec 15)
  | bfs (c : Ctx) (bit : GReg) (off : BitVec 15)
  | bfc (c : Ctx) (bit : GReg) (off : BitVec 15)
  | jmp (c : Ctx) (tgt : BitVec 15)
  | jal (c : Ctx) (tgt : BitVec 15)
  | jr (c : Ctx) (ra : GReg)
  | ret (c : Ctx)
  | endInv (c : Ctx)
  | rel (c : Ctx)
  | yield (c : Ctx)
  | waitPost (c : Ctx)
  | waitTime (c : Ctx) (ra : GReg)
  | trap (c : Ctx) (code : Byte)
  -- Gallery and direct routes (chapter 5)
  | galleryClearDone (d : Die)
  | bindingWrite (a : Acc) (handle : BitVec 16) (v : Word)
  | galleryPipelineEntry (d : Die)
  | galleryWriteApply (d : Die)
  | hostPut (a : Acc) (handle : BitVec 16) (v stamp : Word)
  | hostGroupWrite (a : Acc) (v : Word)
  | freshnessMark (d : Die) (handle : BitVec 16)
  | routePipelineEntry (d : Die) (ch : Fin 40) (f : BusFrame) (stamp : Word)
  | routeFrameProcess (d : Die)
  | tokenAdd (d : Die) (n : Fin 4096)
  | talkerHoldExpiry (d : Die) (t : Fin 256)
  | ieee1722Ingress (d : Die) (port : Fin 29) (f : Ieee1722) (stamp : Word)
  | signalPduImport (d : Die) (pdu : SignalPdu)
  -- CAN and LIN (chapter 6)
  | canFrameReceive (d : Die) (ch : Fin 32) (f : BusFrame) (stamp : Word)
  | canHostRecordTake (d : Die) (ch : Fin 32)
  | canTxAttempt (d : Die) (ch : Fin 32)
  | canTxComplete (d : Die) (ch : Fin 32)
  | canTxError (d : Die) (ch : Fin 32) (e : CanError) (fld : CanField)
  | canRetryTimeExpiry (d : Die) (ch : Fin 32)
  | canTxtmoExpiry (d : Die) (ch : Fin 32)
  | cmbTrig (a : Acc) (ch : Fin 32) (k : Fin 32) (v : Word)
  | canBoffHoldExpiry (d : Die) (ch : Fin 32)
  | canRecover (a : Acc) (ch : Fin 32) (v : Word)
  | canBusoffRecovered (d : Die) (ch : Fin 32)
  | canSleepReq (a : Acc) (ch : Fin 32) (v : Word)
  | canSleepEnter (d : Die) (ch : Fin 32)
  | canWake (d : Die) (ch : Fin 32) (w : WakeKind)
  | canTmSyncQueue (d : Die) (ch : Fin 32)
  | linTrig (a : Acc) (ch : Fin 8) (v : Word)
  | linHeaderReceive (d : Die) (ch : Fin 8) (id : BitVec 6) (ok : Bool)
  | linResponseReceive (d : Die) (ch : Fin 8) (data : List Byte) (csumOk collision : Bool) (stamp : Word)
  | linResponseTimeout (d : Die) (ch : Fin 8) (got : Nat)
  | linPub (a : Acc) (ch : Fin 8) (i : BitVec 6)
  | linRespClr (a : Acc) (ch : Fin 8) (i : BitVec 6)
  | linGts (a : Acc) (ch : Fin 8)
  | linWakeup (a : Acc) (ch : Fin 8)
  | linWake (d : Die) (ch : Fin 8)
  | linWakeReady (d : Die) (ch : Fin 8)
  | linIdleSleep (d : Die) (ch : Fin 8)
  -- Ethernet ports (chapter 7)
  | ethFrameReceive (d : Die) (p : Fin 29) (f : EthFrame) (stamp : Word)
  | pauseExpiry (d : Die) (p : Fin 26)
  | pauseWindowEnd (d : Die) (p : Fin 26)
  | pauseRefresh (d : Die) (p : Fin 26)
  | ethLinkUp (d : Die) (p : Fin 29) (rate : Fin 8)
  | ethLinkDown (d : Die) (p : Fin 29)
  | lpiEnter (d : Die) (p : Fin 26)
  | stepWindowEnd (d : Die) (p : Fin 2)
  | stepUpTrigger (d : Die) (p : Fin 2)
  | stepReqReceive (d : Die) (p : Fin 2) (f : StepFrame)
  | stepAckReceive (d : Die) (p : Fin 2) (f : StepFrame)
  | stepNakReceive (d : Die) (p : Fin 2) (f : StepFrame)
  | stepSwitch (d : Die) (p : Fin 2)
  | stepLock (d : Die) (p : Fin 2)
  | stepReqTimeout (d : Die) (p : Fin 2)
  | stepLockTimeout (d : Die) (p : Fin 2)
  | stepHoldoffEnd (d : Die) (p : Fin 2)
  | plcaConflictDetect (d : Die) (p : Fin 26)
  | plcaYieldEnd (d : Die) (p : Fin 26)
  | plcaStatusChange (d : Die) (p : Fin 26) (active : Bool)
  | tc10SleepRequest (a : Acc) (p : Fin 26) (v : Word)
  | tc10PartnerSleep (d : Die) (p : Fin 26)
  | tc10SleepAck (d : Die) (p : Fin 26)
  | tc10Wake (d : Die) (p : Fin 26)
  | tc10Wup (a : Acc) (p : Fin 26) (v : Word)
  | txSelection (d : Die) (p : Fin 29)
  | ethTxEnd (d : Die) (p : Fin 29)
  -- Switch core and tables (chapters 8 and 9)
  | lookupPipelineEntry (d : Die) (p : Fin 29)
  | forwardingLookup (d : Die)
  | p27Handover (d : Die)
  | gateChange (d : Die) (p : Fin 26)
  | holdRequest (d : Die) (p : Fin 14)
  | preemptVerifyTimeout (d : Die) (p : Fin 14)
  | sfUnblock (a : Acc) (w : Fin 128) (v : Word)
  | meterUnlatch (a : Acc) (m : Fin 2048) (v : Word)
  | frerReset (d : Die) (n : Fin 1024)
  | learnItemServe (d : Die)
  | flushGo (a : Acc) (v : Word)
  | fdbUnlock (a : Acc) (v : Word)
  | agingTick (d : Die)
  | editWrite (a : Acc) (v : Word)
  | editClear (a : Acc) (v : Word)
  | editFdbAdd (a : Acc) (v : Word)
  | editFdbDel (a : Acc) (v : Word)
  | proofSweepStart (d : Die)
  | proofEntryCheck (d : Die)
  | proofSweepEnd (d : Die)
  | proofRepair (d : Die)
  -- Time bases, phase, cues, gPTP (chapter 10)
  | tbAdj (a : Acc) (n : Fin 8) (v : Word)
  | tbStep (a : Acc) (n : Fin 8) (v : Word)
  | tbSet (a : Acc) (n : Fin 8) (v : Word)
  | tbNowRead (a : Acc) (n : Fin 8)
  | phaseQuadEdge (d : Die) (k : Fin 4) (levelA levelB : Bool) (age : Nat)
  | phaseIndexEdge (d : Die) (k : Fin 4)
  | phaseHallChange (d : Die) (k : Fin 4) (u v w : Bool) (age : Nat)
  | phasePulseEdge (d : Die) (k : Fin 4) (age : Nat)
  | phaseLossTimeout (d : Die) (k : Fin 4)
  | cueFire (d : Die) (n : Fin 1024)
  | tpPulseEnd (d : Die) (k : Fin 8)
  | captureNow (a : Acc) (v : Word)
  | ppsInEdge (d : Die)
  | ppsOutRise (d : Die)
  | ppsOutFall (d : Die)
  | ptpSyncReceive (d : Die) (p : Fin 26) (bytes : List Byte) (stamp : Word)
  | ptpFollowupReceive (d : Die) (p : Fin 26) (bytes : List Byte) (stamp : Word)
  | ptpGmSync (d : Die) (u : Fin 4)
  | ptpGmFollowup (d : Die) (u : Fin 4)
  | ptpHoldClear (a : Acc) (u : Fin 4) (v : Word)
  | tbFollowState
  | tbFollowLost
  -- Cipher engine and Darkroom (chapter 11)
  | drkLoad (a : Acc) (v : Word)
  | drkGenerate (a : Acc) (v : Word)
  | drkImport (a : Acc) (v : Word)
  | drkErase (a : Acc) (v : Word)
  | drkZeroize (a : Acc) (v : Word)
  | drkZeroizeAll (a : Acc) (v : Word)
  | drkSigverify (a : Acc) (v : Word)
  | drkCommandDone (d : Die)
  | epochWriteDone (d : Die) (k : Byte)
  | epochWriteRetry (d : Die) (k : Byte)
  | hostJobIssue (a : Acc) (v : Word)
  | cipJobStart (d : Die)
  | cipJobComplete (d : Die) (job : Byte)
  | cipParityError (d : Die) (u : CipherUnit)
  | laneSelftestDone (d : Die) (l : Fin 4) (pass : Bool)
  | freshnessSet (a : Acc) (k : Byte) (v : Word)
  | dbgChallengeRead (a : Acc) (k : Fin 8)
  | dbgResponse (a : Acc) (v : Word)
  | dbgClose (a : Acc) (v : Word)
  | dbgResponseTimeout (d : Die)
  -- Stairwell and pairing (chapter 12)
  | stwFlitReceive (d : Die) (f : Flit)
  | stwFlitReplay (d : Die) (seq : BitVec 8)
  | stwRetryTimeout (d : Die)
  | stwRetrainTimer (d : Die)
  | stwRetrain (a : Acc) (v : Word)
  | stwLinkUp (lanes : Byte)
  | stwRemoteRequest (d : Die)
  | stwResponseReceive (d : Die)
  | stwAmo (a : Acc) (op : AmoOp) (addr size : Nat) (v : DWord)
  | stwLr (a : Acc) (addr size : Nat)
  | stwSc (a : Acc) (addr size : Nat) (v : DWord)
  | stwReservationExpiry (d : Die) (origin : Fin 32)
  | stwHeartbeatSend (d : Die)
  | stwHeartbeatReceive (d : Die)
  | stwHeartbeatMiss (d : Die)
  | pairPrep (a : Acc) (v : Word)
  | newelPairDisarm
  | mirrorReplicaReceive (d : Die)
  | replDrop (d : Die)
  | mirrorNoticeReceive (d : Die)
  | failoverConfirm (d : Die)
  | handoverGo (a : Acc) (v : Word)
  | handoverChannelMove (u : BoundaryUnit)
  | joinTimego (a : Acc) (v : Word)
  | joinGo (a : Acc) (v : Word)
  | joinCopyDone (d : Die)
  | voteDigestReceive (d : Die)
  | voteWindowExpiry (d : Die) (tag : DWord) (egress : Byte)
  | voteAlign (d : Die) (tag : DWord) (egress : Byte)
  | newelTxdMismatch (lin : Bool) (xcvr : Fin 24)
  -- Host cores, queue blocks, mailboxes, PCIe (chapter 13)
  | coreReset (a : Acc) (v : Word)
  | coreRun (a : Acc) (v : Word)
  | mtimeMatch (d : Die) (c : Fin 4)
  | msipWrite (a : Acc) (v : Word)
  | hostFence (d : Die) (addr : Nat)
  | qbPop (a : Acc) (n : Fin 64)
  | qbAdv (a : Acc) (n : Fin 64) (count : BitVec 18)
  | qbSetmark (a : Acc) (n : Fin 64)
  | qbRewind (a : Acc) (n : Fin 64)
  | qbRelease (a : Acc) (n : Fin 64)
  | qbReleaseMark (a : Acc) (n : Fin 64)
  | qbFlush (a : Acc) (n : Fin 64)
  | qbPush (a : Acc) (n : Fin 64) (v : Word)
  | qbStaleExpiry (d : Die) (n : Fin 64)
  | mbTx (a : Acc) (m : Fin 16) (v : Word)
  | mbRx (a : Acc) (m : Fin 16)
  | mbDoorbellRing (a : Acc) (m : Fin 16) (v : Word)
  | mbDbValRead (a : Acc) (m : Fin 16)
  | mbDrainTimeout (d : Die) (m : Fin 16) (ba : Bool)
  | mbFlush (a : Acc) (m : Fin 16) (v : Word)
  | clusterDoorbell (a : Acc) (cl : Fin 4) (v : Word)
  | pcieInboundRequest (d : Die) (bar2 : Bool) (req : BusReq)
  | pcieHotReset (d : Die)
  | pcieLinkUp (d : Die) (speed : Fin 8) (width : Fin 4)
  | pcieLinkDown (d : Die)
  | dmaDescriptorStart (d : Die) (c : Fin 8)
  | dmaComplete (d : Die) (c : Fin 8) (status : Fin 16) (moved : Nat) (data : List Byte)
  | dmaReadTimeout (d : Die) (c : Fin 8)
  | vnicTxTail (a : Acc) (v : Word)
  | vnicTxFrame (d : Die) (desc : List Word) (bytes : List Byte)
  | vnicRxTail (a : Acc) (v : Word)
  | vnicRxWrite (d : Die) (buf : Nat)
  | vnicRxNotifyTimer (d : Die)
  -- Newel block and Newel link (chapter 14)
  | nwlLoad (a : Acc) (v : Word)
  | nwlDuty (a : Acc) (v : Word)
  | nwlClear (a : Acc) (v : Word)
  | nwlWdArm (a : Acc) (v : Word)
  | nwlSlExit (a : Acc) (v : Word)
  | nwlPwrRetry (a : Acc) (v : Word)
  | nwlOwnerSet (a : Acc) (v : Word)
  | nwlWdAns (a : Acc) (v : Word)
  | nwlEeRead (a : Acc) (v : Word)
  | nwlEeWrite (a : Acc) (v : Word)
  | nlNop (d : Die)
  | nlAddr (d : Die) (seq : Fin 16) (addr : BitVec 16)
  | nlData (d : Die) (seq : Fin 16) (w : BitVec 16)
  | nlRead (d : Die) (seq : Fin 16) (addr : BitVec 16)
  | nlLoad (d : Die) (seq : Fin 16) (ch : Fin 32) (on : Bool)
  | nlDuty (d : Die) (seq : Fin 16) (ch : Fin 32) (duty : BitVec 10)
  | nlClear (d : Die) (seq : Fin 16) (ch : Fin 32) (therm oc wire : Bool)
  | nlWdAns (d : Die) (seq : Fin 16) (ans : BitVec 16)
  | nlApply (d : Die) (seq : Fin 16)
  | nlWdArm (d : Die) (seq : Fin 16)
  | nlSlExit (d : Die) (seq : Fin 16)
  | nlOwnerSet (d : Die) (seq : Fin 16) (map : BitVec 24)
  | nlPairPrep (d : Die) (seq : Fin 16) (mode : BitVec 2)
  | nlSwitch (d : Die) (seq : Fin 16) (mode : BitVec 2)
  | nlResync (d : Die)
  | nlEeRead (d : Die) (seq : Fin 16) (page : BitVec 10)
  | nlEeWrite (d : Die) (seq : Fin 16) (page : BitVec 10) (data : List Byte)
  | nlPwrRetry (d : Die) (seq : Fin 16)
  | nlAck (d : Die) (seq : Fin 16)
  | nlRdata (d : Die) (seq : Fin 16) (w : BitVec 16)
  | nlNak (d : Die) (seq : Fin 16) (reason : Fin 16)
  | nlEvent (d : Die) (arg : BitVec 16)
  | nlResendTimeout (d : Die)
  | nlDieSlotsInvalid (d : Die)
  | nlResyncTimer (d : Die)
  | nlMirrorRefresh (d : Die)
  | newelLinkSilent (d : Die)
  | newelLinkLost (d : Die)
  | loadOcTrip (n : Fin 24)
  | loadThermTrip (n : Fin 24)
  | loadThermCool (n : Fin 24)
  | wireModelTick (n : Fin 24)
  | loadDiagDetect (n : Fin 24) (kind : Fin 3) (present : Bool)
  | loadRestart (n : Fin 24)
  | loadWarmEnd (n : Fin 24)
  | pwmPeriodStart (k : Fin 4)
  | senseSample (n : Fin 24) (sample : BitVec 12)
  | loadDisagree (n : Fin 24)
  | vbatLow (v : BitVec 16)
  | vbatRecover (v : BitVec 16)
  | wdAutoArm
  | wdPeriodMiss (d : Die)
  | safelightPinChange (high : Bool)
  | lhPinEdge (k : Fin 6) (high : Bool)
  | xcvrTxdTimeout (lin : Bool) (x : Fin 24)
  | xcvrThermalShutdown (lin : Bool) (x : Fin 24)
  | wakePinEdge (k : Fin 8) (rising : Bool)
  | eePageDone (ok : Bool)
  -- Power, reset, boot (chapter 15)
  | hallCtlWrite (a : Acc) (v : Word)
  | hallPowerReady (d : Die) (h : Fin 10)
  | hallReset (a : Acc) (v : Word)
  | dozeRequest (a : Acc) (v : Word)
  | dozeEnter (d : Die)
  | dozeWake (d : Die) (src : Fin 7)
  | restRequest (a : Acc) (v : Word)
  | restPendingTimeout (d : Die)
  | restEnter (d : Die)
  | restWake (d : Die) (src : Fin 7)
  | moduleOff
  | modulePowerOn (v : BitVec 16)
  | powerGoodRise (d : Die) (g : Fin 3)
  | powerGoodFault (d : Die) (g : Fin 3)
  | pgRetry (d : Die)
  | newelReset
  | rstinAssert (d : Die)
  | pwrResetWrite (a : Acc) (v : Word)
  | bootStart (d : Die)
  | bootHeaderDone (d : Die)
  | bootVerifyDone (d : Die)
  | bootCopyDone (d : Die)
  -- Update (chapter 16)
  | updOpen (a : Acc) (v : Word)
  | updProg (a : Acc) (v : Word)
  | updProgDone (d : Die) (readBackOk : Bool)
  | updVerify (a : Acc) (v : Word)
  | updVerifyDone (d : Die)
  | updActivate (a : Acc) (v : Word)
  | updConfirm (a : Acc) (v : Word)
  | updAbort (a : Acc) (v : Word)
  | updFallback (a : Acc) (v : Word)
  | updChain (a : Acc) (v : Word)
  | updInit (a : Acc) (v : Word)
  | updTrialExpiry (d : Die)
  -- Guard, log, perturbation (chapter 17) and the rows that close the table
  | quarantineWindowEnd (d : Die) (k : Fin 16)
  | quarantineHoldEnd (d : Die) (k : Fin 16)
  | qtRelease (a : Acc) (k : Fin 16) (v : Word)
  | logEnable (a : Acc) (v : Word)
  | prtUnlock (a : Acc) (v : Word)
  | prtRelock (a : Acc) (v : Word)
  | prtCanArm (a : Acc) (c : Fin 32) (v : Word)
  | prtWdN (a : Acc) (v : Word)
  | prtBpPhase (d : Die) (p : Fin 29) (on : Bool)
  | rcRead (a : Acc) (addr : Nat)
  | undefinedEncoding (c : Ctx)
  | canRxError (d : Die) (ch : Fin 32) (e : CanError)
  | linResponseSent (d : Die) (ch : Fin 8)
  | preemptVerifyResponse (d : Die) (p : Fin 14)
  | pairPrepTimeout
  | ownerSetTimeout
  | reverseBattery (negative : Bool)
  | updOperationDone (d : Die)
  | rngSeeded (d : Die)
  | macsecSelftestDone (d : Die) (p : Fin 26)
  deriving DecidableEq, Repr

end Sys2Proof
end

