-- ==== Sys2Proof/WellFormed.lean ====
section
/-! DEFINITION. WellFormed.lean: which commands are well formed: register groups within w15, byte lists as long as their
size fields say, payloads that their frame format holds, immediates in the range their instruction allows. -/

namespace Sys2Proof

/-- A bus access carries as many bytes as it writes, and a read carries none. -/
def BusReq.wf (r : BusReq) : Bool := if r.write then decide (r.data.length = r.size) else r.data.isEmpty

/-- The longest payload of a frame format (03 Table 3.5). -/
def BusFmt.maxLen (f : BusFmt) : Nat :=
  match f with
  | .cc => 8
  | .fd => 64
  | .xl => 2048
  | .lin => 8

/-- A field-bus frame holds no more than its format allows; a remote frame holds nothing. -/
def BusFrame.wf (f : BusFrame) : Bool := decide (f.data.length ≤ f.fmt.maxLen) && (!f.rtr || f.data.isEmpty)

/-- A group of `n` registers from `r` on ends at w15 or before (04 R82). -/
def GReg.groupWf (r : GReg) (n : Nat) : Bool := decide (r.val + n ≤ 16)

/-- A register field lies within the register's 32 bits (04 R92). -/
def FieldSrc.fits (s : FieldSrc) (pos : BitVec 11) (w1 : Fin 32) : Bool :=
  match s with
  | .cur => true
  | .reg _ => decide (pos.toNat + w1.val + 1 ≤ 32)

/-- Well-formed commands: an ill-formed Forrek instruction is an undefined encoding (04 R82, R83, R85, R92, R95, R99, R104). -/
def Instr.wf (i : Instr) : Bool :=
  match i with
  | .registerWrite _ r => r.wf
  | .remoteWindowAccess _ r => r.wf
  | .decodeErrorAccess _ r => r.wf
  | .hallAsleepAnswer _ r => r.wf
  | .pcieInboundRequest _ _ r => r.wf
  | .routePipelineEntry _ _ f _ => f.wf
  | .canFrameReceive _ _ f _ => f.wf
  | .linResponseReceive _ _ data _ _ _ => decide (data.length ≤ 8)
  | .fext _ _ src pos w1 _ => src.fits pos w1
  | .fexts _ _ src pos w1 _ => src.fits pos w1
  | .fins _ dst pos w1 _ _ => dst.fits pos w1
  | .fnew _ _ _ len => decide (1 ≤ len.toNat) && decide (len.toNat ≤ 9212)
  | .fnewz _ _ len => decide (1 ≤ len.toNat) && decide (len.toNat ≤ 9212)
  | .ggetp _ rd _ => rd.groupWf 2
  | .gputn _ _ rb _ k => decide (k.val < 8) && rb.groupWf (k.val + 1)
  | .lkp _ ra table _ => decide (table.val ≠ 7) && ra.groupWf (if table.val = 0 ∨ table.val = 2 ∨ table.val = 6 then 2 else 1)
  | .lwait _ rd _ => rd.groupWf 2
  | .qput _ _ rb k => rb.groupWf (k.val + 1)
  | .qget _ rd _ k => rd.groupWf (k.val + 1)
  | .mbput _ _ rb k _ => rb.groupWf (k.val + 1)
  | .mbget _ rd _ k => rd.groupWf (k.val + 1)
  | .mfs _ _ code => decide (code.val ≠ 7)
  | .mts _ code _ => decide (code.val = 1 ∨ code.val = 2 ∨ code.val = 5)
  | _ => true

end Sys2Proof
end

