-- ==== Sys2Proof/Decode.lean ====
section
/-! DEFINITION. Decode.lean: the word decoder the host asks for (no row of the operation table gives bits), and the words of
the Forrek instructions that the engines fetch (04 R85 to R108). -/

namespace Sys2Proof

/-- No row of the operation table gives bits, so no word spells a command. -/
def decodeTableWord (_nbits _w : Nat) : Option Instr := none

/-! ### Formats (04 Table 4.3) -/

/-- RR: OP, RD, RA, RB, RC, K, FN. -/
def fmtRr (op rd ra rb rc k fn : Nat) : Nat :=
  op * 2 ^ 26 + rd * 2 ^ 22 + ra * 2 ^ 18 + rb * 2 ^ 14 + rc * 2 ^ 10 + k * 2 ^ 5 + fn

/-- RI: OP, RD, RA, SUB, IMM. -/
def fmtRi (op rd ra sub imm : Nat) : Nat := op * 2 ^ 26 + rd * 2 ^ 22 + ra * 2 ^ 18 + sub * 2 ^ 16 + imm

/-- B: OP 0x28, RA, RB, CC, OFF. -/
def fmtB (ra rb cc off : Nat) : Nat := 0x28 * 2 ^ 26 + ra * 2 ^ 22 + rb * 2 ^ 18 + cc * 2 ^ 15 + off

/-- J: OP 0x29, RA, JK, TGT. -/
def fmtJ (ra jk tgt : Nat) : Nat := 0x29 * 2 ^ 26 + ra * 2 ^ 22 + jk * 2 ^ 20 + tgt

/-- RS and FR of a field instruction, in place: FR = 1 with RS 0 for the frame at the cursor. -/
def FieldSrc.bits (s : FieldSrc) : Nat :=
  match s with
  | .cur => 2 ^ 17
  | .reg r => r.val * 2 ^ 18

/-- BE in place. -/
def BitOrder.bits (o : BitOrder) : Nat :=
  match o with
  | .le => 0
  | .be => 2 ^ 16

/-- F: OP, RV, RS, FR, BE, W − 1, POS. -/
def fmtF (op rv : Nat) (s : FieldSrc) (o : BitOrder) (w1 pos : Nat) : Nat :=
  op * 2 ^ 26 + rv * 2 ^ 22 + s.bits + o.bits + w1 * 2 ^ 11 + pos

/-- IMM of a CRC instruction (R96): RP, FR, N − 1. -/
def crcImm (s : CrcSrc) (n1 : BitVec 11) : Nat :=
  match s with
  | .cur => 2 ^ 11 + n1.toNat
  | .mem r => r.val * 2 ^ 12 + n1.toNat

/-- The word of a Forrek instruction (04 Tables 4.4 to 4.18); none for any other command. -/
def forrekWord (i : Instr) : Option Nat :=
  match i with
  | .add _ rd ra rb => some (fmtRr 0x01 rd ra rb 0 0 0x00)
  | .sub _ rd ra rb => some (fmtRr 0x01 rd ra rb 0 0 0x01)
  | .and _ rd ra rb => some (fmtRr 0x01 rd ra rb 0 0 0x02)
  | .or _ rd ra rb => some (fmtRr 0x01 rd ra rb 0 0 0x03)
  | .xor _ rd ra rb => some (fmtRr 0x01 rd ra rb 0 0 0x04)
  | .shl _ rd ra rb => some (fmtRr 0x01 rd ra rb 0 0 0x05)
  | .shr _ rd ra rb => some (fmtRr 0x01 rd ra rb 0 0 0x06)
  | .sar _ rd ra rb => some (fmtRr 0x01 rd ra rb 0 0 0x07)
  | .rol _ rd ra rb => some (fmtRr 0x01 rd ra rb 0 0 0x08)
  | .mul _ rd ra rb => some (fmtRr 0x01 rd ra rb 0 0 0x09)
  | .mulh _ rd ra rb => some (fmtRr 0x01 rd ra rb 0 0 0x0A)
  | .mulhu _ rd ra rb => some (fmtRr 0x01 rd ra rb 0 0 0x0B)
  | .muls _ rd ra rb => some (fmtRr 0x01 rd ra rb 0 0 0x0C)
  | .adds _ rd ra rb => some (fmtRr 0x01 rd ra rb 0 0 0x0D)
  | .subs _ rd ra rb => some (fmtRr 0x01 rd ra rb 0 0 0x0E)
  | .addsu _ rd ra rb => some (fmtRr 0x01 rd ra rb 0 0 0x0F)
  | .subsu _ rd ra rb => some (fmtRr 0x01 rd ra rb 0 0 0x10)
  | .min _ rd ra rb => some (fmtRr 0x01 rd ra rb 0 0 0x11)
  | .max _ rd ra rb => some (fmtRr 0x01 rd ra rb 0 0 0x12)
  | .minu _ rd ra rb => some (fmtRr 0x01 rd ra rb 0 0 0x13)
  | .maxu _ rd ra rb => some (fmtRr 0x01 rd ra rb 0 0 0x14)
  | .slt _ rd ra rb => some (fmtRr 0x01 rd ra rb 0 0 0x15)
  | .sltu _ rd ra rb => some (fmtRr 0x01 rd ra rb 0 0 0x16)
  | .sat _ rd ra k => some (fmtRr 0x01 rd ra 0 0 k 0x17)
  | .satu _ rd ra k => some (fmtRr 0x01 rd ra 0 0 k 0x18)
  | .bswap _ rd ra => some (fmtRr 0x01 rd ra 0 0 0 0x19)
  | .addsh _ rd ra rb => some (fmtRr 0x01 rd ra rb 0 0 0x1A)
  | .subsh _ rd ra rb => some (fmtRr 0x01 rd ra rb 0 0 0x1B)
  | .minh _ rd ra rb => some (fmtRr 0x01 rd ra rb 0 0 0x1C)
  | .maxh _ rd ra rb => some (fmtRr 0x01 rd ra rb 0 0 0x1D)
  | .packh _ rd ra rb => some (fmtRr 0x01 rd ra rb 0 0 0x1E)
  | .scl _ rd ra rb rc k => some (fmtRr 0x02 rd ra rb rc k 0)
  | .sclu _ rd ra rb rc k => some (fmtRr 0x02 rd ra rb rc k 1)
  | .addi _ rd ra imm => some (fmtRi 0x04 rd ra 0 imm.toNat)
  | .andi _ rd ra imm => some (fmtRi 0x05 rd ra 0 imm.toNat)
  | .ori _ rd ra imm => some (fmtRi 0x06 rd ra 0 imm.toNat)
  | .xori _ rd ra imm => some (fmtRi 0x07 rd ra 0 imm.toNat)
  | .lui _ rd imm => some (fmtRi 0x08 rd 0 0 imm.toNat)
  | .shli _ rd ra n => some (fmtRi 0x09 rd ra 0 n)
  | .shri _ rd ra n => some (fmtRi 0x09 rd ra 1 n)
  | .sari _ rd ra n => some (fmtRi 0x09 rd ra 2 n)
  | .roli _ rd ra n => some (fmtRi 0x09 rd ra 3 n)
  | .slti _ rd ra imm => some (fmtRi 0x0A rd ra 0 imm.toNat)
  | .sltiu _ rd ra imm => some (fmtRi 0x0A rd ra 1 imm.toNat)
  | .ldb _ rd ra imm => some (fmtRi 0x0C rd ra 0 imm.toNat)
  | .ldh _ rd ra imm => some (fmtRi 0x0C rd ra 1 imm.toNat)
  | .ldw _ rd ra imm => some (fmtRi 0x0C rd ra 2 imm.toNat)
  | .ldbs _ rd ra imm => some (fmtRi 0x0D rd ra 0 imm.toNat)
  | .ldhs _ rd ra imm => some (fmtRi 0x0D rd ra 1 imm.toNat)
  | .stb _ rs ra imm => some (fmtRi 0x0E rs ra 0 imm.toNat)
  | .sth _ rs ra imm => some (fmtRi 0x0E rs ra 1 imm.toNat)
  | .stw _ rs ra imm => some (fmtRi 0x0E rs ra 2 imm.toNat)
  | .fext _ rd src pos w1 o => some (fmtF 0x10 rd src o w1 pos.toNat)
  | .fexts _ rd src pos w1 o => some (fmtF 0x11 rd src o w1 pos.toNat)
  | .fins _ dst pos w1 rs o => some (fmtF 0x12 rs dst o w1 pos.toNat)
  | .cset _ imm => some (fmtRi 0x13 0 0 0 imm.toNat)
  | .cadd _ imm => some (fmtRi 0x13 0 0 1 imm.toNat)
  | .csetr _ ra imm => some (fmtRi 0x13 0 ra 2 imm.toNat)
  | .flen _ rd => some (fmtRi 0x13 rd 0 3 0)
  | .fnew _ rd ra len => some (fmtRi 0x14 rd ra 0 len.toNat)
  | .fnewz _ rd len => some (fmtRi 0x14 rd 0 1 len.toNat)
  | .fswp _ rd ra => some (fmtRi 0x14 rd ra 2 0)
  | .emit _ ra => some (fmtRi 0x15 0 ra 0 0)
  | .ffree _ => some (fmtRi 0x15 0 0 1 0)
  | .fsetlen _ ra => some (fmtRi 0x15 0 ra 2 0)
  | .crc8 _ rd ra src n1 => some (fmtRi 0x16 rd ra 0 (crcImm src n1))
  | .crc16 _ rd ra src n1 => some (fmtRi 0x16 rd ra 1 (crcImm src n1))
  | .crc32c _ rd ra src n1 => some (fmtRi 0x16 rd ra 2 (crcImm src n1))
  | .gget _ rd ra => some (fmtRi 0x18 rd ra 0 0)
  | .ggets _ rd ra => some (fmtRi 0x18 rd ra 1 0)
  | .ggetm _ rd ra => some (fmtRi 0x18 rd ra 2 0)
  | .ggetp _ rd ra => some (fmtRi 0x18 rd ra 3 0)
  | .gput _ ra rb rc => some (fmtRr 0x19 0 ra rb rc 0 0)
  | .gputn _ ra rb rc k => some (fmtRr 0x19 0 ra rb rc k 0)
  | .gadd _ rd ra rb => some (fmtRr 0x1A rd ra rb 0 0 0)
  | .gcas _ rd ra rb rc => some (fmtRr 0x1B rd ra rb rc 0 0)
  | .lkp _ ra table tag => some (fmtRr 0x1C 0 ra 0 0 (4 * table + tag) 0)
  | .lwait _ rd tag => some (fmtRr 0x1D rd 0 0 0 tag 0)
  | .qput _ ra rb k => some (fmtRr 0x1E 0 ra rb 0 k 0)
  | .qget _ rd ra k => some (fmtRr 0x1E rd ra 0 0 k 1)
  | .mbput _ ra rb k db => some (fmtRr 0x20 0 ra rb 0 (k + if db then 8 else 0) 0)
  | .mbget _ rd ra k => some (fmtRr 0x20 rd ra 0 0 k 1)
  | .raise _ ra code => some (fmtRi 0x21 0 ra 0 code.toNat)
  | .cjob _ rd ra => some (fmtRi 0x22 rd ra 0 0)
  | .tarm _ ra rd entry => some (fmtRi 0x23 rd ra 0 entry.toNat)
  | .tdis _ ra => some (fmtRi 0x23 0 ra 1 0)
  | .tget _ rd n => some (fmtRi 0x24 rd 0 0 n)
  | .mfs _ rd code => some (fmtRi 0x25 rd 0 0 code)
  | .mts _ code ra => some (fmtRi 0x25 0 ra 1 code)
  | .beq _ ra rb off => some (fmtB ra rb 0 off.toNat)
  | .bne _ ra rb off => some (fmtB ra rb 1 off.toNat)
  | .blt _ ra rb off => some (fmtB ra rb 2 off.toNat)
  | .bge _ ra rb off => some (fmtB ra rb 3 off.toNat)
  | .bltu _ ra rb off => some (fmtB ra rb 4 off.toNat)
  | .bgeu _ ra rb off => some (fmtB ra rb 5 off.toNat)
  | .bfs _ bit off => some (fmtB 0 bit 6 off.toNat)
  | .bfc _ bit off => some (fmtB 0 bit 7 off.toNat)
  | .jmp _ tgt => some (fmtJ 0 0 tgt.toNat)
  | .jal _ tgt => some (fmtJ 0 1 tgt.toNat)
  | .jr _ ra => some (fmtJ ra 2 0)
  | .ret _ => some (fmtJ 0 3 0)
  | .endInv _ => some (fmtRi 0x2A 0 0 0 0)
  | .rel _ => some (fmtRi 0x2A 0 0 1 0)
  | .yield _ => some (fmtRi 0x2A 0 0 2 0)
  | .waitPost _ => some (fmtRi 0x2A 0 0 3 0)
  | .waitTime _ ra => some (fmtRi 0x2A 0 ra 3 1)
  | .trap _ code => some (fmtRi 0x2B 0 0 0 code.toNat)
  | _ => none

/-! ### Reading a word -/

/-- A register field whose lowest bit is `lo`. -/
def regField (w lo : Nat) : GReg := Fin.ofNat 16 (w / 2 ^ lo)

/-- The source of a field instruction. -/
def readSrc (w : Nat) : FieldSrc := if w / 2 ^ 17 % 2 = 1 then .cur else .reg (regField w 18)

/-- The order of a field instruction. -/
def readOrder (w : Nat) : BitOrder := if w / 2 ^ 16 % 2 = 1 then .be else .le

/-- The source of a CRC instruction. -/
def readCrc (w : Nat) : CrcSrc := if w / 2 ^ 11 % 2 = 1 then .cur else .mem (regField w 12)

/-- OP 0x01. -/
def readAlu (c : Ctx) (w : Nat) : Option Instr :=
  let rd := regField w 22
  let ra := regField w 18
  let rb := regField w 14
  let k : Fin 32 := Fin.ofNat 32 (w / 2 ^ 5)
  match w % 32 with
  | 0x00 => some (.add c rd ra rb)
  | 0x01 => some (.sub c rd ra rb)
  | 0x02 => some (.and c rd ra rb)
  | 0x03 => some (.or c rd ra rb)
  | 0x04 => some (.xor c rd ra rb)
  | 0x05 => some (.shl c rd ra rb)
  | 0x06 => some (.shr c rd ra rb)
  | 0x07 => some (.sar c rd ra rb)
  | 0x08 => some (.rol c rd ra rb)
  | 0x09 => some (.mul c rd ra rb)
  | 0x0A => some (.mulh c rd ra rb)
  | 0x0B => some (.mulhu c rd ra rb)
  | 0x0C => some (.muls c rd ra rb)
  | 0x0D => some (.adds c rd ra rb)
  | 0x0E => some (.subs c rd ra rb)
  | 0x0F => some (.addsu c rd ra rb)
  | 0x10 => some (.subsu c rd ra rb)
  | 0x11 => some (.min c rd ra rb)
  | 0x12 => some (.max c rd ra rb)
  | 0x13 => some (.minu c rd ra rb)
  | 0x14 => some (.maxu c rd ra rb)
  | 0x15 => some (.slt c rd ra rb)
  | 0x16 => some (.sltu c rd ra rb)
  | 0x17 => some (.sat c rd ra k)
  | 0x18 => some (.satu c rd ra k)
  | 0x19 => some (.bswap c rd ra)
  | 0x1A => some (.addsh c rd ra rb)
  | 0x1B => some (.subsh c rd ra rb)
  | 0x1C => some (.minh c rd ra rb)
  | 0x1D => some (.maxh c rd ra rb)
  | 0x1E => some (.packh c rd ra rb)
  | _ => none

/-- The RR opcodes above 0x01. -/
def readRr (c : Ctx) (op w : Nat) : Option Instr :=
  let rd := regField w 22
  let ra := regField w 18
  let rb := regField w 14
  let rc := regField w 10
  let k : Fin 32 := Fin.ofNat 32 (w / 2 ^ 5)
  match op, w % 32 with
  | 0x02, 0 => some (.scl c rd ra rb rc k)
  | 0x02, 1 => some (.sclu c rd ra rb rc k)
  | 0x19, 0 => if k.val = 0 then some (.gput c ra rb rc) else some (.gputn c ra rb rc k)
  | 0x1A, 0 => some (.gadd c rd ra rb)
  | 0x1B, 0 => some (.gcas c rd ra rb rc)
  | 0x1C, 0 => some (.lkp c ra (Fin.ofNat 8 (k / 4)) (Fin.ofNat 4 k))
  | 0x1D, 0 => some (.lwait c rd (Fin.ofNat 4 k))
  | 0x1E, 0 => some (.qput c ra rb (Fin.ofNat 8 k))
  | 0x1E, 1 => some (.qget c rd ra (Fin.ofNat 8 k))
  | 0x20, 0 => some (.mbput c ra rb (Fin.ofNat 8 k) (decide (k.val / 8 % 2 = 1)))
  | 0x20, 1 => some (.mbget c rd ra (Fin.ofNat 8 k))
  | _, _ => none

/-- The RI and F opcodes up to 0x16. -/
def readRi (c : Ctx) (op w : Nat) : Option Instr :=
  let rd := regField w 22
  let ra := regField w 18
  let imm := BitVec.ofNat 16 w
  let n : Fin 32 := Fin.ofNat 32 w
  let pos := BitVec.ofNat 11 w
  let w1 : Fin 32 := Fin.ofNat 32 (w / 2 ^ 11)
  match op, w / 2 ^ 16 % 4 with
  | 0x04, 0 => some (.addi c rd ra imm)
  | 0x05, 0 => some (.andi c rd ra imm)
  | 0x06, 0 => some (.ori c rd ra imm)
  | 0x07, 0 => some (.xori c rd ra imm)
  | 0x08, 0 => some (.lui c rd imm)
  | 0x09, 0 => some (.shli c rd ra n)
  | 0x09, 1 => some (.shri c rd ra n)
  | 0x09, 2 => some (.sari c rd ra n)
  | 0x09, 3 => some (.roli c rd ra n)
  | 0x0A, 0 => some (.slti c rd ra imm)
  | 0x0A, 1 => some (.sltiu c rd ra imm)
  | 0x0C, 0 => some (.ldb c rd ra imm)
  | 0x0C, 1 => some (.ldh c rd ra imm)
  | 0x0C, 2 => some (.ldw c rd ra imm)
  | 0x0D, 0 => some (.ldbs c rd ra imm)
  | 0x0D, 1 => some (.ldhs c rd ra imm)
  | 0x0E, 0 => some (.stb c rd ra imm)
  | 0x0E, 1 => some (.sth c rd ra imm)
  | 0x0E, 2 => some (.stw c rd ra imm)
  | 0x10, _ => some (.fext c rd (readSrc w) pos w1 (readOrder w))
  | 0x11, _ => some (.fexts c rd (readSrc w) pos w1 (readOrder w))
  | 0x12, _ => some (.fins c (readSrc w) pos w1 rd (readOrder w))
  | 0x13, 0 => some (.cset c imm)
  | 0x13, 1 => some (.cadd c imm)
  | 0x13, 2 => some (.csetr c ra imm)
  | 0x13, 3 => some (.flen c rd)
  | 0x14, 0 => some (.fnew c rd ra imm)
  | 0x14, 1 => some (.fnewz c rd imm)
  | 0x14, 2 => some (.fswp c rd ra)
  | 0x15, 0 => some (.emit c ra)
  | 0x15, 1 => some (.ffree c)
  | 0x15, 2 => some (.fsetlen c ra)
  | 0x16, 0 => some (.crc8 c rd ra (readCrc w) pos)
  | 0x16, 1 => some (.crc16 c rd ra (readCrc w) pos)
  | 0x16, 2 => some (.crc32c c rd ra (readCrc w) pos)
  | _, _ => none

/-- The RI opcodes from 0x18 on. -/
def readSys (c : Ctx) (op w : Nat) : Option Instr :=
  let rd := regField w 22
  let ra := regField w 18
  match op, w / 2 ^ 16 % 4 with
  | 0x18, 0 => some (.gget c rd ra)
  | 0x18, 1 => some (.ggets c rd ra)
  | 0x18, 2 => some (.ggetm c rd ra)
  | 0x18, 3 => some (.ggetp c rd ra)
  | 0x21, 0 => some (.raise c ra (BitVec.ofNat 7 w))
  | 0x22, 0 => some (.cjob c rd ra)
  | 0x23, 0 => some (.tarm c ra rd (BitVec.ofNat 8 w))
  | 0x23, 1 => some (.tdis c ra)
  | 0x24, 0 => some (.tget c rd (Fin.ofNat 8 w))
  | 0x25, 0 => some (.mfs c rd (Fin.ofNat 8 w))
  | 0x25, 1 => some (.mts c (Fin.ofNat 8 w) ra)
  | 0x2A, 0 => some (.endInv c)
  | 0x2A, 1 => some (.rel c)
  | 0x2A, 2 => some (.yield c)
  | 0x2A, 3 => if w % 2 = 0 then some (.waitPost c) else some (.waitTime c ra)
  | 0x2B, 0 => some (.trap c (BitVec.ofNat 8 w))
  | _, _ => none

/-- OP 0x28. -/
def readBranch (c : Ctx) (w : Nat) : Option Instr :=
  let ra := regField w 22
  let rb := regField w 18
  let off := BitVec.ofNat 15 w
  match w / 2 ^ 15 % 8 with
  | 0 => some (.beq c ra rb off)
  | 1 => some (.bne c ra rb off)
  | 2 => some (.blt c ra rb off)
  | 3 => some (.bge c ra rb off)
  | 4 => some (.bltu c ra rb off)
  | 5 => some (.bgeu c ra rb off)
  | 6 => some (.bfs c rb off)
  | _ => some (.bfc c rb off)

/-- OP 0x29. -/
def readJump (c : Ctx) (w : Nat) : Option Instr :=
  let tgt := BitVec.ofNat 15 w
  match w / 2 ^ 20 % 4 with
  | 0 => some (.jmp c tgt)
  | 1 => some (.jal c tgt)
  | 2 => some (.jr c (regField w 22))
  | _ => some (.ret c)

/-- The instruction that the used fields of a word name (Table 4.4). -/
def forrekRead (c : Ctx) (w : Nat) : Option Instr :=
  let op := w / 2 ^ 26
  if op = 0x01 then readAlu c w
  else if op = 0x28 then readBranch c w
  else if op = 0x29 then readJump c w
  else if op = 0x02 ∨ op = 0x19 ∨ op = 0x1A ∨ op = 0x1B ∨ op = 0x1C ∨ op = 0x1D ∨ op = 0x1E ∨ op = 0x20 then readRr c op w
  else if op < 0x18 then readRi c op w
  else readSys c op w

/-- The instruction that a context decodes from a fetched word (R85): none for an undefined encoding, which names no instruction,
has a bit set in a field its instruction does not use, or breaks a range or a register group. -/
def forrekDecode (c : Ctx) (w : Nat) : Option Instr :=
  match forrekRead c w with
  | some i => if forrekWord i = some w ∧ i.wf then some i else none
  | none => none

end Sys2Proof
end

