-- ==== Sys2Proof/Config.lean ====
section
/-! DEFINITION. Config.lean: what an implementation fixes and what the spec leaves open. An `opaque` constant has no
value in the model: a statement that holds holds for every value of it. -/

namespace Sys2Proof.Config

/-- A free value: the `n`-th value that the spec leaves open during a run. -/
opaque freeWord : Nat → Word

/-- The 32-bit value of frame descriptor `n` ("an opaque 32-bit value", 04 R83). -/
opaque descriptor : Nat → Word

/-- The contents of the boot ROM (02 Table 2.1 gives its place and size only). -/
opaque rom : Nat → Byte

/-- Records that the PCIe event queue of a die holds (02 R54 gives no depth). -/
opaque pcieEventDepth : Nat

/-! The cryptographic functions that the spec takes from standards (chapter 11): free functions of their inputs. -/

/-- Key check value: bytes 0 to 3 of the AES encryption of the all-zero block (11 R287). -/
opaque kcv (key : List Byte) : Word

/-- GCM encryption and decryption of data under key and 96-bit IV (NIST SP 800-38D). -/
opaque gcmCrypt (key iv data : List Byte) : List Byte

/-- The 16-byte GCM tag over AAD and ciphertext. -/
opaque gcmTag (key iv aad cipher : List Byte) : List Byte

/-- AES counter mode from an initial counter block. -/
opaque ctrCrypt (key block data : List Byte) : List Byte

/-- AES-CMAC, 16 bytes (NIST SP 800-38B). -/
opaque cmac (key data : List Byte) : List Byte

/-- AES-XTS of one data unit with data key, tweak key and sector number (IEEE 1619); `enc` encrypts. -/
opaque xts (enc : Bool) (key tweak : List Byte) (sector : Nat) (data : List Byte) : List Byte

/-- RFC 3394 wrap with the default initial value. -/
opaque keyWrap (kek data : List Byte) : List Byte

/-- RFC 3394 unwrap: none when the integrity check fails. -/
opaque keyUnwrap (kek data : List Byte) : Option (List Byte)

/-- The data that an unwrap yields, whether or not its integrity check passes (11 R302). -/
opaque keyUnwrapData (kek data : List Byte) : List Byte

/-- SHA-256 and SHA-384 (FIPS 180-4). -/
opaque sha256 (data : List Byte) : List Byte
opaque sha384 (data : List Byte) : List Byte

/-- HMAC over SHA-256 and SHA-384 (FIPS 198-1). -/
opaque hmac256 (key data : List Byte) : List Byte
opaque hmac384 (key data : List Byte) : List Byte

/-- ECDSA P-384 (FIPS 186-5) and ML-DSA-65 (FIPS 204) verification of a digest. -/
opaque ecdsaVerify (pub sig digest : List Byte) : Bool
opaque mldsaVerify (pub sig digest : List Byte) : Bool

/-! What is fixed in each die (0 West, 1 East). -/

/-- The device wrapping key from the PUF (11 R288). -/
opaque deviceKey (die : Nat) : List Byte

/-- Output byte `n` of the random generator of a die (11 R288). -/
opaque random (die n : Nat) : Byte

/-- The die UID, 8 bytes (11 R311). -/
opaque uid (die : Nat) : List Byte

/-- Fuses (11 R309): SB_EN, SIGPOL, DBG_LOCK, REVOKED, PRT_LOCK (17 R440). -/
opaque fuseSbEn (die : Nat) : Bool
opaque fuseSigpol (die : Nat) : Bool
opaque fuseDbgLock (die : Nat) : Bool
opaque fuseRevoked (die : Nat) : BitVec 8
opaque fusePrtLock (die : Nat) : Bool

/-- The SHA-384 hash that key position `p` holds: 0 to 3 ECDSA, 4 to 7 ML-DSA (11 R309). -/
opaque fuseKeyHash (die p : Nat) : List Byte

/-- A debug key position (11 R309): its ECDSA public key, and whether it is revoked. -/
opaque fuseDebugKey (die p : Nat) : List Byte
opaque fuseDebugRevoked (die p : Nat) : Bool

/-- The dies are of grade MQ: IDENT.GRADE reads 2 in place of 1 (00 R2). -/
opaque gradeMq : Bool

/-- Seed number `n` of a watchdog challenge, from noise at Newel power-on (14 R386). -/
opaque freeNoise : Nat → BitVec 16

/-- The size of the external flash in bytes, at least 128 MB (16 R413). -/
opaque flashSize : Nat

/-- The tracker's loop (10 R265): the angle and rate corrections that a phase error gives, in the units of
Machine/State.lean, from the error, the loop bandwidth in hertz and the measurement interval in ns. -/
opaque trackTheta (err : Int) (bw : Rat) (dt : Nat) : Int
opaque trackOmega (err : Int) (bw : Rat) (dt : Nat) : Int

end Sys2Proof.Config
end

