-- ==== Sys2Proof/Machine/Tab.lean ====
section
/-! DEFINITION. Machine/Tab.lean: sparse tables (lists of key and value, keys strictly rising, no entry that an unlisted
key already reads as), the byte memory built on them, and the description of a register field. -/

namespace Sys2Proof.Machine

/-- A sparse table: keys strictly rising. An unlisted key reads as the default its user names. -/
abbrev Tab (α : Type) := List (Nat × α)

/-- The entry of a key. -/
def Tab.get? {α : Type} (t : Tab α) (k : Nat) : Option α :=
  match t with
  | [] => none
  | (k', v) :: r => if k = k' then some v else if k < k' then none else Tab.get? r k

/-- The value of a key, `d` when unlisted. -/
def Tab.get {α : Type} (d : α) (t : Tab α) (k : Nat) : α := (t.get? k).getD d

/-- Lists the value of a key, in its place. -/
def Tab.insert {α : Type} (t : Tab α) (k : Nat) (v : α) : Tab α :=
  match t with
  | [] => [(k, v)]
  | (k', v') :: r =>
    if k = k' then (k, v) :: r else if k < k' then (k, v) :: (k', v') :: r else (k', v') :: Tab.insert r k v

/-- Takes a key out of the list. -/
def Tab.erase {α : Type} (t : Tab α) (k : Nat) : Tab α :=
  match t with
  | [] => []
  | (k', v') :: r => if k = k' then r else if k < k' then (k', v') :: r else (k', v') :: Tab.erase r k

/-- Writes a value: the default is not listed, so that equal tables are equal lists. -/
def Tab.put {α : Type} [DecidableEq α] (d : α) (t : Tab α) (k : Nat) (v : α) : Tab α :=
  if v = d then t.erase k else t.insert k v

/-- The keys rise strictly, all above `lo` (given as a bound that the first key may reach). -/
def Tab.sorted {α : Type} (lo : Nat) (t : Tab α) : Bool :=
  match t with
  | [] => true
  | (k, _) :: r => Nat.ble lo k && Tab.sorted (k + 1) r

/-- The canonical form: keys strictly rising, no entry equal to the default. -/
def Tab.wf {α : Type} [DecidableEq α] (d : α) (t : Tab α) : Bool := t.sorted 0 && t.all fun e => !decide (e.2 = d)

/-- A byte memory. -/
abbrev Memory := List Host.Cell

/-- The canonical form of a byte memory whose unlisted bytes read as 0 (DESIGN CHOICE, log 3). -/
abbrev Memory.wf (m : Memory) : Bool := Tab.wf (0 : Byte) m

/-- One byte of a memory. -/
def Memory.byte (m : Memory) (a : Nat) : Byte := Tab.get 0 m a

/-- Writes one byte. -/
def Memory.setByte (m : Memory) (a : Nat) (b : Byte) : Memory := Tab.put 0 m a b

/-- The `n` bytes from `a` on. -/
def Memory.bytes (m : Memory) (a : Nat) (n : Nat) : List Byte := (List.range n).map fun i => m.byte (a + i)

/-- Writes bytes from `a` on. -/
def Memory.setBytes (m : Memory) (a : Nat) (bs : List Byte) : Memory :=
  match bs with
  | [] => m
  | b :: r => Memory.setBytes (m.setByte a b) (a + 1) r

/-- The little-endian number of a list of bytes (00 R5). -/
def leNat (bs : List Byte) : Nat :=
  match bs with
  | [] => 0
  | b :: r => b.toNat + 256 * leNat r

/-- The big-endian number of a list of bytes. -/
def beNat (bs : List Byte) : Nat := leNat bs.reverse

/-- `n` bytes of a number, least significant first. -/
def leBytes (n : Nat) (v : Nat) : List Byte :=
  match n with
  | 0 => []
  | n + 1 => BitVec.ofNat 8 v :: leBytes n (v / 256)

/-- `n` bytes of a number, most significant first. -/
def beBytes (n : Nat) (v : Nat) : List Byte := (leBytes n v).reverse

/-- The little-endian word at `a` (00 R5). -/
def Memory.word (m : Memory) (a : Nat) : Word := BitVec.ofNat 32 (leNat (m.bytes a 4))

/-- Writes a little-endian word at `a`. -/
def Memory.setWord (m : Memory) (a : Nat) (w : Word) : Memory := m.setBytes a (leBytes 4 w.toNat)

/-- The access types of a register field (00 R8, Table 0.6). -/
inductive Access where
  | rw
  | ro
  | wo
  | w1c
  | rc
  | rws
  deriving DecidableEq, Repr

/-- The values a write may give a field; any other value leaves it unchanged, as its description or its chapter says. -/
inductive Legal where
  | any
  | range (lo hi : Nat)
  | signed (lo hi : Int)
  | steps (lo hi n : Nat)
  | even
  | codes (vals : List Nat)
  deriving DecidableEq, Repr

/-- A register field: its block class, the offset of its register, the two array dimensions of the register (count and
stride), its place in the register, its type, its reset value, the values it takes, and whether it wraps when it counts
(00 R9; otherwise a count saturates). -/
structure Fld where
  blk   : Nat
  off   : Nat
  n1    : Nat
  s1    : Nat
  n2    : Nat
  s2    : Nat
  lo    : Nat
  width : Nat
  acs   : Access
  reset : Nat
  legal : Legal
  wraps : Bool
  deriving DecidableEq, Repr

/-- The field's value under a write of the register word `w`. -/
def Fld.ofWord (f : Fld) (w : Word) : Nat := w.toNat / 2 ^ f.lo % 2 ^ f.width

/-- A field value read as a two's complement number. -/
def Fld.int (f : Fld) (v : Nat) : Int := if v < 2 ^ (f.width - 1) then v else (v : Int) - 2 ^ f.width

/-- A write may give the field this value. -/
def Fld.accepts (f : Fld) (v : Nat) : Bool :=
  match f.legal with
  | .any => true
  | .range lo hi => decide (lo ≤ v) && decide (v ≤ hi)
  | .signed lo hi => decide (lo ≤ f.int v) && decide (f.int v ≤ hi)
  | .steps lo hi n => decide (lo ≤ v) && decide (v ≤ hi) && decide (v % n = 0)
  | .even => decide (v % 2 = 0)
  | .codes vals => vals.contains v

/-- The key under which the register file holds a field: channel (or requester's copy), block, offset of the register in
the block with its array indices, and the field's lowest bit. -/
def Fld.key (f : Fld) (ch i j : Nat) : Nat :=
  ((ch * 32 + f.blk) * 1048576 + f.off + f.s1 * i + f.s2 * j) * 32 + f.lo

/-- The channel (or copy) part of a register-file key. -/
def keyChan (k : Nat) : Nat := k / 1073741824

/-- The block class of a register-file key. -/
def keyBlk (k : Nat) : Nat := k / 33554432 % 32

/-- The register offset of a register-file key. -/
def keyOff (k : Nat) : Nat := k / 32 % 1048576

/-- The array indices at which register offset `o` of the block lies in the field's register array. -/
def Fld.at? (f : Fld) (o : Nat) : Option (Nat × Nat) :=
  if o < f.off then none
  else
    let r := o - f.off
    let i := if f.n1 = 1 then 0 else r / f.s1
    let q := r - f.s1 * i
    let j := if f.n2 = 1 then 0 else q / f.s2
    if i < f.n1 && j < f.n2 && q = f.s2 * j then some (i, j) else none

/-- A field value after one more count (00 R9). -/
def Fld.inc (f : Fld) (v n : Nat) : Nat :=
  if f.wraps then (v + n) % 2 ^ f.width else min (v + n) (2 ^ f.width - 1)

end Sys2Proof.Machine
end

