-- ==== Sys2Proof/Machine/Fields.lean ====
section
/-! DEFINITION. Machine/Fields.lean: every register field of the register space, from the register tables of the
chapters (02 to 17), each with its place, its access type (00 R8), its reset value and the values a write may give it. -/

namespace Sys2Proof.Machine

/-! ### Block SYS (class 0, 02 Table 2.5) -/

/-- `SYS.IDENT.PART` [31:16] -/
def sysIdentPart : Fld := ⟨0, 0x0, 1, 0x4, 1, 0x4, 16, 16, .ro, 0x96, .any, false⟩
/-- `SYS.IDENT.STEP` [15:8] -/
def sysIdentStep : Fld := ⟨0, 0x0, 1, 0x4, 1, 0x4, 8, 8, .ro, 0xb1, .any, false⟩
/-- `SYS.IDENT.GRADE` [7:4] -/
def sysIdentGrade : Fld := ⟨0, 0x0, 1, 0x4, 1, 0x4, 4, 4, .ro, 0x1, .any, false⟩
/-- `SYS.IDENT.DIE` [3:0] -/
def sysIdentDie : Fld := ⟨0, 0x0, 1, 0x4, 1, 0x4, 0, 4, .ro, 0x0, .any, false⟩
/-- `SYS.SEC_CFG.FC` [3:0] -/
def sysSecCfgFc : Fld := ⟨0, 0x10, 1, 0x4, 1, 0x4, 0, 4, .rws, 0xf, .any, false⟩
/-- `SYS.SEC_CFG.PCI` [8:8] -/
def sysSecCfgPci : Fld := ⟨0, 0x10, 1, 0x4, 1, 0x4, 8, 1, .rws, 0x0, .any, false⟩
/-- `SYS.HSRAM_NSBASE.BASE` [21:12] -/
def sysHsramNsbase : Fld := ⟨0, 0x14, 1, 0x4, 1, 0x4, 12, 10, .rws, 0x3ff, .any, false⟩
/-- `SYS.BUS_TMO.LIMIT` [15:0] -/
def sysBusTmo : Fld := ⟨0, 0x20, 1, 0x4, 1, 0x4, 0, 16, .rw, 0x64, (.range 1 65535), false⟩
/-- `SYS.LATE_ADDR_LO.ADDR` [31:0] -/
def sysLateAddrLo : Fld := ⟨0, 0x24, 1, 0x4, 1, 0x4, 0, 32, .ro, 0x0, .any, false⟩
/-- `SYS.LATE_ADDR_HI.ADDR` [4:0] -/
def sysLateAddrHiAddr : Fld := ⟨0, 0x28, 1, 0x4, 1, 0x4, 0, 5, .ro, 0x0, .any, false⟩
/-- `SYS.LATE_ADDR_HI.ID` [12:8] -/
def sysLateAddrHiId : Fld := ⟨0, 0x28, 1, 0x4, 1, 0x4, 8, 5, .ro, 0x0, .any, false⟩
/-- `SYS.LATE_ADDR_HI.ORIGIN` [20:16] -/
def sysLateAddrHiOrigin : Fld := ⟨0, 0x28, 1, 0x4, 1, 0x4, 16, 5, .ro, 0x0, .any, false⟩
/-- `SYS.LATE_ADDR_HI.VALID` [30:30] -/
def sysLateAddrHiValid : Fld := ⟨0, 0x28, 1, 0x4, 1, 0x4, 30, 1, .rc, 0x0, .any, false⟩
/-- `SYS.LATE_ADDR_HI.OVF` [31:31] -/
def sysLateAddrHiOvf : Fld := ⟨0, 0x28, 1, 0x4, 1, 0x4, 31, 1, .rc, 0x0, .any, false⟩
/-- `SYS.COMMIT.MODE` [1:0] -/
def sysCommitMode : Fld := ⟨0, 0x40, 1, 0x4, 1, 0x4, 0, 2, .rw, 0x0, .any, false⟩
/-- `SYS.COMMIT.DRY` [2:2] -/
def sysCommitDry : Fld := ⟨0, 0x40, 1, 0x4, 1, 0x4, 2, 1, .rw, 0x0, .any, false⟩
/-- `SYS.COMMIT.CUE` [13:4] -/
def sysCommitCue : Fld := ⟨0, 0x40, 1, 0x4, 1, 0x4, 4, 10, .rw, 0x0, .any, false⟩
/-- `SYS.COMMIT.DISCARD` [29:29] -/
def sysCommitDiscard : Fld := ⟨0, 0x40, 1, 0x4, 1, 0x4, 29, 1, .wo, 0x0, .any, false⟩
/-- `SYS.COMMIT.ABORT` [30:30] -/
def sysCommitAbort : Fld := ⟨0, 0x40, 1, 0x4, 1, 0x4, 30, 1, .wo, 0x0, .any, false⟩
/-- `SYS.COMMIT.GO` [31:31] -/
def sysCommitGo : Fld := ⟨0, 0x40, 1, 0x4, 1, 0x4, 31, 1, .wo, 0x0, .any, false⟩
/-- `SYS.COMMIT_STAT.STATE` [2:0] -/
def sysCommitStatState : Fld := ⟨0, 0x44, 1, 0x4, 1, 0x4, 0, 3, .ro, 0x0, .any, false⟩
/-- `SYS.COMMIT_STAT.REASON` [15:8] -/
def sysCommitStatReason : Fld := ⟨0, 0x44, 1, 0x4, 1, 0x4, 8, 8, .ro, 0x0, .any, false⟩
/-- `SYS.COMMIT_STAT.DETAIL` [31:16] -/
def sysCommitStatDetail : Fld := ⟨0, 0x44, 1, 0x4, 1, 0x4, 16, 16, .ro, 0x0, .any, false⟩
/-- `SYS.COMMIT_SEQ.COUNT` [15:0] -/
def sysCommitSeqCount : Fld := ⟨0, 0x48, 1, 0x4, 1, 0x4, 0, 16, .ro, 0x0, .any, true⟩
/-- `SYS.COMMIT_SEQ.LATE_WR` [31:16] -/
def sysCommitSeqLateWr : Fld := ⟨0, 0x48, 1, 0x4, 1, 0x4, 16, 16, .rc, 0x0, .any, false⟩
/-- `SYS.COMMIT_DRAIN.LIMIT` [15:0] -/
def sysCommitDrain : Fld := ⟨0, 0x4c, 1, 0x4, 1, 0x4, 0, 16, .rw, 0x2710, (.range 1 65535), false⟩
/-- `SYS.CORE_CTL.RUN` [3:0] -/
def sysCoreCtlRun : Fld := ⟨0, 0x50, 1, 0x4, 1, 0x4, 0, 4, .rw, 0x1, .any, false⟩
/-- `SYS.CORE_CTL.RST` [11:8] -/
def sysCoreCtlRst : Fld := ⟨0, 0x50, 1, 0x4, 1, 0x4, 8, 4, .wo, 0x0, .any, false⟩
/-- `SYS.CORE_BOOT.ADDR` [31:2] -/
def sysCoreBoot : Fld := ⟨0, 0x54, 1, 0x4, 1, 0x4, 2, 30, .rw, 0x4000000, .any, false⟩
/-- `SYS.MTIME_LO.MTIME` [31:0] -/
def sysMtimeLo : Fld := ⟨0, 0x60, 1, 0x4, 1, 0x4, 0, 32, .ro, 0x0, .any, false⟩
/-- `SYS.MTIME_HI.MTIME` [31:0] -/
def sysMtimeHi : Fld := ⟨0, 0x64, 1, 0x4, 1, 0x4, 0, 32, .ro, 0x0, .any, false⟩
/-- `SYS.MTIMECMP_LO.CMP` [31:0] -/
def sysMtimecmpLo : Fld := ⟨0, 0x68, 4, 0x8, 1, 0x4, 0, 32, .rw, 0xffffffff, .any, false⟩
/-- `SYS.MTIMECMP_HI.CMP` [31:0] -/
def sysMtimecmpHi : Fld := ⟨0, 0x6c, 4, 0x8, 1, 0x4, 0, 32, .rw, 0xffffffff, .any, false⟩
/-- `SYS.MSIP.MSIP` [3:0] -/
def sysMsip : Fld := ⟨0, 0x88, 1, 0x4, 1, 0x4, 0, 4, .rw, 0x0, .any, false⟩
/-- `SYS.IRQ_QB_LO.QB` [31:0] -/
def sysIrqQbLo : Fld := ⟨0, 0xa0, 4, 0x10, 1, 0x4, 0, 32, .ro, 0x0, .any, false⟩
/-- `SYS.IRQ_QB_HI.QB` [31:0] -/
def sysIrqQbHi : Fld := ⟨0, 0xa4, 4, 0x10, 1, 0x4, 0, 32, .ro, 0x0, .any, false⟩
/-- `SYS.IRQ_OTHER.MB` [15:0] -/
def sysIrqOtherMb : Fld := ⟨0, 0xa8, 4, 0x10, 1, 0x4, 0, 16, .ro, 0x0, .any, false⟩
/-- `SYS.IRQ_OTHER.PCI` [16:16] -/
def sysIrqOtherPci : Fld := ⟨0, 0xa8, 4, 0x10, 1, 0x4, 16, 1, .ro, 0x0, .any, false⟩
/-- `SYS.IRQ_OTHER.VNIC` [17:17] -/
def sysIrqOtherVnic : Fld := ⟨0, 0xa8, 4, 0x10, 1, 0x4, 17, 1, .ro, 0x0, .any, false⟩
/-- `SYS.SEM_FORCE.INDEX` [5:0] -/
def sysSemForce : Fld := ⟨0, 0xfc, 1, 0x4, 1, 0x4, 0, 6, .wo, 0x0, .any, false⟩
/-- `SYS.SEM.VALUE` [5:0] -/
def sysSem : Fld := ⟨0, 0x100, 64, 0x4, 1, 0x4, 0, 6, .rw, 0x0, .any, false⟩
/-- `SYS.SEM_PEEK.VALUE` [5:0] -/
def sysSemPeekValue : Fld := ⟨0, 0x200, 64, 0x4, 1, 0x4, 0, 6, .ro, 0x0, .any, false⟩
/-- `SYS.SEM_PEEK.ORIGIN` [12:8] -/
def sysSemPeekOrigin : Fld := ⟨0, 0x200, 64, 0x4, 1, 0x4, 8, 5, .ro, 0x0, .any, false⟩
/-- `SYS.DRAIN_LOSS.COUNT` [31:0] -/
def sysDrainLoss : Fld := ⟨0, 0x300, 21, 0x4, 1, 0x4, 0, 32, .rc, 0x0, .any, false⟩

def sysFields0 : List Fld :=
    [sysIdentPart, sysIdentStep, sysIdentGrade, sysIdentDie, sysSecCfgFc, sysSecCfgPci, sysHsramNsbase, sysBusTmo,
   sysLateAddrLo, sysLateAddrHiAddr, sysLateAddrHiId, sysLateAddrHiOrigin, sysLateAddrHiValid, sysLateAddrHiOvf,
   sysCommitMode, sysCommitDry, sysCommitCue, sysCommitDiscard, sysCommitAbort, sysCommitGo, sysCommitStatState,
   sysCommitStatReason, sysCommitStatDetail, sysCommitSeqCount, sysCommitSeqLateWr, sysCommitDrain, sysCoreCtlRun,
   sysCoreCtlRst, sysCoreBoot, sysMtimeLo, sysMtimeHi, sysMtimecmpLo, sysMtimecmpHi, sysMsip, sysIrqQbLo, sysIrqQbHi,
   sysIrqOtherMb, sysIrqOtherPci, sysIrqOtherVnic, sysSemForce]
def sysFields1 : List Fld :=
  [sysSem, sysSemPeekValue, sysSemPeekOrigin, sysDrainLoss]
/-- The fields of block SYS. -/
def sysFields : List Fld := sysFields0 ++ sysFields1

/-! ### Block PWR (class 1, 02 Table 2.5) -/

/-- `PWR.STATE.REQ` [1:0] -/
def pwrStateReq : Fld := ⟨1, 0x4, 1, 0x4, 1, 0x4, 0, 2, .wo, 0x0, .any, false⟩
/-- `PWR.STATE.CUR` [10:8] -/
def pwrStateCur : Fld := ⟨1, 0x4, 1, 0x4, 1, 0x4, 8, 3, .ro, 0x0, .any, false⟩
/-- `PWR.STATE.RESULT` [15:12] -/
def pwrStateResult : Fld := ⟨1, 0x4, 1, 0x4, 1, 0x4, 12, 4, .ro, 0x0, .any, false⟩
/-- `PWR.STATE.REASON` [19:16] -/
def pwrStateReason : Fld := ⟨1, 0x4, 1, 0x4, 1, 0x4, 16, 4, .ro, 0x0, .any, false⟩
/-- `PWR.HALL_CTL.ON` [9:0] -/
def pwrHallCtl : Fld := ⟨1, 0x8, 1, 0x4, 1, 0x4, 0, 10, .rw, 0x3ff, .any, false⟩
/-- `PWR.HALL_STAT.ON` [9:0] -/
def pwrHallStatOn : Fld := ⟨1, 0xc, 1, 0x4, 1, 0x4, 0, 10, .ro, 0x3ff, .any, false⟩
/-- `PWR.HALL_STAT.READY` [25:16] -/
def pwrHallStatReady : Fld := ⟨1, 0xc, 1, 0x4, 1, 0x4, 16, 10, .ro, 0x3ff, .any, false⟩
/-- `PWR.HALL_RST.RST` [9:2] -/
def pwrHallRst : Fld := ⟨1, 0x10, 1, 0x4, 1, 0x4, 2, 8, .wo, 0x0, .any, false⟩
/-- `PWR.DOZE_GATE.GATE` [9:1] -/
def pwrDozeGate : Fld := ⟨1, 0x14, 1, 0x4, 1, 0x4, 1, 9, .rw, 0x1ff, .any, false⟩
/-- `PWR.WAKE_EN.EN` [6:0] -/
def pwrWakeEn : Fld := ⟨1, 0x18, 1, 0x4, 1, 0x4, 0, 7, .rw, 0xf, .any, false⟩
/-- `PWR.WAKE_CAUSE.CAUSE` [6:0] -/
def pwrWakeCause : Fld := ⟨1, 0x1c, 1, 0x4, 1, 0x4, 0, 7, .w1c, 0x0, .any, false⟩
/-- `PWR.RST_CAUSE.CAUSE` [2:0] -/
def pwrRstCause : Fld := ⟨1, 0x20, 1, 0x4, 1, 0x4, 0, 3, .ro, 0x0, .any, false⟩
/-- `PWR.RESET.KEY` [15:0] -/
def pwrResetKey : Fld := ⟨1, 0x24, 1, 0x4, 1, 0x4, 0, 16, .wo, 0x0, .any, false⟩
/-- `PWR.RESET.DIE` [31:31] -/
def pwrResetDie : Fld := ⟨1, 0x24, 1, 0x4, 1, 0x4, 31, 1, .wo, 0x0, .any, false⟩
/-- `PWR.BOOT.STAGE` [2:0] -/
def pwrBootStage : Fld := ⟨1, 0x28, 1, 0x4, 1, 0x4, 0, 3, .ro, 0x0, .any, false⟩
/-- `PWR.BOOT.BANK` [4:4] -/
def pwrBootBank : Fld := ⟨1, 0x28, 1, 0x4, 1, 0x4, 4, 1, .ro, 0x0, .any, false⟩
/-- `PWR.BOOT.FALLBACK` [5:5] -/
def pwrBootFallback : Fld := ⟨1, 0x28, 1, 0x4, 1, 0x4, 5, 1, .ro, 0x0, .any, false⟩
/-- `PWR.BOOT.FAIL` [15:8] -/
def pwrBootFail : Fld := ⟨1, 0x28, 1, 0x4, 1, 0x4, 8, 8, .ro, 0x0, .any, false⟩
/-- `PWR.CNT_DOZES.COUNT` [31:0] -/
def pwrCntDozes : Fld := ⟨1, 0x30, 1, 0x4, 1, 0x4, 0, 32, .rc, 0x0, .any, true⟩
/-- `PWR.CNT_RESTS.COUNT` [31:0] -/
def pwrCntRests : Fld := ⟨1, 0x34, 1, 0x4, 1, 0x4, 0, 32, .rc, 0x0, .any, true⟩
/-- `PWR.CNT_ABORTS.COUNT` [31:0] -/
def pwrCntAborts : Fld := ⟨1, 0x38, 1, 0x4, 1, 0x4, 0, 32, .rc, 0x0, .any, false⟩

def pwrFields0 : List Fld :=
    [pwrStateReq, pwrStateCur, pwrStateResult, pwrStateReason, pwrHallCtl, pwrHallStatOn, pwrHallStatReady,
   pwrHallRst, pwrDozeGate, pwrWakeEn, pwrWakeCause, pwrRstCause, pwrResetKey, pwrResetDie, pwrBootStage, pwrBootBank,
   pwrBootFallback, pwrBootFail, pwrCntDozes, pwrCntRests, pwrCntAborts]
/-- The fields of block PWR. -/
def pwrFields : List Fld := pwrFields0

/-! ### Block CAN (class 2, 02 Table 2.5) -/

/-- `CAN.SEL.INDEX` [7:0] -/
def canSelIndex : Fld := ⟨2, 0x0, 1, 0x4, 1, 0x4, 0, 8, .rw, 0x0, .any, false⟩
/-- `CAN.SEL.ERR` [31:31] -/
def canSelErr : Fld := ⟨2, 0x0, 1, 0x4, 1, 0x4, 31, 1, .ro, 0x0, .any, false⟩
/-- `CAN.WAKE.CH` [31:0] -/
def canWake : Fld := ⟨2, 0x4, 1, 0x4, 1, 0x4, 0, 32, .w1c, 0x0, .any, false⟩
/-- `CAN.CTRL.EN` [0:0] -/
def canCtrlEn : Fld := ⟨2, 0x100, 1, 0x4, 1, 0x4, 0, 1, .rws, 0x0, .any, false⟩
/-- `CAN.CTRL.OPMODE` [2:1] -/
def canCtrlOpmode : Fld := ⟨2, 0x100, 1, 0x4, 1, 0x4, 1, 2, .rws, 0x0, (.range 0 2), false⟩
/-- `CAN.CTRL.LISTEN` [3:3] -/
def canCtrlListen : Fld := ⟨2, 0x100, 1, 0x4, 1, 0x4, 3, 1, .rws, 0x0, .any, false⟩
/-- `CAN.CTRL.TRIPLE` [4:4] -/
def canCtrlTriple : Fld := ⟨2, 0x100, 1, 0x4, 1, 0x4, 4, 1, .rws, 0x0, .any, false⟩
/-- `CAN.CTRL.XLFAST` [5:5] -/
def canCtrlXlfast : Fld := ⟨2, 0x100, 1, 0x4, 1, 0x4, 5, 1, .rws, 0x0, .any, false⟩
/-- `CAN.CTRL.PEX` [6:6] -/
def canCtrlPex : Fld := ⟨2, 0x100, 1, 0x4, 1, 0x4, 6, 1, .rws, 0x0, .any, false⟩
/-- `CAN.CTRL.AUTOREC` [7:7] -/
def canCtrlAutorec : Fld := ⟨2, 0x100, 1, 0x4, 1, 0x4, 7, 1, .rws, 0x1, .any, false⟩
/-- `CAN.CTRL.BOFF_FLUSH` [8:8] -/
def canCtrlBoffFlush : Fld := ⟨2, 0x100, 1, 0x4, 1, 0x4, 8, 1, .rws, 0x0, .any, false⟩
/-- `CAN.CTRL.TB` [14:12] -/
def canCtrlTb : Fld := ⟨2, 0x100, 1, 0x4, 1, 0x4, 12, 3, .rws, 0x0, .any, false⟩
/-- `CAN.NBT.BRP` [7:0] -/
def canNbtBrp : Fld := ⟨2, 0x104, 1, 0x4, 1, 0x4, 0, 8, .rws, 0x1, .any, false⟩
/-- `CAN.NBT.TSEG1` [15:8] -/
def canNbtTseg1 : Fld := ⟨2, 0x104, 1, 0x4, 1, 0x4, 8, 8, .rws, 0x7e, (.range 1 255), false⟩
/-- `CAN.NBT.TSEG2` [22:16] -/
def canNbtTseg2 : Fld := ⟨2, 0x104, 1, 0x4, 1, 0x4, 16, 7, .rws, 0x1f, .any, false⟩
/-- `CAN.NBT.SJW` [30:24] -/
def canNbtSjw : Fld := ⟨2, 0x104, 1, 0x4, 1, 0x4, 24, 7, .rws, 0x1f, .any, false⟩
/-- `CAN.DBT.BRP` [7:0] -/
def canDbtBrp : Fld := ⟨2, 0x108, 1, 0x4, 1, 0x4, 0, 8, .rws, 0x1, .any, false⟩
/-- `CAN.DBT.TSEG1` [12:8] -/
def canDbtTseg1 : Fld := ⟨2, 0x108, 1, 0x4, 1, 0x4, 8, 5, .rws, 0x1c, .any, false⟩
/-- `CAN.DBT.TSEG2` [19:16] -/
def canDbtTseg2 : Fld := ⟨2, 0x108, 1, 0x4, 1, 0x4, 16, 4, .rws, 0x9, .any, false⟩
/-- `CAN.DBT.SJW` [27:24] -/
def canDbtSjw : Fld := ⟨2, 0x108, 1, 0x4, 1, 0x4, 24, 4, .rws, 0x9, .any, false⟩
/-- `CAN.XBT.BRP` [7:0] -/
def canXbtBrp : Fld := ⟨2, 0x10c, 1, 0x4, 1, 0x4, 0, 8, .rws, 0x1, .any, false⟩
/-- `CAN.XBT.TSEG1` [12:8] -/
def canXbtTseg1 : Fld := ⟨2, 0x10c, 1, 0x4, 1, 0x4, 8, 5, .rws, 0x1c, .any, false⟩
/-- `CAN.XBT.TSEG2` [19:16] -/
def canXbtTseg2 : Fld := ⟨2, 0x10c, 1, 0x4, 1, 0x4, 16, 4, .rws, 0x9, .any, false⟩
/-- `CAN.XBT.SJW` [27:24] -/
def canXbtSjw : Fld := ⟨2, 0x10c, 1, 0x4, 1, 0x4, 24, 4, .rws, 0x9, .any, false⟩
/-- `CAN.TDC.TDCO` [6:0] -/
def canTdcTdco : Fld := ⟨2, 0x110, 1, 0x4, 1, 0x4, 0, 7, .rws, 0x3c, .any, false⟩
/-- `CAN.TDC.TDCEN` [8:8] -/
def canTdcTdcen : Fld := ⟨2, 0x110, 1, 0x4, 1, 0x4, 8, 1, .rws, 0x0, .any, false⟩
/-- `CAN.TDC.TDCV` [22:16] -/
def canTdcTdcv : Fld := ⟨2, 0x110, 1, 0x4, 1, 0x4, 16, 7, .ro, 0x0, .any, false⟩
/-- `CAN.XLPWM.PWMS` [5:0] -/
def canXlpwmPwms : Fld := ⟨2, 0x114, 1, 0x4, 1, 0x4, 0, 6, .rws, 0x2, (.range 1 63), false⟩
/-- `CAN.XLPWM.PWML` [13:8] -/
def canXlpwmPwml : Fld := ⟨2, 0x114, 1, 0x4, 1, 0x4, 8, 6, .rws, 0x6, (.range 1 63), false⟩
/-- `CAN.XLPWM.PWMO` [21:16] -/
def canXlpwmPwmo : Fld := ⟨2, 0x114, 1, 0x4, 1, 0x4, 16, 6, .rws, 0x0, .any, false⟩
/-- `CAN.RETRY.COUNT` [7:0] -/
def canRetryCount : Fld := ⟨2, 0x118, 1, 0x4, 1, 0x4, 0, 8, .rws, 0x10, .any, false⟩
/-- `CAN.RETRY.TIME` [31:16] -/
def canRetryTime : Fld := ⟨2, 0x118, 1, 0x4, 1, 0x4, 16, 16, .rws, 0x0, .any, false⟩
/-- `CAN.TXTMO.LIMIT` [15:0] -/
def canTxtmo : Fld := ⟨2, 0x11c, 1, 0x4, 1, 0x4, 0, 16, .rws, 0x0, .any, false⟩
/-- `CAN.QCFG.RXQ0` [5:0] -/
def canQcfgRxq0 : Fld := ⟨2, 0x120, 1, 0x4, 1, 0x4, 0, 6, .rws, 0x0, .any, false⟩
/-- `CAN.QCFG.RXQ0_EN` [6:6] -/
def canQcfgRxq0En : Fld := ⟨2, 0x120, 1, 0x4, 1, 0x4, 6, 1, .rws, 0x0, .any, false⟩
/-- `CAN.QCFG.RXQ1` [13:8] -/
def canQcfgRxq1 : Fld := ⟨2, 0x120, 1, 0x4, 1, 0x4, 8, 6, .rws, 0x0, .any, false⟩
/-- `CAN.QCFG.RXQ1_EN` [14:14] -/
def canQcfgRxq1En : Fld := ⟨2, 0x120, 1, 0x4, 1, 0x4, 14, 1, .rws, 0x0, .any, false⟩
/-- `CAN.QCFG.HTX` [21:16] -/
def canQcfgHtx : Fld := ⟨2, 0x120, 1, 0x4, 1, 0x4, 16, 6, .rws, 0x0, .any, false⟩
/-- `CAN.QCFG.HTX_EN` [22:22] -/
def canQcfgHtxEn : Fld := ⟨2, 0x120, 1, 0x4, 1, 0x4, 22, 1, .rws, 0x0, .any, false⟩
/-- `CAN.QCFG.TXC` [29:24] -/
def canQcfgTxc : Fld := ⟨2, 0x120, 1, 0x4, 1, 0x4, 24, 6, .rws, 0x0, .any, false⟩
/-- `CAN.QCFG.TXC_EN` [30:30] -/
def canQcfgTxcEn : Fld := ⟨2, 0x120, 1, 0x4, 1, 0x4, 30, 1, .rws, 0x0, .any, false⟩
/-- `CAN.BOFF.HOLD` [15:0] -/
def canBoffHold : Fld := ⟨2, 0x124, 1, 0x4, 1, 0x4, 0, 16, .rws, 0x0, .any, false⟩
/-- `CAN.BOFF.RECOVER` [31:31] -/
def canBoffRecover : Fld := ⟨2, 0x124, 1, 0x4, 1, 0x4, 31, 1, .wo, 0x0, .any, false⟩
/-- `CAN.STAT.STATE` [1:0] -/
def canStatState : Fld := ⟨2, 0x128, 1, 0x4, 1, 0x4, 0, 2, .ro, 0x0, .any, false⟩
/-- `CAN.STAT.TRIPLE_ACT` [2:2] -/
def canStatTripleAct : Fld := ⟨2, 0x128, 1, 0x4, 1, 0x4, 2, 1, .ro, 0x0, .any, false⟩
/-- `CAN.STAT.TEC` [16:8] -/
def canStatTec : Fld := ⟨2, 0x128, 1, 0x4, 1, 0x4, 8, 9, .ro, 0x0, .any, false⟩
/-- `CAN.STAT.REC` [31:24] -/
def canStatRec : Fld := ⟨2, 0x128, 1, 0x4, 1, 0x4, 24, 8, .ro, 0x0, .any, false⟩
/-- `CAN.TXQ.ENTRIES` [6:0] -/
def canTxqEntries : Fld := ⟨2, 0x12c, 1, 0x4, 1, 0x4, 0, 7, .ro, 0x0, .any, false⟩
/-- `CAN.TXQ.BYTES` [21:8] -/
def canTxqBytes : Fld := ⟨2, 0x12c, 1, 0x4, 1, 0x4, 8, 14, .ro, 0x0, .any, false⟩
/-- `CAN.SLEEP.REQ` [0:0] -/
def canSleepReq : Fld := ⟨2, 0x130, 1, 0x4, 1, 0x4, 0, 1, .wo, 0x0, .any, false⟩
/-- `CAN.SLEEP.WAKE` [2:1] -/
def canSleepWake : Fld := ⟨2, 0x130, 1, 0x4, 1, 0x4, 1, 2, .rws, 0x0, (.range 0 2), false⟩
/-- `CAN.WF_ID.ID` [28:0] -/
def canWfIdId : Fld := ⟨2, 0x134, 1, 0x4, 1, 0x4, 0, 29, .rws, 0x0, .any, false⟩
/-- `CAN.WF_ID.IDE` [29:29] -/
def canWfIdIde : Fld := ⟨2, 0x134, 1, 0x4, 1, 0x4, 29, 1, .rws, 0x0, .any, false⟩
/-- `CAN.WF_MASK.MASK` [28:0] -/
def canWfMask : Fld := ⟨2, 0x138, 1, 0x4, 1, 0x4, 0, 29, .rws, 0x1fffffff, .any, false⟩
/-- `CAN.WF_CFG.DLC` [3:0] -/
def canWfCfg : Fld := ⟨2, 0x13c, 1, 0x4, 1, 0x4, 0, 4, .rws, 0x8, (.range 0 8), false⟩
/-- `CAN.WF_DATA_LO.DATA` [31:0] -/
def canWfDataLo : Fld := ⟨2, 0x140, 1, 0x4, 1, 0x4, 0, 32, .rws, 0x0, .any, false⟩
/-- `CAN.WF_DATA_HI.DATA` [31:0] -/
def canWfDataHi : Fld := ⟨2, 0x144, 1, 0x4, 1, 0x4, 0, 32, .rws, 0x0, .any, false⟩
/-- `CAN.CNT_RX_OK.COUNT` [31:0] -/
def canCntRxOk : Fld := ⟨2, 0x180, 1, 0x4, 1, 0x4, 0, 32, .rc, 0x0, .any, true⟩
/-- `CAN.CNT_TX_OK.COUNT` [31:0] -/
def canCntTxOk : Fld := ⟨2, 0x184, 1, 0x4, 1, 0x4, 0, 32, .rc, 0x0, .any, true⟩
/-- `CAN.CNT_NOMATCH.COUNT` [31:0] -/
def canCntNomatch : Fld := ⟨2, 0x188, 1, 0x4, 1, 0x4, 0, 32, .rc, 0x0, .any, false⟩
/-- `CAN.CNT_RXQ0_OVF.COUNT` [31:0] -/
def canCntRxq0Ovf : Fld := ⟨2, 0x18c, 1, 0x4, 1, 0x4, 0, 32, .rc, 0x0, .any, false⟩
/-- `CAN.CNT_RXQ1_OVF.COUNT` [31:0] -/
def canCntRxq1Ovf : Fld := ⟨2, 0x190, 1, 0x4, 1, 0x4, 0, 32, .rc, 0x0, .any, false⟩
/-- `CAN.CNT_BUF_SIZE.COUNT` [31:0] -/
def canCntBufSize : Fld := ⟨2, 0x194, 1, 0x4, 1, 0x4, 0, 32, .rc, 0x0, .any, false⟩
/-- `CAN.CNT_BUF_LOST.COUNT` [31:0] -/
def canCntBufLost : Fld := ⟨2, 0x198, 1, 0x4, 1, 0x4, 0, 32, .rc, 0x0, .any, false⟩
/-- `CAN.CNT_TXQ_FULL.COUNT` [31:0] -/
def canCntTxqFull : Fld := ⟨2, 0x19c, 1, 0x4, 1, 0x4, 0, 32, .rc, 0x0, .any, false⟩
/-- `CAN.CNT_TX_ABANDON.COUNT` [31:0] -/
def canCntTxAbandon : Fld := ⟨2, 0x1a0, 1, 0x4, 1, 0x4, 0, 32, .rc, 0x0, .any, false⟩
/-- `CAN.CNT_TX_EXPIRED.COUNT` [31:0] -/
def canCntTxExpired : Fld := ⟨2, 0x1a4, 1, 0x4, 1, 0x4, 0, 32, .rc, 0x0, .any, false⟩
/-- `CAN.CNT_TX_FLUSHED.COUNT` [31:0] -/
def canCntTxFlushed : Fld := ⟨2, 0x1a8, 1, 0x4, 1, 0x4, 0, 32, .rc, 0x0, .any, false⟩
/-- `CAN.CNT_TX_BAD.COUNT` [31:0] -/
def canCntTxBad : Fld := ⟨2, 0x1ac, 1, 0x4, 1, 0x4, 0, 32, .rc, 0x0, .any, false⟩
/-- `CAN.CNT_TXC_DROP.COUNT` [31:0] -/
def canCntTxcDrop : Fld := ⟨2, 0x1b0, 1, 0x4, 1, 0x4, 0, 32, .rc, 0x0, .any, false⟩
/-- `CAN.CNT_BUS_OFF.COUNT` [31:0] -/
def canCntBusOff : Fld := ⟨2, 0x1b4, 1, 0x4, 1, 0x4, 0, 32, .rc, 0x0, .any, false⟩
/-- `CAN.CNT_ERR_A.BIT` [15:0] -/
def canCntErrABit : Fld := ⟨2, 0x1b8, 1, 0x4, 1, 0x4, 0, 16, .rc, 0x0, .any, false⟩
/-- `CAN.CNT_ERR_A.STUFF` [31:16] -/
def canCntErrAStuff : Fld := ⟨2, 0x1b8, 1, 0x4, 1, 0x4, 16, 16, .rc, 0x0, .any, false⟩
/-- `CAN.CNT_ERR_B.FORM` [15:0] -/
def canCntErrBForm : Fld := ⟨2, 0x1bc, 1, 0x4, 1, 0x4, 0, 16, .rc, 0x0, .any, false⟩
/-- `CAN.CNT_ERR_B.CRC` [31:16] -/
def canCntErrBCrc : Fld := ⟨2, 0x1bc, 1, 0x4, 1, 0x4, 16, 16, .rc, 0x0, .any, false⟩
/-- `CAN.CNT_ERR_C.ACK` [15:0] -/
def canCntErrC : Fld := ⟨2, 0x1c0, 1, 0x4, 1, 0x4, 0, 16, .rc, 0x0, .any, false⟩
/-- `CAN.TM_A.ID` [28:0] -/
def canTmAId : Fld := ⟨2, 0x1d0, 1, 0x4, 1, 0x4, 0, 29, .rws, 0x0, .any, false⟩
/-- `CAN.TM_A.IDE` [29:29] -/
def canTmAIde : Fld := ⟨2, 0x1d0, 1, 0x4, 1, 0x4, 29, 1, .rws, 0x0, .any, false⟩
/-- `CAN.TM_A.FMT` [30:30] -/
def canTmAFmt : Fld := ⟨2, 0x1d0, 1, 0x4, 1, 0x4, 30, 1, .rws, 0x0, .any, false⟩
/-- `CAN.TM_A.EN` [31:31] -/
def canTmAEn : Fld := ⟨2, 0x1d0, 1, 0x4, 1, 0x4, 31, 1, .rws, 0x0, .any, false⟩
/-- `CAN.TM_B.PERIOD` [15:0] -/
def canTmBPeriod : Fld := ⟨2, 0x1d4, 1, 0x4, 1, 0x4, 0, 16, .rws, 0x64, (.range 1 65535), false⟩
/-- `CAN.TM_B.TB` [18:16] -/
def canTmBTb : Fld := ⟨2, 0x1d4, 1, 0x4, 1, 0x4, 16, 3, .rws, 0x0, .any, false⟩
/-- `CAN.TM_B.DOMAIN` [27:24] -/
def canTmBDomain : Fld := ⟨2, 0x1d4, 1, 0x4, 1, 0x4, 24, 4, .rws, 0x0, .any, false⟩
/-- `CAN.TM_C.SEQ` [3:0] -/
def canTmCSeq : Fld := ⟨2, 0x1d8, 1, 0x4, 1, 0x4, 0, 4, .ro, 0x0, .any, true⟩
/-- `CAN.TM_C.SENT` [31:16] -/
def canTmCSent : Fld := ⟨2, 0x1d8, 1, 0x4, 1, 0x4, 16, 16, .ro, 0x0, .any, true⟩
/-- `CAN.CMB_CTRL.DIR` [0:0] -/
def canCmbCtrlDir : Fld := ⟨2, 0x1000, 32, 0x80, 1, 0x4, 0, 1, .rws, 0x0, .any, false⟩
/-- `CAN.CMB_CTRL.NEW` [1:1] -/
def canCmbCtrlNew : Fld := ⟨2, 0x1000, 32, 0x80, 1, 0x4, 1, 1, .w1c, 0x0, .any, false⟩
/-- `CAN.CMB_CTRL.LOST` [2:2] -/
def canCmbCtrlLost : Fld := ⟨2, 0x1000, 32, 0x80, 1, 0x4, 2, 1, .w1c, 0x0, .any, false⟩
/-- `CAN.CMB_CTRL.PEND` [3:3] -/
def canCmbCtrlPend : Fld := ⟨2, 0x1000, 32, 0x80, 1, 0x4, 3, 1, .ro, 0x0, .any, false⟩
/-- `CAN.CMB_CTRL.TRIG` [4:4] -/
def canCmbCtrlTrig : Fld := ⟨2, 0x1000, 32, 0x80, 1, 0x4, 4, 1, .wo, 0x0, .any, false⟩
/-- `CAN.CMB_CTRL.SKIP` [31:16] -/
def canCmbCtrlSkip : Fld := ⟨2, 0x1000, 32, 0x80, 1, 0x4, 16, 16, .rc, 0x0, .any, false⟩
/-- `CAN.CMB_HDR.WORD` [31:0] -/
def canCmbHdr : Fld := ⟨2, 0x1004, 32, 0x80, 4, 0x4, 0, 32, .rw, 0x0, .any, false⟩
/-- `CAN.CMB_STAMP.STAMP` [31:0] -/
def canCmbStamp : Fld := ⟨2, 0x1014, 32, 0x80, 1, 0x4, 0, 32, .ro, 0x0, .any, false⟩
/-- `CAN.CMB_DATA.WORD` [31:0] -/
def canCmbData : Fld := ⟨2, 0x1020, 32, 0x80, 16, 0x4, 0, 32, .rw, 0x0, .any, false⟩
/-- `CAN.FLT_A.MATCH` [28:0] -/
def canFltAMatch : Fld := ⟨2, 0x2000, 128, 0x10, 1, 0x4, 0, 29, .rws, 0x0, .any, false⟩
/-- `CAN.FLT_A.IDE` [29:29] -/
def canFltAIde : Fld := ⟨2, 0x2000, 128, 0x10, 1, 0x4, 29, 1, .rws, 0x0, .any, false⟩
/-- `CAN.FLT_B.MASK` [28:0] -/
def canFltBMask : Fld := ⟨2, 0x2004, 128, 0x10, 1, 0x4, 0, 29, .rws, 0x0, .any, false⟩
/-- `CAN.FLT_B.MIDE` [29:29] -/
def canFltBMide : Fld := ⟨2, 0x2004, 128, 0x10, 1, 0x4, 29, 1, .rws, 0x0, .any, false⟩
/-- `CAN.FLT_C.DEST` [4:0] -/
def canFltCDest : Fld := ⟨2, 0x2008, 128, 0x10, 1, 0x4, 0, 5, .rws, 0x0, .any, false⟩
/-- `CAN.FLT_C.BUF` [9:5] -/
def canFltCBuf : Fld := ⟨2, 0x2008, 128, 0x10, 1, 0x4, 5, 5, .rws, 0x0, .any, false⟩
/-- `CAN.FLT_C.CLUSTER` [11:10] -/
def canFltCCluster : Fld := ⟨2, 0x2008, 128, 0x10, 1, 0x4, 10, 2, .rws, 0x0, .any, false⟩
/-- `CAN.FLT_C.ENTRY` [19:12] -/
def canFltCEntry : Fld := ⟨2, 0x2008, 128, 0x10, 1, 0x4, 12, 8, .rws, 0x0, .any, false⟩
/-- `CAN.FLT_C.FMTS` [22:20] -/
def canFltCFmts : Fld := ⟨2, 0x2008, 128, 0x10, 1, 0x4, 20, 3, .rws, 0x7, .any, false⟩
/-- `CAN.FLT_C.EN` [31:31] -/
def canFltCEn : Fld := ⟨2, 0x2008, 128, 0x10, 1, 0x4, 31, 1, .rws, 0x0, .any, false⟩

def canFields0 : List Fld :=
    [canSelIndex, canSelErr, canWake, canCtrlEn, canCtrlOpmode, canCtrlListen, canCtrlTriple, canCtrlXlfast,
   canCtrlPex, canCtrlAutorec, canCtrlBoffFlush, canCtrlTb, canNbtBrp, canNbtTseg1, canNbtTseg2, canNbtSjw, canDbtBrp,
   canDbtTseg1, canDbtTseg2, canDbtSjw, canXbtBrp, canXbtTseg1, canXbtTseg2, canXbtSjw, canTdcTdco, canTdcTdcen,
   canTdcTdcv, canXlpwmPwms, canXlpwmPwml, canXlpwmPwmo, canRetryCount, canRetryTime, canTxtmo, canQcfgRxq0,
   canQcfgRxq0En, canQcfgRxq1, canQcfgRxq1En, canQcfgHtx, canQcfgHtxEn, canQcfgTxc]
def canFields1 : List Fld :=
    [canQcfgTxcEn, canBoffHold, canBoffRecover, canStatState, canStatTripleAct, canStatTec, canStatRec, canTxqEntries,
   canTxqBytes, canSleepReq, canSleepWake, canWfIdId, canWfIdIde, canWfMask, canWfCfg, canWfDataLo, canWfDataHi,
   canCntRxOk, canCntTxOk, canCntNomatch, canCntRxq0Ovf, canCntRxq1Ovf, canCntBufSize, canCntBufLost, canCntTxqFull,
   canCntTxAbandon, canCntTxExpired, canCntTxFlushed, canCntTxBad, canCntTxcDrop, canCntBusOff, canCntErrABit,
   canCntErrAStuff, canCntErrBForm, canCntErrBCrc, canCntErrC, canTmAId, canTmAIde, canTmAFmt, canTmAEn]
def canFields2 : List Fld :=
    [canTmBPeriod, canTmBTb, canTmBDomain, canTmCSeq, canTmCSent, canCmbCtrlDir, canCmbCtrlNew, canCmbCtrlLost,
   canCmbCtrlPend, canCmbCtrlTrig, canCmbCtrlSkip, canCmbHdr, canCmbStamp, canCmbData, canFltAMatch, canFltAIde,
   canFltBMask, canFltBMide, canFltCDest, canFltCBuf, canFltCCluster, canFltCEntry, canFltCFmts, canFltCEn]
/-- The fields of block CAN. -/
def canFields : List Fld := canFields0 ++ canFields1 ++ canFields2

/-! ### Block LIN (class 3, 02 Table 2.5) -/

/-- `LIN.SEL.INDEX` [7:0] -/
def linSelIndex : Fld := ⟨3, 0x0, 1, 0x4, 1, 0x4, 0, 8, .rw, 0x0, .any, false⟩
/-- `LIN.SEL.ERR` [31:31] -/
def linSelErr : Fld := ⟨3, 0x0, 1, 0x4, 1, 0x4, 31, 1, .ro, 0x0, .any, false⟩
/-- `LIN.CTRL.EN` [0:0] -/
def linCtrlEn : Fld := ⟨3, 0x100, 1, 0x4, 1, 0x4, 0, 1, .rws, 0x0, .any, false⟩
/-- `LIN.CTRL.ROLE` [1:1] -/
def linCtrlRole : Fld := ⟨3, 0x100, 1, 0x4, 1, 0x4, 1, 1, .rws, 0x0, .any, false⟩
/-- `LIN.CTRL.BRK` [7:4] -/
def linCtrlBrk : Fld := ⟨3, 0x100, 1, 0x4, 1, 0x4, 4, 4, .rws, 0x0, (.range 0 13), false⟩
/-- `LIN.CTRL.DELIM` [9:8] -/
def linCtrlDelim : Fld := ⟨3, 0x100, 1, 0x4, 1, 0x4, 8, 2, .rws, 0x0, .any, false⟩
/-- `LIN.CTRL.TB` [14:12] -/
def linCtrlTb : Fld := ⟨3, 0x100, 1, 0x4, 1, 0x4, 12, 3, .rws, 0x0, .any, false⟩
/-- `LIN.CTRL.BAUD` [31:16] -/
def linCtrlBaud : Fld := ⟨3, 0x100, 1, 0x4, 1, 0x4, 16, 16, .rws, 0x4b00, (.range 1000 20000), false⟩
/-- `LIN.TRIG.SLOT` [5:0] -/
def linTrigSlot : Fld := ⟨3, 0x104, 1, 0x4, 1, 0x4, 0, 6, .wo, 0x0, .any, false⟩
/-- `LIN.TRIG.GO` [31:31] -/
def linTrigGo : Fld := ⟨3, 0x104, 1, 0x4, 1, 0x4, 31, 1, .wo, 0x0, .any, false⟩
/-- `LIN.SLEEP.GTS` [0:0] -/
def linSleepGts : Fld := ⟨3, 0x108, 1, 0x4, 1, 0x4, 0, 1, .wo, 0x0, .any, false⟩
/-- `LIN.SLEEP.WAKEUP` [1:1] -/
def linSleepWakeup : Fld := ⟨3, 0x108, 1, 0x4, 1, 0x4, 1, 1, .wo, 0x0, .any, false⟩
/-- `LIN.SLEEP.IDLE` [2:2] -/
def linSleepIdle : Fld := ⟨3, 0x108, 1, 0x4, 1, 0x4, 2, 1, .rws, 0x0, .any, false⟩
/-- `LIN.STAT.STATE` [1:0] -/
def linStatState : Fld := ⟨3, 0x10c, 1, 0x4, 1, 0x4, 0, 2, .ro, 0x0, .any, false⟩
/-- `LIN.STAT.LAST_ID` [13:8] -/
def linStatLastId : Fld := ⟨3, 0x10c, 1, 0x4, 1, 0x4, 8, 6, .ro, 0x0, .any, false⟩
/-- `LIN.QCFG.RXQ0` [5:0] -/
def linQcfgRxq0 : Fld := ⟨3, 0x110, 1, 0x4, 1, 0x4, 0, 6, .rws, 0x0, .any, false⟩
/-- `LIN.QCFG.RXQ0_EN` [6:6] -/
def linQcfgRxq0En : Fld := ⟨3, 0x110, 1, 0x4, 1, 0x4, 6, 1, .rws, 0x0, .any, false⟩
/-- `LIN.QCFG.RXQ1` [13:8] -/
def linQcfgRxq1 : Fld := ⟨3, 0x110, 1, 0x4, 1, 0x4, 8, 6, .rws, 0x0, .any, false⟩
/-- `LIN.QCFG.RXQ1_EN` [14:14] -/
def linQcfgRxq1En : Fld := ⟨3, 0x110, 1, 0x4, 1, 0x4, 14, 1, .rws, 0x0, .any, false⟩
/-- `LIN.CNT_RX_OK.COUNT` [31:0] -/
def linCntRxOk : Fld := ⟨3, 0x180, 1, 0x4, 1, 0x4, 0, 32, .rc, 0x0, .any, true⟩
/-- `LIN.CNT_TX_OK.COUNT` [31:0] -/
def linCntTxOk : Fld := ⟨3, 0x184, 1, 0x4, 1, 0x4, 0, 32, .rc, 0x0, .any, true⟩
/-- `LIN.CNT_NO_RESP.COUNT` [31:0] -/
def linCntNoResp : Fld := ⟨3, 0x188, 1, 0x4, 1, 0x4, 0, 32, .rc, 0x0, .any, false⟩
/-- `LIN.CNT_CSUM.COUNT` [31:0] -/
def linCntCsum : Fld := ⟨3, 0x18c, 1, 0x4, 1, 0x4, 0, 32, .rc, 0x0, .any, false⟩
/-- `LIN.CNT_BIT.COUNT` [31:0] -/
def linCntBit : Fld := ⟨3, 0x190, 1, 0x4, 1, 0x4, 0, 32, .rc, 0x0, .any, false⟩
/-- `LIN.CNT_SYNC.COUNT` [31:0] -/
def linCntSync : Fld := ⟨3, 0x194, 1, 0x4, 1, 0x4, 0, 32, .rc, 0x0, .any, false⟩
/-- `LIN.CNT_OVERRUN.COUNT` [31:0] -/
def linCntOverrun : Fld := ⟨3, 0x198, 1, 0x4, 1, 0x4, 0, 32, .rc, 0x0, .any, false⟩
/-- `LIN.CNT_RESP_OVW.COUNT` [31:0] -/
def linCntRespOvw : Fld := ⟨3, 0x19c, 1, 0x4, 1, 0x4, 0, 32, .rc, 0x0, .any, false⟩
/-- `LIN.CNT_RXQ_OVF.COUNT` [31:0] -/
def linCntRxqOvf : Fld := ⟨3, 0x1a0, 1, 0x4, 1, 0x4, 0, 32, .rc, 0x0, .any, false⟩
/-- `LIN.IDCFG.DIR` [1:0] -/
def linIdcfgDir : Fld := ⟨3, 0x200, 64, 0x4, 1, 0x4, 0, 2, .rws, 0x0, (.range 0 2), false⟩
/-- `LIN.IDCFG.LEN` [4:2] -/
def linIdcfgLen : Fld := ⟨3, 0x200, 64, 0x4, 1, 0x4, 2, 3, .rws, 0x7, .any, false⟩
/-- `LIN.IDCFG.CSUM` [5:5] -/
def linIdcfgCsum : Fld := ⟨3, 0x200, 64, 0x4, 1, 0x4, 5, 1, .rws, 0x1, .any, false⟩
/-- `LIN.IDCFG.DEST` [10:7] -/
def linIdcfgDest : Fld := ⟨3, 0x200, 64, 0x4, 1, 0x4, 7, 4, .rws, 0x0, .any, false⟩
/-- `LIN.IDCFG.CLUSTER` [12:11] -/
def linIdcfgCluster : Fld := ⟨3, 0x200, 64, 0x4, 1, 0x4, 11, 2, .rws, 0x0, .any, false⟩
/-- `LIN.IDCFG.ENTRY` [20:13] -/
def linIdcfgEntry : Fld := ⟨3, 0x200, 64, 0x4, 1, 0x4, 13, 8, .rws, 0x0, .any, false⟩
/-- `LIN.RESP_LO.DATA` [31:0] -/
def linRespLo : Fld := ⟨3, 0x400, 64, 0x10, 1, 0x4, 0, 32, .rw, 0x0, .any, false⟩
/-- `LIN.RESP_HI.DATA` [31:0] -/
def linRespHi : Fld := ⟨3, 0x404, 64, 0x10, 1, 0x4, 0, 32, .rw, 0x0, .any, false⟩
/-- `LIN.RESP_CTL.PUB` [0:0] -/
def linRespCtlPub : Fld := ⟨3, 0x408, 64, 0x10, 1, 0x4, 0, 1, .wo, 0x0, .any, false⟩
/-- `LIN.RESP_CTL.VALID` [1:1] -/
def linRespCtlValid : Fld := ⟨3, 0x408, 64, 0x10, 1, 0x4, 1, 1, .ro, 0x0, .any, false⟩
/-- `LIN.RESP_CTL.CLR` [2:2] -/
def linRespCtlClr : Fld := ⟨3, 0x408, 64, 0x10, 1, 0x4, 2, 1, .wo, 0x0, .any, false⟩
/-- `LIN.RESP_CTL.UPD` [31:16] -/
def linRespCtlUpd : Fld := ⟨3, 0x408, 64, 0x10, 1, 0x4, 16, 16, .ro, 0x0, .any, true⟩
/-- `LIN.SLOT.ID` [5:0] -/
def linSlotId : Fld := ⟨3, 0x800, 64, 0x4, 1, 0x4, 0, 6, .rws, 0x0, .any, false⟩
/-- `LIN.SLOT.EN` [8:8] -/
def linSlotEn : Fld := ⟨3, 0x800, 64, 0x4, 1, 0x4, 8, 1, .rws, 0x0, .any, false⟩

def linFields0 : List Fld :=
    [linSelIndex, linSelErr, linCtrlEn, linCtrlRole, linCtrlBrk, linCtrlDelim, linCtrlTb, linCtrlBaud, linTrigSlot,
   linTrigGo, linSleepGts, linSleepWakeup, linSleepIdle, linStatState, linStatLastId, linQcfgRxq0, linQcfgRxq0En,
   linQcfgRxq1, linQcfgRxq1En, linCntRxOk, linCntTxOk, linCntNoResp, linCntCsum, linCntBit, linCntSync, linCntOverrun,
   linCntRespOvw, linCntRxqOvf, linIdcfgDir, linIdcfgLen, linIdcfgCsum, linIdcfgDest, linIdcfgCluster, linIdcfgEntry,
   linRespLo, linRespHi, linRespCtlPub, linRespCtlValid, linRespCtlClr, linRespCtlUpd]
def linFields1 : List Fld :=
  [linSlotId, linSlotEn]
/-- The fields of block LIN. -/
def linFields : List Fld := linFields0 ++ linFields1

/-! ### Block ETH (class 4, 02 Table 2.5) -/

/-- `ETH.SEL.INDEX` [7:0] -/
def ethSelIndex : Fld := ⟨4, 0x0, 1, 0x4, 1, 0x4, 0, 8, .rw, 0x0, .any, false⟩
/-- `ETH.SEL.ERR` [31:31] -/
def ethSelErr : Fld := ⟨4, 0x0, 1, 0x4, 1, 0x4, 31, 1, .ro, 0x0, .any, false⟩
/-- `ETH.WAKE.PORT` [25:0] -/
def ethWake : Fld := ⟨4, 0x4, 1, 0x4, 1, 0x4, 0, 26, .w1c, 0x0, .any, false⟩
/-- `ETH.MODE.KIND` [3:0] -/
def ethModeKind : Fld := ⟨4, 0x100, 1, 0x4, 1, 0x4, 0, 4, .rws, 0x0, .range 0 7, false⟩
/-- `ETH.MODE.FEC` [5:4] -/
def ethModeFec : Fld := ⟨4, 0x100, 1, 0x4, 1, 0x4, 4, 2, .rws, 0x0, (.range 0 2), false⟩
/-- `ETH.MODE.MASTER` [6:6] -/
def ethModeMaster : Fld := ⟨4, 0x100, 1, 0x4, 1, 0x4, 6, 1, .rws, 0x0, .any, false⟩
/-- `ETH.MODE.USXRATE` [9:8] -/
def ethModeUsxrate : Fld := ⟨4, 0x100, 1, 0x4, 1, 0x4, 8, 2, .rws, 0x0, .any, false⟩
/-- `ETH.MAXLEN.LEN` [13:0] -/
def ethMaxlen : Fld := ⟨4, 0x104, 1, 0x4, 1, 0x4, 0, 14, .rws, 0x5f2, (.range 64 9216), false⟩
/-- `ETH.MAC_LO.ADDR` [31:0] -/
def ethMacLo : Fld := ⟨4, 0x108, 1, 0x4, 1, 0x4, 0, 32, .rw, 0x0, .any, false⟩
/-- `ETH.MAC_HI.ADDR` [15:0] -/
def ethMacHi : Fld := ⟨4, 0x10c, 1, 0x4, 1, 0x4, 0, 16, .rw, 0x0, .any, false⟩
/-- `ETH.LINK.UP` [0:0] -/
def ethLinkUp : Fld := ⟨4, 0x110, 1, 0x4, 1, 0x4, 0, 1, .ro, 0x0, .any, false⟩
/-- `ETH.LINK.RATE` [3:1] -/
def ethLinkRate : Fld := ⟨4, 0x110, 1, 0x4, 1, 0x4, 1, 3, .ro, 0x0, .any, false⟩
/-- `ETH.LINK.SQI` [10:8] -/
def ethLinkSqi : Fld := ⟨4, 0x110, 1, 0x4, 1, 0x4, 8, 3, .ro, 0x0, .any, false⟩
/-- `ETH.LINK.LPI` [16:16] -/
def ethLinkLpi : Fld := ⟨4, 0x110, 1, 0x4, 1, 0x4, 16, 1, .ro, 0x0, .any, false⟩
/-- `ETH.LINK.ASLEEP` [17:17] -/
def ethLinkAsleep : Fld := ⟨4, 0x110, 1, 0x4, 1, 0x4, 17, 1, .ro, 0x0, .any, false⟩
/-- `ETH.RXR_A.VID` [11:0] -/
def ethRxrAVid : Fld := ⟨4, 0x200, 16, 0x10, 1, 0x4, 0, 12, .rws, 0x0, .any, false⟩
/-- `ETH.RXR_A.VIDMASK` [23:12] -/
def ethRxrAVidmask : Fld := ⟨4, 0x200, 16, 0x10, 1, 0x4, 12, 12, .rws, 0x0, .any, false⟩
/-- `ETH.RXR_A.TAG` [25:24] -/
def ethRxrATag : Fld := ⟨4, 0x200, 16, 0x10, 1, 0x4, 24, 2, .rws, 0x0, (.range 0 2), false⟩
/-- `ETH.RXR_A.EN` [31:31] -/
def ethRxrAEn : Fld := ⟨4, 0x200, 16, 0x10, 1, 0x4, 31, 1, .rws, 0x0, .any, false⟩
/-- `ETH.RXR_B.ETYPE` [15:0] -/
def ethRxrBEtype : Fld := ⟨4, 0x204, 16, 0x10, 1, 0x4, 0, 16, .rws, 0x0, .any, false⟩
/-- `ETH.RXR_B.ETMASK` [31:16] -/
def ethRxrBEtmask : Fld := ⟨4, 0x204, 16, 0x10, 1, 0x4, 16, 16, .rws, 0x0, .any, false⟩
/-- `ETH.RXR_C.PCPSET` [7:0] -/
def ethRxrCPcpset : Fld := ⟨4, 0x208, 16, 0x10, 1, 0x4, 0, 8, .rws, 0xff, .any, false⟩
/-- `ETH.RXR_C.CLASS` [10:8] -/
def ethRxrCClass : Fld := ⟨4, 0x208, 16, 0x10, 1, 0x4, 8, 3, .rws, 0x0, .any, false⟩
/-- `ETH.RXC_A.ACTION` [1:0] -/
def ethRxcAAction : Fld := ⟨4, 0x300, 8, 0x8, 1, 0x4, 0, 2, .rws, 0x0, (.range 0 2), false⟩
/-- `ETH.RXC_A.POOL` [3:2] -/
def ethRxcAPool : Fld := ⟨4, 0x300, 8, 0x8, 1, 0x4, 2, 2, .rws, 0x0, .any, false⟩
/-- `ETH.RXC_A.TCSRC` [4:4] -/
def ethRxcATcsrc : Fld := ⟨4, 0x300, 8, 0x8, 1, 0x4, 4, 1, .rws, 0x0, .any, false⟩
/-- `ETH.RXC_A.TC` [7:5] -/
def ethRxcATc : Fld := ⟨4, 0x300, 8, 0x8, 1, 0x4, 5, 3, .rws, 0x0, .any, false⟩
/-- `ETH.RXC_B.COUNT` [31:0] -/
def ethRxcB : Fld := ⟨4, 0x304, 8, 0x8, 1, 0x4, 0, 32, .rc, 0x0, .any, true⟩
/-- `ETH.RXDEF.DEF_PCP` [2:0] -/
def ethRxdef : Fld := ⟨4, 0x380, 1, 0x4, 1, 0x4, 0, 3, .rws, 0x0, .any, false⟩
/-- `ETH.PCP2TC.MAP` [23:0] -/
def ethPcp2tc : Fld := ⟨4, 0x384, 1, 0x4, 1, 0x4, 0, 24, .rws, 0xfac688, .any, false⟩
/-- `ETH.PAUSE_A.TXEN` [0:0] -/
def ethPauseATxen : Fld := ⟨4, 0x390, 1, 0x4, 1, 0x4, 0, 1, .rws, 0x0, .any, false⟩
/-- `ETH.PAUSE_A.RXEN` [1:1] -/
def ethPauseARxen : Fld := ⟨4, 0x390, 1, 0x4, 1, 0x4, 1, 1, .rws, 0x0, .any, false⟩
/-- `ETH.PAUSE_A.QUANTA` [31:16] -/
def ethPauseAQuanta : Fld := ⟨4, 0x390, 1, 0x4, 1, 0x4, 16, 16, .rws, 0xffff, .any, false⟩
/-- `ETH.PAUSE_B.HIGH` [15:0] -/
def ethPauseBHigh : Fld := ⟨4, 0x394, 1, 0x4, 1, 0x4, 0, 16, .rws, 0x400, .any, false⟩
/-- `ETH.PAUSE_B.LOW` [31:16] -/
def ethPauseBLow : Fld := ⟨4, 0x394, 1, 0x4, 1, 0x4, 16, 16, .rws, 0x200, .any, false⟩
/-- `ETH.PAUSE_C.REFRESH` [15:0] -/
def ethPauseCRefresh : Fld := ⟨4, 0x398, 1, 0x4, 1, 0x4, 0, 16, .rws, 0x3e8, (.range 1 65535), false⟩
/-- `ETH.PAUSE_C.LIMIT` [31:16] -/
def ethPauseCLimit : Fld := ⟨4, 0x398, 1, 0x4, 1, 0x4, 16, 16, .rws, 0x1388, (.range 0 10000), false⟩
/-- `ETH.PAUSE_D.ERR` [0:0] -/
def ethPauseDErr : Fld := ⟨4, 0x39c, 1, 0x4, 1, 0x4, 0, 1, .ro, 0x0, .any, false⟩
/-- `ETH.PAUSE_D.XOFF` [1:1] -/
def ethPauseDXoff : Fld := ⟨4, 0x39c, 1, 0x4, 1, 0x4, 1, 1, .ro, 0x0, .any, false⟩
/-- `ETH.PAUSE_D.PAUSED` [2:2] -/
def ethPauseDPaused : Fld := ⟨4, 0x39c, 1, 0x4, 1, 0x4, 2, 1, .ro, 0x0, .any, false⟩
/-- `ETH.LPI.EN` [0:0] -/
def ethLpiEn : Fld := ⟨4, 0x3a0, 1, 0x4, 1, 0x4, 0, 1, .rws, 0x0, .any, false⟩
/-- `ETH.LPI.IDLE` [31:16] -/
def ethLpiIdle : Fld := ⟨4, 0x3a0, 1, 0x4, 1, 0x4, 16, 16, .rws, 0x64, (.range 1 65535), false⟩
/-- `ETH.STEP_A.EN` [0:0] -/
def ethStepAEn : Fld := ⟨4, 0x3b0, 1, 0x4, 1, 0x4, 0, 1, .rws, 0x0, .any, false⟩
/-- `ETH.STEP_A.LO` [15:8] -/
def ethStepALo : Fld := ⟨4, 0x3b0, 1, 0x4, 1, 0x4, 8, 8, .rws, 0x32, (.range 1 100), false⟩
/-- `ETH.STEP_A.DWELL` [23:16] -/
def ethStepADwell : Fld := ⟨4, 0x3b0, 1, 0x4, 1, 0x4, 16, 8, .rws, 0x64, (.range 1 255), false⟩
/-- `ETH.STEP_A.DLY` [31:24] -/
def ethStepADly : Fld := ⟨4, 0x3b0, 1, 0x4, 1, 0x4, 24, 8, .rws, 0x14, (.range 10 255), false⟩
/-- `ETH.STEP_B.UP` [15:0] -/
def ethStepB : Fld := ⟨4, 0x3b4, 1, 0x4, 1, 0x4, 0, 16, .rws, 0x100, (.range 1 65535), false⟩
/-- `ETH.STEP_C.RATE` [0:0] -/
def ethStepCRate : Fld := ⟨4, 0x3b8, 1, 0x4, 1, 0x4, 0, 1, .ro, 0x1, .any, false⟩
/-- `ETH.STEP_C.STATE` [3:1] -/
def ethStepCState : Fld := ⟨4, 0x3b8, 1, 0x4, 1, 0x4, 1, 3, .ro, 0x0, .any, false⟩
/-- `ETH.STEP_C.GAP_MAX` [31:16] -/
def ethStepCGapMax : Fld := ⟨4, 0x3b8, 1, 0x4, 1, 0x4, 16, 16, .rc, 0x0, .any, false⟩
/-- `ETH.PLCA_A.EN` [0:0] -/
def ethPlcaAEn : Fld := ⟨4, 0x3c0, 1, 0x4, 1, 0x4, 0, 1, .rws, 0x0, .any, false⟩
/-- `ETH.PLCA_A.ID` [15:8] -/
def ethPlcaAId : Fld := ⟨4, 0x3c0, 1, 0x4, 1, 0x4, 8, 8, .rws, 0x0, (.range 0 254), false⟩
/-- `ETH.PLCA_A.NCNT` [23:16] -/
def ethPlcaANcnt : Fld := ⟨4, 0x3c0, 1, 0x4, 1, 0x4, 16, 8, .rws, 0x8, (.range 1 255), false⟩
/-- `ETH.PLCA_B.TO` [7:0] -/
def ethPlcaBTo : Fld := ⟨4, 0x3c4, 1, 0x4, 1, 0x4, 0, 8, .rws, 0x20, .any, false⟩
/-- `ETH.PLCA_B.BURST_CNT` [15:8] -/
def ethPlcaBBurstCnt : Fld := ⟨4, 0x3c4, 1, 0x4, 1, 0x4, 8, 8, .rws, 0x0, .any, false⟩
/-- `ETH.PLCA_B.BURST_TMR` [23:16] -/
def ethPlcaBBurstTmr : Fld := ⟨4, 0x3c4, 1, 0x4, 1, 0x4, 16, 8, .rws, 0x80, .any, false⟩
/-- `ETH.PLCA_C.PST` [0:0] -/
def ethPlcaC : Fld := ⟨4, 0x3c8, 1, 0x4, 1, 0x4, 0, 1, .ro, 0x0, .any, false⟩
/-- `ETH.TC10.SLEEP` [0:0] -/
def ethTc10Sleep : Fld := ⟨4, 0x3d0, 1, 0x4, 1, 0x4, 0, 1, .wo, 0x0, .any, false⟩
/-- `ETH.TC10.WUP` [1:1] -/
def ethTc10Wup : Fld := ⟨4, 0x3d0, 1, 0x4, 1, 0x4, 1, 1, .wo, 0x0, .any, false⟩
/-- `ETH.TC10.ACCEPT` [2:2] -/
def ethTc10Accept : Fld := ⟨4, 0x3d0, 1, 0x4, 1, 0x4, 2, 1, .rws, 0x1, .any, false⟩
/-- `ETH.TC10.WAKE_EN` [3:3] -/
def ethTc10WakeEn : Fld := ⟨4, 0x3d0, 1, 0x4, 1, 0x4, 3, 1, .rws, 0x1, .any, false⟩
/-- `ETH.TC10_FWD.PORTS` [25:0] -/
def ethTc10Fwd : Fld := ⟨4, 0x3d4, 1, 0x4, 1, 0x4, 0, 26, .rws, 0x0, .any, false⟩
/-- `ETH.TS.TB` [2:0] -/
def ethTs : Fld := ⟨4, 0x3e0, 1, 0x4, 1, 0x4, 0, 3, .rws, 0x0, .any, false⟩
/-- `ETH.LAT.LAT_RX` [15:0] -/
def ethLatLatRx : Fld := ⟨4, 0x3e4, 1, 0x4, 1, 0x4, 0, 16, .rws, 0x0, .any, false⟩
/-- `ETH.LAT.LAT_TX` [31:16] -/
def ethLatLatTx : Fld := ⟨4, 0x3e4, 1, 0x4, 1, 0x4, 16, 16, .rws, 0x0, .any, false⟩
/-- `ETH.TSQ.QB` [5:0] -/
def ethTsqQb : Fld := ⟨4, 0x3f0, 1, 0x4, 1, 0x4, 0, 6, .rws, 0x0, .any, false⟩
/-- `ETH.TSQ.EN` [6:6] -/
def ethTsqEn : Fld := ⟨4, 0x3f0, 1, 0x4, 1, 0x4, 6, 1, .rws, 0x0, .any, false⟩
/-- `ETH.TXID.NEXT` [15:0] -/
def ethTxid : Fld := ⟨4, 0x3f4, 1, 0x4, 1, 0x4, 0, 16, .ro, 0x0, .any, true⟩
/-- `ETH.CNT_RX_OK.COUNT` [31:0] -/
def ethCntRxOk : Fld := ⟨4, 0x400, 1, 0x4, 1, 0x4, 0, 32, .rc, 0x0, .any, true⟩
/-- `ETH.CNT_RX_BYTES_LO.COUNT` [31:0] -/
def ethCntRxBytesLo : Fld := ⟨4, 0x404, 1, 0x4, 1, 0x4, 0, 32, .rc, 0x0, .any, true⟩
/-- `ETH.CNT_RX_BYTES_HI.COUNT` [31:0] -/
def ethCntRxBytesHi : Fld := ⟨4, 0x408, 1, 0x4, 1, 0x4, 0, 32, .rc, 0x0, .any, true⟩
/-- `ETH.CNT_TX_OK.COUNT` [31:0] -/
def ethCntTxOk : Fld := ⟨4, 0x40c, 1, 0x4, 1, 0x4, 0, 32, .rc, 0x0, .any, true⟩
/-- `ETH.CNT_TX_BYTES_LO.COUNT` [31:0] -/
def ethCntTxBytesLo : Fld := ⟨4, 0x410, 1, 0x4, 1, 0x4, 0, 32, .rc, 0x0, .any, true⟩
/-- `ETH.CNT_TX_BYTES_HI.COUNT` [31:0] -/
def ethCntTxBytesHi : Fld := ⟨4, 0x414, 1, 0x4, 1, 0x4, 0, 32, .rc, 0x0, .any, true⟩
/-- `ETH.CNT_RUNT.COUNT` [31:0] -/
def ethCntRunt : Fld := ⟨4, 0x418, 1, 0x4, 1, 0x4, 0, 32, .rc, 0x0, .any, false⟩
/-- `ETH.CNT_OVERSIZE.COUNT` [31:0] -/
def ethCntOversize : Fld := ⟨4, 0x41c, 1, 0x4, 1, 0x4, 0, 32, .rc, 0x0, .any, false⟩
/-- `ETH.CNT_FCS_ERR.COUNT` [31:0] -/
def ethCntFcsErr : Fld := ⟨4, 0x420, 1, 0x4, 1, 0x4, 0, 32, .rc, 0x0, .any, false⟩
/-- `ETH.CNT_RX_DROP_POOL.COUNT` [31:0] -/
def ethCntRxDropPool : Fld := ⟨4, 0x424, 1, 0x4, 1, 0x4, 0, 32, .rc, 0x0, .any, false⟩
/-- `ETH.CNT_RX_DROP_CLASS.COUNT` [31:0] -/
def ethCntRxDropClass : Fld := ⟨4, 0x428, 1, 0x4, 1, 0x4, 0, 32, .rc, 0x0, .any, false⟩
/-- `ETH.CNT_RX_STOMPED.COUNT` [31:0] -/
def ethCntRxStomped : Fld := ⟨4, 0x42c, 1, 0x4, 1, 0x4, 0, 32, .rc, 0x0, .any, false⟩
/-- `ETH.CNT_TX_STOMPED.COUNT` [31:0] -/
def ethCntTxStomped : Fld := ⟨4, 0x430, 1, 0x4, 1, 0x4, 0, 32, .rc, 0x0, .any, false⟩
/-- `ETH.CNT_TX_OVERSIZE.COUNT` [31:0] -/
def ethCntTxOversize : Fld := ⟨4, 0x434, 1, 0x4, 1, 0x4, 0, 32, .rc, 0x0, .any, false⟩
/-- `ETH.CNT_TX_DROP_LINK.COUNT` [31:0] -/
def ethCntTxDropLink : Fld := ⟨4, 0x438, 1, 0x4, 1, 0x4, 0, 32, .rc, 0x0, .any, false⟩
/-- `ETH.CNT_TX_DROP_SLEEP.COUNT` [31:0] -/
def ethCntTxDropSleep : Fld := ⟨4, 0x43c, 1, 0x4, 1, 0x4, 0, 32, .rc, 0x0, .any, false⟩
/-- `ETH.CNT_PAUSE_RX.COUNT` [31:0] -/
def ethCntPauseRx : Fld := ⟨4, 0x440, 1, 0x4, 1, 0x4, 0, 32, .rc, 0x0, .any, false⟩
/-- `ETH.CNT_PAUSE_TX.COUNT` [31:0] -/
def ethCntPauseTx : Fld := ⟨4, 0x444, 1, 0x4, 1, 0x4, 0, 32, .rc, 0x0, .any, false⟩
/-- `ETH.CNT_PAUSE_IGNORED.COUNT` [31:0] -/
def ethCntPauseIgnored : Fld := ⟨4, 0x448, 1, 0x4, 1, 0x4, 0, 32, .rc, 0x0, .any, false⟩
/-- `ETH.CNT_TS_OVF.COUNT` [31:0] -/
def ethCntTsOvf : Fld := ⟨4, 0x44c, 1, 0x4, 1, 0x4, 0, 32, .rc, 0x0, .any, false⟩
/-- `ETH.CNT_LPI_ENTRIES.COUNT` [31:0] -/
def ethCntLpiEntries : Fld := ⟨4, 0x450, 1, 0x4, 1, 0x4, 0, 32, .rc, 0x0, .any, false⟩
/-- `ETH.CNT_STEP_OK.COUNT` [31:0] -/
def ethCntStepOk : Fld := ⟨4, 0x454, 1, 0x4, 1, 0x4, 0, 32, .rc, 0x0, .any, false⟩
/-- `ETH.CNT_STEP_FAIL.COUNT` [31:0] -/
def ethCntStepFail : Fld := ⟨4, 0x458, 1, 0x4, 1, 0x4, 0, 32, .rc, 0x0, .any, false⟩
/-- `ETH.CNT_PLCA_CONFLICT.COUNT` [31:0] -/
def ethCntPlcaConflict : Fld := ⟨4, 0x45c, 1, 0x4, 1, 0x4, 0, 32, .rc, 0x0, .any, false⟩
/-- `ETH.CNT_LINK_DOWN.COUNT` [31:0] -/
def ethCntLinkDown : Fld := ⟨4, 0x460, 1, 0x4, 1, 0x4, 0, 32, .rc, 0x0, .any, false⟩
/-- `ETH.CNT_CTL_OTHER.COUNT` [31:0] -/
def ethCntCtlOther : Fld := ⟨4, 0x464, 1, 0x4, 1, 0x4, 0, 32, .rc, 0x0, .any, false⟩

def ethFields0 : List Fld :=
    [ethSelIndex, ethSelErr, ethWake, ethModeKind, ethModeFec, ethModeMaster, ethModeUsxrate, ethMaxlen, ethMacLo,
   ethMacHi, ethLinkUp, ethLinkRate, ethLinkSqi, ethLinkLpi, ethLinkAsleep, ethRxrAVid, ethRxrAVidmask, ethRxrATag,
   ethRxrAEn, ethRxrBEtype, ethRxrBEtmask, ethRxrCPcpset, ethRxrCClass, ethRxcAAction, ethRxcAPool, ethRxcATcsrc,
   ethRxcATc, ethRxcB, ethRxdef, ethPcp2tc, ethPauseATxen, ethPauseARxen, ethPauseAQuanta, ethPauseBHigh,
   ethPauseBLow, ethPauseCRefresh, ethPauseCLimit, ethPauseDErr, ethPauseDXoff, ethPauseDPaused]
def ethFields1 : List Fld :=
    [ethLpiEn, ethLpiIdle, ethStepAEn, ethStepALo, ethStepADwell, ethStepADly, ethStepB, ethStepCRate, ethStepCState,
   ethStepCGapMax, ethPlcaAEn, ethPlcaAId, ethPlcaANcnt, ethPlcaBTo, ethPlcaBBurstCnt, ethPlcaBBurstTmr, ethPlcaC,
   ethTc10Sleep, ethTc10Wup, ethTc10Accept, ethTc10WakeEn, ethTc10Fwd, ethTs, ethLatLatRx, ethLatLatTx, ethTsqQb,
   ethTsqEn, ethTxid, ethCntRxOk, ethCntRxBytesLo, ethCntRxBytesHi, ethCntTxOk, ethCntTxBytesLo, ethCntTxBytesHi,
   ethCntRunt, ethCntOversize, ethCntFcsErr, ethCntRxDropPool, ethCntRxDropClass, ethCntRxStomped]
def ethFields2 : List Fld :=
    [ethCntTxStomped, ethCntTxOversize, ethCntTxDropLink, ethCntTxDropSleep, ethCntPauseRx, ethCntPauseTx,
   ethCntPauseIgnored, ethCntTsOvf, ethCntLpiEntries, ethCntStepOk, ethCntStepFail, ethCntPlcaConflict,
   ethCntLinkDown, ethCntCtlOther]
/-- The fields of block ETH. -/
def ethFields : List Fld := ethFields0 ++ ethFields1 ++ ethFields2

/-! ### Block SWC (class 5, 02 Table 2.5) -/

/-- `SWC.DESC.FREE` [16:0] -/
def swcDesc : Fld := ⟨5, 0x4, 1, 0x4, 1, 0x4, 0, 17, .ro, 0x10000, .any, false⟩
/-- `SWC.CELLS.FREE` [16:0] -/
def swcCells : Fld := ⟨5, 0x8, 1, 0x4, 1, 0x4, 0, 17, .ro, 0x18000, .any, false⟩
/-- `SWC.SHARED.USED` [16:0] -/
def swcShared : Fld := ⟨5, 0xc, 1, 0x4, 1, 0x4, 0, 17, .ro, 0x0, .any, false⟩
/-- `SWC.DESC_DROP.COUNT` [31:0] -/
def swcDescDrop : Fld := ⟨5, 0x10, 1, 0x4, 1, 0x4, 0, 32, .rc, 0x0, .any, false⟩
/-- `SWC.LKP_DROP.COUNT` [31:0] -/
def swcLkpDrop : Fld := ⟨5, 0x14, 1, 0x4, 1, 0x4, 0, 32, .rc, 0x0, .any, false⟩
/-- `SWC.LKP.LEVEL` [9:0] -/
def swcLkp : Fld := ⟨5, 0x18, 1, 0x4, 1, 0x4, 0, 10, .ro, 0x0, .any, false⟩
/-- `SWC.P27_UNMAPPED.COUNT` [31:0] -/
def swcP27Unmapped : Fld := ⟨5, 0x1c, 1, 0x4, 1, 0x4, 0, 32, .rc, 0x0, .any, false⟩
/-- `SWC.RTAG_PORTS.PORTS` [25:0] -/
def swcRtagPorts : Fld := ⟨5, 0x20, 1, 0x4, 1, 0x4, 0, 26, .rws, 0x0, .any, false⟩
/-- `SWC.POOL_A.RSV` [16:0] -/
def swcPoolARsv : Fld := ⟨5, 0x100, 4, 0x10, 1, 0x4, 0, 17, .rws, 0x0, (.range 0 98304), false⟩
/-- `SWC.POOL_A.SCHED` [31:31] -/
def swcPoolASched : Fld := ⟨5, 0x100, 4, 0x10, 1, 0x4, 31, 1, .rws, 0x0, .any, false⟩
/-- `SWC.POOL_B.USED` [16:0] -/
def swcPoolB : Fld := ⟨5, 0x104, 4, 0x10, 1, 0x4, 0, 17, .ro, 0x0, .any, false⟩
/-- `SWC.POOL_C.PEAK` [16:0] -/
def swcPoolC : Fld := ⟨5, 0x108, 4, 0x10, 1, 0x4, 0, 17, .rc, 0x0, .any, false⟩
/-- `SWC.PQ.LIMIT` [16:0] -/
def swcPq : Fld := ⟨5, 0x200, 29, 0x10, 4, 0x4, 0, 17, .rws, 0x18000, (.range 0 98304), false⟩
/-- `SWC.P27_MAP.ENTRY` [7:0] -/
def swcP27MapEntry : Fld := ⟨5, 0x400, 64, 0x4, 1, 0x4, 0, 8, .rws, 0x0, .any, false⟩
/-- `SWC.P27_MAP.CLUSTER` [9:8] -/
def swcP27MapCluster : Fld := ⟨5, 0x400, 64, 0x4, 1, 0x4, 8, 2, .rws, 0x0, .any, false⟩
/-- `SWC.P27_MAP.EN` [31:31] -/
def swcP27MapEn : Fld := ⟨5, 0x400, 64, 0x4, 1, 0x4, 31, 1, .rws, 0x0, .any, false⟩
/-- `SWC.EG_CFG.CTEN` [0:0] -/
def swcEgCfgCten : Fld := ⟨5, 0x1000, 29, 0x100, 1, 0x4, 0, 1, .rws, 0x1, .any, false⟩
/-- `SWC.EG_CFG.GBAND` [1:1] -/
def swcEgCfgGband : Fld := ⟨5, 0x1000, 29, 0x100, 1, 0x4, 1, 1, .rws, 0x1, .any, false⟩
/-- `SWC.PRE.PEN` [0:0] -/
def swcPrePen : Fld := ⟨5, 0x1004, 29, 0x100, 1, 0x4, 0, 1, .rws, 0x0, .any, false⟩
/-- `SWC.PRE.VDIS` [1:1] -/
def swcPreVdis : Fld := ⟨5, 0x1004, 29, 0x100, 1, 0x4, 1, 1, .rws, 0x0, .any, false⟩
/-- `SWC.PRE.ADDFRAG` [3:2] -/
def swcPreAddfrag : Fld := ⟨5, 0x1004, 29, 0x100, 1, 0x4, 2, 2, .rws, 0x0, .any, false⟩
/-- `SWC.PRE.EXPRESS` [15:8] -/
def swcPreExpress : Fld := ⟨5, 0x1004, 29, 0x100, 1, 0x4, 8, 8, .rws, 0xff, .any, false⟩
/-- `SWC.PRE.VTIME` [23:16] -/
def swcPreVtime : Fld := ⟨5, 0x1004, 29, 0x100, 1, 0x4, 16, 8, .rws, 0xa, (.range 1 128), false⟩
/-- `SWC.PRE_STAT.VSTATE` [1:0] -/
def swcPreStatVstate : Fld := ⟨5, 0x1008, 29, 0x100, 1, 0x4, 0, 2, .ro, 0x0, .any, false⟩
/-- `SWC.PRE_STAT.ACTIVE` [2:2] -/
def swcPreStatActive : Fld := ⟨5, 0x1008, 29, 0x100, 1, 0x4, 2, 1, .ro, 0x0, .any, false⟩
/-- `SWC.GC_A.EN` [0:0] -/
def swcGcAEn : Fld := ⟨5, 0x1010, 29, 0x100, 1, 0x4, 0, 1, .rws, 0x0, .any, false⟩
/-- `SWC.GC_A.START` [1:1] -/
def swcGcAStart : Fld := ⟨5, 0x1010, 29, 0x100, 1, 0x4, 1, 1, .rws, 0x0, .any, false⟩
/-- `SWC.GC_A.TB` [6:4] -/
def swcGcATb : Fld := ⟨5, 0x1010, 29, 0x100, 1, 0x4, 4, 3, .rws, 0x0, .any, false⟩
/-- `SWC.GC_A.INIT` [15:8] -/
def swcGcAInit : Fld := ⟨5, 0x1010, 29, 0x100, 1, 0x4, 8, 8, .rws, 0xff, .any, false⟩
/-- `SWC.GC_B.HOLDADV` [15:0] -/
def swcGcB : Fld := ⟨5, 0x1014, 29, 0x100, 1, 0x4, 0, 16, .rws, 0x0, .any, false⟩
/-- `SWC.GC_S.BANK` [0:0] -/
def swcGcSBank : Fld := ⟨5, 0x1018, 29, 0x100, 1, 0x4, 0, 1, .ro, 0x0, .any, false⟩
/-- `SWC.GC_S.ENTRY` [15:8] -/
def swcGcSEntry : Fld := ⟨5, 0x1018, 29, 0x100, 1, 0x4, 8, 8, .ro, 0x0, .any, false⟩
/-- `SWC.GC_S.GATES` [23:16] -/
def swcGcSGates : Fld := ⟨5, 0x1018, 29, 0x100, 1, 0x4, 16, 8, .ro, 0xff, .any, false⟩
/-- `SWC.GCB_A.LEN` [8:0] -/
def swcGcbALen : Fld := ⟨5, 0x1020, 29, 0x100, 2, 0x10, 0, 9, .rws, 0x0, (.range 0 256), false⟩
/-- `SWC.GCB_A.CYCHI` [23:16] -/
def swcGcbACychi : Fld := ⟨5, 0x1020, 29, 0x100, 2, 0x10, 16, 8, .rws, 0x0, .any, false⟩
/-- `SWC.GCB_B.CYCLO` [31:0] -/
def swcGcbB : Fld := ⟨5, 0x1024, 29, 0x100, 2, 0x10, 0, 32, .rws, 0x0, .any, false⟩
/-- `SWC.GCB_C.BASE` [31:0] -/
def swcGcbC : Fld := ⟨5, 0x1028, 29, 0x100, 2, 0x10, 0, 32, .rws, 0x0, .any, false⟩
/-- `SWC.GCB_D.BASE` [31:0] -/
def swcGcbD : Fld := ⟨5, 0x102c, 29, 0x100, 2, 0x10, 0, 32, .rws, 0x0, .any, false⟩
/-- `SWC.QC_A.QMAX` [16:0] -/
def swcQcAQmax : Fld := ⟨5, 0x1040, 29, 0x100, 8, 0x10, 0, 17, .rws, 0x18000, (.range 1 98304), false⟩
/-- `SWC.QC_A.HOLD` [20:20] -/
def swcQcAHold : Fld := ⟨5, 0x1040, 29, 0x100, 8, 0x10, 20, 1, .rws, 0x0, .any, false⟩
/-- `SWC.QC_A.RELN` [31:24] -/
def swcQcAReln : Fld := ⟨5, 0x1040, 29, 0x100, 8, 0x10, 24, 8, .rws, 0x1, (.range 1 255), false⟩
/-- `SWC.QC_B.IDLESLOPE` [24:0] -/
def swcQcBIdleslope : Fld := ⟨5, 0x1044, 29, 0x100, 8, 0x10, 0, 25, .rws, 0x0, (.range 0 25000000), false⟩
/-- `SWC.QC_B.CBSEN` [31:31] -/
def swcQcBCbsen : Fld := ⟨5, 0x1044, 29, 0x100, 8, 0x10, 31, 1, .rws, 0x0, .any, false⟩
/-- `SWC.QC_C.MAXSDU` [13:0] -/
def swcQcC : Fld := ⟨5, 0x1048, 29, 0x100, 8, 0x10, 0, 14, .rws, 0x2400, (.range 64 9216), false⟩
/-- `SWC.QC_D.LEVEL` [16:0] -/
def swcQcDLevel : Fld := ⟨5, 0x104c, 29, 0x100, 8, 0x10, 0, 17, .ro, 0x0, .any, false⟩
/-- `SWC.QC_D.ALLOW` [31:24] -/
def swcQcDAllow : Fld := ⟨5, 0x104c, 29, 0x100, 8, 0x10, 24, 8, .ro, 0x0, .any, false⟩
/-- `SWC.QCNT_A.TX_FRAMES` [31:0] -/
def swcQcntA : Fld := ⟨5, 0x8000, 29, 0x100, 8, 0x10, 0, 32, .rc, 0x0, .any, true⟩
/-- `SWC.QCNT_B.DROP_QMAX` [15:0] -/
def swcQcntBDropQmax : Fld := ⟨5, 0x8004, 29, 0x100, 8, 0x10, 0, 16, .rc, 0x0, .any, false⟩
/-- `SWC.QCNT_B.DROP_SDU` [31:16] -/
def swcQcntBDropSdu : Fld := ⟨5, 0x8004, 29, 0x100, 8, 0x10, 16, 16, .rc, 0x0, .any, false⟩
/-- `SWC.QCNT_C.PUSHED_OUT` [31:0] -/
def swcQcntC : Fld := ⟨5, 0x8008, 29, 0x100, 8, 0x10, 0, 32, .rc, 0x0, .any, false⟩
/-- `SWC.QCNT_D.GATE_DEFER` [15:0] -/
def swcQcntDGateDefer : Fld := ⟨5, 0x800c, 29, 0x100, 8, 0x10, 0, 16, .rc, 0x0, .any, false⟩
/-- `SWC.QCNT_D.RELEASE_EMPTY` [31:16] -/
def swcQcntDReleaseEmpty : Fld := ⟨5, 0x800c, 29, 0x100, 8, 0x10, 16, 16, .rc, 0x0, .any, false⟩
/-- `SWC.MM_FRAG_TX.COUNT` [31:0] -/
def swcMmFragTx : Fld := ⟨5, 0x8080, 29, 0x100, 1, 0x4, 0, 32, .rc, 0x0, .any, false⟩
/-- `SWC.MM_FRAG_RX.COUNT` [31:0] -/
def swcMmFragRx : Fld := ⟨5, 0x8084, 29, 0x100, 1, 0x4, 0, 32, .rc, 0x0, .any, false⟩
/-- `SWC.MM_ASM_OK.COUNT` [31:0] -/
def swcMmAsmOk : Fld := ⟨5, 0x8088, 29, 0x100, 1, 0x4, 0, 32, .rc, 0x0, .any, false⟩
/-- `SWC.MM_ASM_ERR.COUNT` [31:0] -/
def swcMmAsmErr : Fld := ⟨5, 0x808c, 29, 0x100, 1, 0x4, 0, 32, .rc, 0x0, .any, false⟩
/-- `SWC.MM_SMD_ERR.COUNT` [31:0] -/
def swcMmSmdErr : Fld := ⟨5, 0x8090, 29, 0x100, 1, 0x4, 0, 32, .rc, 0x0, .any, false⟩
/-- `SWC.CT.CT_FRAMES` [31:0] -/
def swcCt : Fld := ⟨5, 0x8098, 29, 0x100, 1, 0x4, 0, 32, .rc, 0x0, .any, true⟩
/-- `SWC.SF_BLK.BLOCKED` [31:0] -/
def swcSfBlk : Fld := ⟨5, 0xc000, 128, 0x4, 1, 0x4, 0, 32, .w1c, 0x0, .any, false⟩
/-- `SWC.SFC_MATCHED.COUNT` [31:0] -/
def swcSfcMatched : Fld := ⟨5, 0x10000, 4096, 0x10, 1, 0x4, 0, 32, .rc, 0x0, .any, true⟩
/-- `SWC.SFC_PASSED.COUNT` [31:0] -/
def swcSfcPassed : Fld := ⟨5, 0x10004, 4096, 0x10, 1, 0x4, 0, 32, .rc, 0x0, .any, true⟩
/-- `SWC.SFC_DROP_SDU.COUNT` [31:0] -/
def swcSfcDropSdu : Fld := ⟨5, 0x10008, 4096, 0x10, 1, 0x4, 0, 32, .rc, 0x0, .any, false⟩
/-- `SWC.SFC_DROP_METER.COUNT` [31:0] -/
def swcSfcDropMeter : Fld := ⟨5, 0x1000c, 4096, 0x10, 1, 0x4, 0, 32, .rc, 0x0, .any, false⟩
/-- `SWC.FMC_GREEN.COUNT` [31:0] -/
def swcFmcGreen : Fld := ⟨5, 0x20000, 2048, 0x10, 1, 0x4, 0, 32, .rc, 0x0, .any, false⟩
/-- `SWC.FMC_YELLOW.COUNT` [31:0] -/
def swcFmcYellow : Fld := ⟨5, 0x20004, 2048, 0x10, 1, 0x4, 0, 32, .rc, 0x0, .any, false⟩
/-- `SWC.FMC_RED.COUNT` [31:0] -/
def swcFmcRed : Fld := ⟨5, 0x20008, 2048, 0x10, 1, 0x4, 0, 32, .rc, 0x0, .any, false⟩
/-- `SWC.FMC_LATCH.LATCHED` [0:0] -/
def swcFmcLatch : Fld := ⟨5, 0x2000c, 2048, 0x10, 1, 0x4, 0, 1, .w1c, 0x0, .any, false⟩
/-- `SWC.GCL_A.GATES` [7:0] -/
def swcGclAGates : Fld := ⟨5, 0x40000, 52, 0x800, 256, 0x8, 0, 8, .rws, 0x0, .any, false⟩
/-- `SWC.GCL_A.OP` [9:8] -/
def swcGclAOp : Fld := ⟨5, 0x40000, 52, 0x800, 256, 0x8, 8, 2, .rws, 0x0, .range 0 2, false⟩
/-- `SWC.GCL_B.INTERVAL` [31:0] -/
def swcGclB : Fld := ⟨5, 0x40004, 52, 0x800, 256, 0x8, 0, 32, .rws, 0x0, .any, false⟩
/-- `SWC.SRF_A.HIST` [6:0] -/
def swcSrfAHist : Fld := ⟨5, 0x60000, 1024, 0x10, 1, 0x4, 0, 7, .rws, 0x20, (.range 2 64), false⟩
/-- `SWC.SRF_A.ALG` [29:29] -/
def swcSrfAAlg : Fld := ⟨5, 0x60000, 1024, 0x10, 1, 0x4, 29, 1, .rws, 0x0, .any, false⟩
/-- `SWC.SRF_A.TAKE_NO_SEQ` [30:30] -/
def swcSrfATakeNoSeq : Fld := ⟨5, 0x60000, 1024, 0x10, 1, 0x4, 30, 1, .rws, 0x0, .any, false⟩
/-- `SWC.SRF_A.EN` [31:31] -/
def swcSrfAEn : Fld := ⟨5, 0x60000, 1024, 0x10, 1, 0x4, 31, 1, .rws, 0x0, .any, false⟩
/-- `SWC.SRF_B.RESET` [15:0] -/
def swcSrfB : Fld := ⟨5, 0x60004, 1024, 0x10, 1, 0x4, 0, 16, .rws, 0x3e8, (.range 1 65535), false⟩
/-- `SWC.SRF_C.LAST` [15:0] -/
def swcSrfC : Fld := ⟨5, 0x60008, 1024, 0x10, 1, 0x4, 0, 16, .ro, 0x0, .any, false⟩
/-- `SWC.SRC_PASSED.COUNT` [31:0] -/
def swcSrcPassed : Fld := ⟨5, 0x64000, 1024, 0x20, 1, 0x4, 0, 32, .rc, 0x0, .any, true⟩
/-- `SWC.SRC_DISCARDED.COUNT` [31:0] -/
def swcSrcDiscarded : Fld := ⟨5, 0x64004, 1024, 0x20, 1, 0x4, 0, 32, .rc, 0x0, .any, false⟩
/-- `SWC.SRC_OUT_OF_ORDER.COUNT` [31:0] -/
def swcSrcOutOfOrder : Fld := ⟨5, 0x64008, 1024, 0x20, 1, 0x4, 0, 32, .rc, 0x0, .any, false⟩
/-- `SWC.SRC_ROGUE.COUNT` [31:0] -/
def swcSrcRogue : Fld := ⟨5, 0x6400c, 1024, 0x20, 1, 0x4, 0, 32, .rc, 0x0, .any, false⟩
/-- `SWC.SRC_LOST.COUNT` [31:0] -/
def swcSrcLost : Fld := ⟨5, 0x64010, 1024, 0x20, 1, 0x4, 0, 32, .rc, 0x0, .any, false⟩
/-- `SWC.SRC_RESETS.COUNT` [31:0] -/
def swcSrcResets : Fld := ⟨5, 0x64014, 1024, 0x20, 1, 0x4, 0, 32, .rc, 0x0, .any, false⟩
/-- `SWC.SRC_TAGLESS.COUNT` [31:0] -/
def swcSrcTagless : Fld := ⟨5, 0x64018, 1024, 0x20, 1, 0x4, 0, 32, .rc, 0x0, .any, false⟩
/-- `SWC.SGF.NEXT` [15:0] -/
def swcSgfNext : Fld := ⟨5, 0x6c000, 1024, 0x4, 1, 0x4, 0, 16, .ro, 0x0, .any, true⟩
/-- `SWC.SGF.EN` [31:31] -/
def swcSgfEn : Fld := ⟨5, 0x6c000, 1024, 0x4, 1, 0x4, 31, 1, .rws, 0x0, .any, false⟩

def swcFields0 : List Fld :=
    [swcDesc, swcCells, swcShared, swcDescDrop, swcLkpDrop, swcLkp, swcP27Unmapped, swcRtagPorts, swcPoolARsv,
   swcPoolASched, swcPoolB, swcPoolC, swcPq, swcP27MapEntry, swcP27MapCluster, swcP27MapEn, swcEgCfgCten,
   swcEgCfgGband, swcPrePen, swcPreVdis, swcPreAddfrag, swcPreExpress, swcPreVtime, swcPreStatVstate,
   swcPreStatActive, swcGcAEn, swcGcAStart, swcGcATb, swcGcAInit, swcGcB, swcGcSBank, swcGcSEntry, swcGcSGates,
   swcGcbALen, swcGcbACychi, swcGcbB, swcGcbC, swcGcbD, swcQcAQmax, swcQcAHold]
def swcFields1 : List Fld :=
    [swcQcAReln, swcQcBIdleslope, swcQcBCbsen, swcQcC, swcQcDLevel, swcQcDAllow, swcQcntA, swcQcntBDropQmax,
   swcQcntBDropSdu, swcQcntC, swcQcntDGateDefer, swcQcntDReleaseEmpty, swcMmFragTx, swcMmFragRx, swcMmAsmOk,
   swcMmAsmErr, swcMmSmdErr, swcCt, swcSfBlk, swcSfcMatched, swcSfcPassed, swcSfcDropSdu, swcSfcDropMeter,
   swcFmcGreen, swcFmcYellow, swcFmcRed, swcFmcLatch, swcGclAGates, swcGclAOp, swcGclB, swcSrfAHist, swcSrfAAlg,
   swcSrfATakeNoSeq, swcSrfAEn, swcSrfB, swcSrfC, swcSrcPassed, swcSrcDiscarded, swcSrcOutOfOrder, swcSrcRogue]
def swcFields2 : List Fld :=
  [swcSrcLost, swcSrcResets, swcSrcTagless, swcSgfNext, swcSgfEn]
/-- The fields of block SWC. -/
def swcFields : List Fld := swcFields0 ++ swcFields1 ++ swcFields2

/-! ### Block FWT (class 6, 02 Table 2.5) -/

/-- `FWT.LEARN.TB` [2:0] -/
def fwtLearn : Fld := ⟨6, 0x4, 1, 0x4, 1, 0x4, 0, 3, .rws, 0x0, .any, false⟩
/-- `FWT.AGE.TICK` [15:0] -/
def fwtAgeTick : Fld := ⟨6, 0x8, 1, 0x4, 1, 0x4, 0, 16, .rws, 0xea60, (.range 1 65535), false⟩
/-- `FWT.AGE.LIMIT` [23:16] -/
def fwtAgeLimit : Fld := ⟨6, 0x8, 1, 0x4, 1, 0x4, 16, 8, .rws, 0x6, (.range 1 255), false⟩
/-- `FWT.MOVE.HOLDOFF` [15:0] -/
def fwtMoveHoldoff : Fld := ⟨6, 0xc, 1, 0x4, 1, 0x4, 0, 16, .rws, 0x3e8, (.range 0 65000), false⟩
/-- `FWT.MOVE.FLAP_LIMIT` [23:16] -/
def fwtMoveFlapLimit : Fld := ⟨6, 0xc, 1, 0x4, 1, 0x4, 16, 8, .rws, 0x4, (.range 2 255), false⟩
/-- `FWT.FLOOD_UC.PORTS` [28:0] -/
def fwtFloodUc : Fld := ⟨6, 0x10, 1, 0x4, 1, 0x4, 0, 29, .rws, 0x17ffffff, .any, false⟩
/-- `FWT.FLOOD_MC.PORTS` [28:0] -/
def fwtFloodMc : Fld := ⟨6, 0x14, 1, 0x4, 1, 0x4, 0, 29, .rws, 0x17ffffff, .any, false⟩
/-- `FWT.LQ.LEVEL` [10:0] -/
def fwtLqLevel : Fld := ⟨6, 0x18, 1, 0x4, 1, 0x4, 0, 11, .ro, 0x0, .any, false⟩
/-- `FWT.LQ.PEAK` [26:16] -/
def fwtLqPeak : Fld := ⟨6, 0x18, 1, 0x4, 1, 0x4, 16, 11, .rc, 0x0, .any, false⟩
/-- `FWT.FLUSH.PORT` [4:0] -/
def fwtFlushPort : Fld := ⟨6, 0x1c, 1, 0x4, 1, 0x4, 0, 5, .rw, 0x0, (.range 0 28), false⟩
/-- `FWT.FLUSH.BYPORT` [5:5] -/
def fwtFlushByport : Fld := ⟨6, 0x1c, 1, 0x4, 1, 0x4, 5, 1, .rw, 0x0, .any, false⟩
/-- `FWT.FLUSH.BYFID` [6:6] -/
def fwtFlushByfid : Fld := ⟨6, 0x1c, 1, 0x4, 1, 0x4, 6, 1, .rw, 0x0, .any, false⟩
/-- `FWT.FLUSH.FID` [19:8] -/
def fwtFlushFid : Fld := ⟨6, 0x1c, 1, 0x4, 1, 0x4, 8, 12, .rw, 0x0, .any, false⟩
/-- `FWT.FLUSH.BUSY` [30:30] -/
def fwtFlushBusy : Fld := ⟨6, 0x1c, 1, 0x4, 1, 0x4, 30, 1, .ro, 0x0, .any, false⟩
/-- `FWT.FLUSH.GO` [31:31] -/
def fwtFlushGo : Fld := ⟨6, 0x1c, 1, 0x4, 1, 0x4, 31, 1, .wo, 0x0, .any, false⟩
/-- `FWT.UNLOCK.SLOT` [15:0] -/
def fwtUnlockSlot : Fld := ⟨6, 0x20, 1, 0x4, 1, 0x4, 0, 16, .wo, 0x0, .any, false⟩
/-- `FWT.UNLOCK.GO` [31:31] -/
def fwtUnlockGo : Fld := ⟨6, 0x20, 1, 0x4, 1, 0x4, 31, 1, .wo, 0x0, .any, false⟩
/-- `FWT.FLUSH_DOWN.PORTS` [28:0] -/
def fwtFlushDown : Fld := ⟨6, 0x24, 1, 0x4, 1, 0x4, 0, 29, .rws, 0x3ffffff, .any, false⟩
/-- `FWT.NO_DEST.COUNT` [31:0] -/
def fwtNoDest : Fld := ⟨6, 0x28, 1, 0x4, 1, 0x4, 0, 32, .rc, 0x0, .any, false⟩
/-- `FWT.CNT_LEARNED.COUNT` [31:0] -/
def fwtCntLearned : Fld := ⟨6, 0x40, 1, 0x4, 1, 0x4, 0, 32, .rc, 0x0, .any, true⟩
/-- `FWT.CNT_AGED.COUNT` [31:0] -/
def fwtCntAged : Fld := ⟨6, 0x44, 1, 0x4, 1, 0x4, 0, 32, .rc, 0x0, .any, true⟩
/-- `FWT.CNT_EVICTED.COUNT` [31:0] -/
def fwtCntEvicted : Fld := ⟨6, 0x48, 1, 0x4, 1, 0x4, 0, 32, .rc, 0x0, .any, false⟩
/-- `FWT.CNT_LEARN_FAIL.COUNT` [31:0] -/
def fwtCntLearnFail : Fld := ⟨6, 0x4c, 1, 0x4, 1, 0x4, 0, 32, .rc, 0x0, .any, false⟩
/-- `FWT.CNT_LEARN_QDROP.COUNT` [31:0] -/
def fwtCntLearnQdrop : Fld := ⟨6, 0x50, 1, 0x4, 1, 0x4, 0, 32, .rc, 0x0, .any, false⟩
/-- `FWT.CNT_RELOCATED.COUNT` [31:0] -/
def fwtCntRelocated : Fld := ⟨6, 0x54, 1, 0x4, 1, 0x4, 0, 32, .rc, 0x0, .any, false⟩
/-- `FWT.CNT_MOVE_REFUSED.COUNT` [31:0] -/
def fwtCntMoveRefused : Fld := ⟨6, 0x58, 1, 0x4, 1, 0x4, 0, 32, .rc, 0x0, .any, false⟩
/-- `FWT.CNT_FLAPS.COUNT` [31:0] -/
def fwtCntFlaps : Fld := ⟨6, 0x5c, 1, 0x4, 1, 0x4, 0, 32, .rc, 0x0, .any, false⟩
/-- `FWT.CNT_STATIC_CONFLICT.COUNT` [31:0] -/
def fwtCntStaticConflict : Fld := ⟨6, 0x60, 1, 0x4, 1, 0x4, 0, 32, .rc, 0x0, .any, false⟩
/-- `FWT.CNT_FLUSHED.COUNT` [31:0] -/
def fwtCntFlushed : Fld := ⟨6, 0x64, 1, 0x4, 1, 0x4, 0, 32, .rc, 0x0, .any, false⟩
/-- `FWT.UE.COUNT` [15:0] -/
def fwtUe : Fld := ⟨6, 0x80, 8, 0x4, 1, 0x4, 0, 16, .rc, 0x0, .any, false⟩
/-- `FWT.PORT_A.PVID` [11:0] -/
def fwtPortAPvid : Fld := ⟨6, 0x100, 29, 0x8, 1, 0x4, 0, 12, .rws, 0x1, (.range 1 4094), false⟩
/-- `FWT.PORT_A.LEARN` [12:12] -/
def fwtPortALearn : Fld := ⟨6, 0x100, 29, 0x8, 1, 0x4, 12, 1, .rws, 0x1, .any, false⟩
/-- `FWT.PORT_A.IFILT` [13:13] -/
def fwtPortAIfilt : Fld := ⟨6, 0x100, 29, 0x8, 1, 0x4, 13, 1, .rws, 0x1, .any, false⟩
/-- `FWT.PORT_B.VLAN_DROP` [31:0] -/
def fwtPortB : Fld := ⟨6, 0x104, 29, 0x8, 1, 0x4, 0, 32, .rc, 0x0, .any, false⟩
/-- `FWT.EDIT_CTL.TBL` [3:0] -/
def fwtEditCtlTbl : Fld := ⟨6, 0x200, 1, 0x4, 1, 0x4, 0, 4, .rw, 0x0, .any, false⟩
/-- `FWT.EDIT_CTL.OP` [5:4] -/
def fwtEditCtlOp : Fld := ⟨6, 0x200, 1, 0x4, 1, 0x4, 4, 2, .rw, 0x0, .any, false⟩
/-- `FWT.EDIT_CTL.GO` [31:31] -/
def fwtEditCtlGo : Fld := ⟨6, 0x200, 1, 0x4, 1, 0x4, 31, 1, .wo, 0x0, .any, false⟩
/-- `FWT.EDIT_IDX.INDEX` [15:0] -/
def fwtEditIdx : Fld := ⟨6, 0x204, 1, 0x4, 1, 0x4, 0, 16, .rw, 0x0, .any, false⟩
/-- `FWT.EDIT_DATA.WORD` [31:0] -/
def fwtEditData : Fld := ⟨6, 0x208, 8, 0x4, 1, 0x4, 0, 32, .rw, 0x0, .any, false⟩
/-- `FWT.EDIT_STAT.RESULT` [2:0] -/
def fwtEditStatResult : Fld := ⟨6, 0x228, 1, 0x4, 1, 0x4, 0, 3, .ro, 0x0, .any, false⟩
/-- `FWT.EDIT_STAT.COUNT` [26:16] -/
def fwtEditStatCount : Fld := ⟨6, 0x228, 1, 0x4, 1, 0x4, 16, 11, .ro, 0x0, .any, false⟩
/-- `FWT.PROOF_CTL.MODE` [1:0] -/
def fwtProofCtlMode : Fld := ⟨6, 0x300, 1, 0x4, 1, 0x4, 0, 2, .rw, 0x0, (.range 0 2), false⟩
/-- `FWT.PROOF_CTL.TABLES` [15:8] -/
def fwtProofCtlTables : Fld := ⟨6, 0x300, 1, 0x4, 1, 0x4, 8, 8, .rw, 0xff, .any, false⟩
/-- `FWT.PROOF_CTL.GAP` [23:16] -/
def fwtProofCtlGap : Fld := ⟨6, 0x300, 1, 0x4, 1, 0x4, 16, 8, .rw, 0x0, .any, false⟩
/-- `FWT.PROOF_STAT.PAUSED` [0:0] -/
def fwtProofStatPaused : Fld := ⟨6, 0x304, 1, 0x4, 1, 0x4, 0, 1, .ro, 0x0, .any, false⟩
/-- `FWT.PROOF_STAT.TABLE` [3:1] -/
def fwtProofStatTable : Fld := ⟨6, 0x304, 1, 0x4, 1, 0x4, 1, 3, .ro, 0x0, .any, false⟩
/-- `FWT.PROOF_STAT.LAST_MS` [31:16] -/
def fwtProofStatLastMs : Fld := ⟨6, 0x304, 1, 0x4, 1, 0x4, 16, 16, .ro, 0x0, .any, false⟩
/-- `FWT.PROOF_CNT_SWEEPS.COUNT` [31:0] -/
def fwtProofCntSweeps : Fld := ⟨6, 0x308, 1, 0x4, 1, 0x4, 0, 32, .rc, 0x0, .any, true⟩
/-- `FWT.PROOF_CNT_MISMATCH.COUNT` [31:0] -/
def fwtProofCntMismatch : Fld := ⟨6, 0x30c, 1, 0x4, 1, 0x4, 0, 32, .rc, 0x0, .any, false⟩
/-- `FWT.PROOF_CNT_REPAIRED.COUNT` [31:0] -/
def fwtProofCntRepaired : Fld := ⟨6, 0x310, 1, 0x4, 1, 0x4, 0, 32, .rc, 0x0, .any, false⟩
/-- `FWT.NEG_BASE.BASE` [21:12] -/
def fwtNegBase : Fld := ⟨6, 0x340, 8, 0x4, 1, 0x4, 12, 10, .rw, 0x0, .any, false⟩

def fwtFields0 : List Fld :=
    [fwtLearn, fwtAgeTick, fwtAgeLimit, fwtMoveHoldoff, fwtMoveFlapLimit, fwtFloodUc, fwtFloodMc, fwtLqLevel,
   fwtLqPeak, fwtFlushPort, fwtFlushByport, fwtFlushByfid, fwtFlushFid, fwtFlushBusy, fwtFlushGo, fwtUnlockSlot,
   fwtUnlockGo, fwtFlushDown, fwtNoDest, fwtCntLearned, fwtCntAged, fwtCntEvicted, fwtCntLearnFail, fwtCntLearnQdrop,
   fwtCntRelocated, fwtCntMoveRefused, fwtCntFlaps, fwtCntStaticConflict, fwtCntFlushed, fwtUe, fwtPortAPvid,
   fwtPortALearn, fwtPortAIfilt, fwtPortB, fwtEditCtlTbl, fwtEditCtlOp, fwtEditCtlGo, fwtEditIdx, fwtEditData,
   fwtEditStatResult]
def fwtFields1 : List Fld :=
    [fwtEditStatCount, fwtProofCtlMode, fwtProofCtlTables, fwtProofCtlGap, fwtProofStatPaused, fwtProofStatTable,
   fwtProofStatLastMs, fwtProofCntSweeps, fwtProofCntMismatch, fwtProofCntRepaired, fwtNegBase]
/-- The fields of block FWT. -/
def fwtFields : List Fld := fwtFields0 ++ fwtFields1

/-! ### Block FKE (class 7, 02 Table 2.5) -/

/-- `FKE.SEL.INDEX` [7:0] -/
def fkeSelIndex : Fld := ⟨7, 0x0, 1, 0x4, 1, 0x4, 0, 8, .rw, 0x0, .any, false⟩
/-- `FKE.SEL.ERR` [31:31] -/
def fkeSelErr : Fld := ⟨7, 0x0, 1, 0x4, 1, 0x4, 31, 1, .ro, 0x0, .any, false⟩
/-- `FKE.RUN.RUN` [3:0] -/
def fkeRun : Fld := ⟨7, 0x4, 1, 0x4, 1, 0x4, 0, 4, .rws, 0x0, .any, false⟩
/-- `FKE.CL_RESET.RESET` [3:0] -/
def fkeClReset : Fld := ⟨7, 0x8, 1, 0x4, 1, 0x4, 0, 4, .wo, 0x0, .any, false⟩
/-- `FKE.CL_STAT.FENCED` [3:0] -/
def fkeClStatFenced : Fld := ⟨7, 0xc, 1, 0x4, 1, 0x4, 0, 4, .ro, 0x0, .any, false⟩
/-- `FKE.CL_STAT.BUSY` [11:8] -/
def fkeClStatBusy : Fld := ⟨7, 0xc, 1, 0x4, 1, 0x4, 8, 4, .ro, 0x0, .any, false⟩
/-- `FKE.CL_STAT.ASLEEP` [19:16] -/
def fkeClStatAsleep : Fld := ⟨7, 0xc, 1, 0x4, 1, 0x4, 16, 4, .ro, 0x0, .any, false⟩
/-- `FKE.ASLEEP_DROP.COUNT` [31:0] -/
def fkeAsleepDrop : Fld := ⟨7, 0x10, 1, 0x4, 1, 0x4, 0, 32, .rc, 0x0, .any, false⟩
/-- `FKE.CTX_STAT.STATE` [7:0] -/
def fkeCtxStat : Fld := ⟨7, 0x100, 1, 0x4, 1, 0x4, 0, 8, .ro, 0x0, .any, false⟩
/-- `FKE.ISSUED.COUNT` [31:0] -/
def fkeIssued : Fld := ⟨7, 0x104, 1, 0x4, 1, 0x4, 0, 32, .ro, 0x0, .any, true⟩
/-- `FKE.INVOKED.COUNT` [31:0] -/
def fkeInvoked : Fld := ⟨7, 0x108, 1, 0x4, 1, 0x4, 0, 32, .ro, 0x0, .any, true⟩
/-- `FKE.PEAK.COUNT` [15:0] -/
def fkePeak : Fld := ⟨7, 0x10c, 1, 0x4, 1, 0x4, 0, 16, .rc, 0x0, .any, false⟩
/-- `FKE.CODE_TOP.TOP` [15:0] -/
def fkeCodeTop : Fld := ⟨7, 0x800, 1, 0x4, 1, 0x4, 0, 16, .rws, 0x0, (.range 0 32768), false⟩
/-- `FKE.RESIDE.LIMIT` [15:0] -/
def fkeReside : Fld := ⟨7, 0x804, 1, 0x4, 1, 0x4, 0, 16, .rws, 0x64, (.range 1 65535), false⟩
/-- `FKE.EVQ_LEVEL.LEVEL` [12:0] -/
def fkeEvqLevelLevel : Fld := ⟨7, 0x808, 1, 0x4, 1, 0x4, 0, 13, .ro, 0x0, .any, false⟩
/-- `FKE.EVQ_LEVEL.PEAK` [28:16] -/
def fkeEvqLevelPeak : Fld := ⟨7, 0x808, 1, 0x4, 1, 0x4, 16, 13, .rc, 0x0, .any, false⟩
/-- `FKE.EVQ_DROP.COUNT` [31:0] -/
def fkeEvqDrop : Fld := ⟨7, 0x80c, 1, 0x4, 1, 0x4, 0, 32, .rc, 0x0, .any, false⟩
/-- `FKE.ABORTS.EXPOSURE` [15:0] -/
def fkeAbortsExposure : Fld := ⟨7, 0x810, 1, 0x4, 1, 0x4, 0, 16, .rc, 0x0, .any, false⟩
/-- `FKE.ABORTS.OTHER` [31:16] -/
def fkeAbortsOther : Fld := ⟨7, 0x810, 1, 0x4, 1, 0x4, 16, 16, .rc, 0x0, .any, false⟩
/-- `FKE.EXC_INFO.CAUSE` [3:0] -/
def fkeExcInfoCause : Fld := ⟨7, 0x814, 1, 0x4, 1, 0x4, 0, 4, .ro, 0x0, .any, false⟩
/-- `FKE.EXC_INFO.ENGINE` [6:4] -/
def fkeExcInfoEngine : Fld := ⟨7, 0x814, 1, 0x4, 1, 0x4, 4, 3, .ro, 0x0, .any, false⟩
/-- `FKE.EXC_INFO.CONTEXT` [9:8] -/
def fkeExcInfoContext : Fld := ⟨7, 0x814, 1, 0x4, 1, 0x4, 8, 2, .ro, 0x0, .any, false⟩
/-- `FKE.EXC_INFO.ENTRY` [23:16] -/
def fkeExcInfoEntry : Fld := ⟨7, 0x814, 1, 0x4, 1, 0x4, 16, 8, .ro, 0x0, .any, false⟩
/-- `FKE.EXC_INFO.VALID` [31:31] -/
def fkeExcInfoValid : Fld := ⟨7, 0x814, 1, 0x4, 1, 0x4, 31, 1, .rc, 0x0, .any, false⟩
/-- `FKE.EXC_PC.PC` [14:0] -/
def fkeExcPcPc : Fld := ⟨7, 0x818, 1, 0x4, 1, 0x4, 0, 15, .ro, 0x0, .any, false⟩
/-- `FKE.EXC_PC.TRAPCODE` [23:16] -/
def fkeExcPcTrapcode : Fld := ⟨7, 0x818, 1, 0x4, 1, 0x4, 16, 8, .ro, 0x0, .any, false⟩
/-- `FKE.LOCK_WAIT.COUNT` [12:0] -/
def fkeLockWait : Fld := ⟨7, 0x81c, 1, 0x4, 1, 0x4, 0, 13, .ro, 0x0, .any, false⟩
/-- `FKE.ET_RANGE.BASE` [7:0] -/
def fkeEtRangeBase : Fld := ⟨7, 0x820, 1, 0x4, 1, 0x4, 0, 8, .rws, 0x0, .any, false⟩
/-- `FKE.ET_RANGE.COUNT` [16:8] -/
def fkeEtRangeCount : Fld := ⟨7, 0x820, 1, 0x4, 1, 0x4, 8, 9, .rws, 0x0, (.range 0 256), false⟩
/-- `FKE.ET_RANGE.TB` [22:20] -/
def fkeEtRangeTb : Fld := ⟨7, 0x820, 1, 0x4, 1, 0x4, 20, 3, .rws, 0x0, .any, false⟩
/-- `FKE.HT_A.ENTRY` [14:0] -/
def fkeHtAEntry : Fld := ⟨7, 0x1000, 256, 0x8, 1, 0x4, 0, 15, .rws, 0x0, .any, false⟩
/-- `FKE.HT_A.VALID` [15:15] -/
def fkeHtAValid : Fld := ⟨7, 0x1000, 256, 0x8, 1, 0x4, 15, 1, .rws, 0x0, .any, false⟩
/-- `FKE.HT_A.LOCK` [17:16] -/
def fkeHtALock : Fld := ⟨7, 0x1000, 256, 0x8, 1, 0x4, 16, 2, .rws, 0x0, .any, false⟩
/-- `FKE.HT_A.POLICY` [18:18] -/
def fkeHtAPolicy : Fld := ⟨7, 0x1000, 256, 0x8, 1, 0x4, 18, 1, .rws, 0x0, .any, false⟩
/-- `FKE.HT_A.LOCKIDX` [29:20] -/
def fkeHtALockidx : Fld := ⟨7, 0x1000, 256, 0x8, 1, 0x4, 20, 10, .rws, 0x0, .any, false⟩
/-- `FKE.HT_B.LIMIT` [15:0] -/
def fkeHtB : Fld := ⟨7, 0x1004, 256, 0x8, 1, 0x4, 0, 16, .rws, 0x7d0, (.range 16 65535), false⟩

def fkeFields0 : List Fld :=
    [fkeSelIndex, fkeSelErr, fkeRun, fkeClReset, fkeClStatFenced, fkeClStatBusy, fkeClStatAsleep, fkeAsleepDrop,
   fkeCtxStat, fkeIssued, fkeInvoked, fkePeak, fkeCodeTop, fkeReside, fkeEvqLevelLevel, fkeEvqLevelPeak, fkeEvqDrop,
   fkeAbortsExposure, fkeAbortsOther, fkeExcInfoCause, fkeExcInfoEngine, fkeExcInfoContext, fkeExcInfoEntry,
   fkeExcInfoValid, fkeExcPcPc, fkeExcPcTrapcode, fkeLockWait, fkeEtRangeBase, fkeEtRangeCount, fkeEtRangeTb,
   fkeHtAEntry, fkeHtAValid, fkeHtALock, fkeHtAPolicy, fkeHtALockidx, fkeHtB]
/-- The fields of block FKE. -/
def fkeFields : List Fld := fkeFields0

/-! ### Block GAL (class 8, 02 Table 2.5) -/

/-- `GAL.STAT.CLEARING` [0:0] -/
def galStat : Fld := ⟨8, 0x4, 1, 0x4, 1, 0x4, 0, 1, .ro, 0x1, .any, false⟩
/-- `GAL.OLD_STAMP.COUNT` [31:0] -/
def galOldStamp : Fld := ⟨8, 0x8, 1, 0x4, 1, 0x4, 0, 32, .rc, 0x0, .any, false⟩
/-- `GAL.OLD_LAST.HANDLE` [15:0] -/
def galOldLastHandle : Fld := ⟨8, 0xc, 1, 0x4, 1, 0x4, 0, 16, .ro, 0x0, .any, false⟩
/-- `GAL.OLD_LAST.WRITER` [23:16] -/
def galOldLastWriter : Fld := ⟨8, 0xc, 1, 0x4, 1, 0x4, 16, 8, .ro, 0x0, .any, false⟩
/-- `GAL.STALE_CNT.COUNT` [31:0] -/
def galStaleCnt : Fld := ⟨8, 0x10, 1, 0x4, 1, 0x4, 0, 32, .rc, 0x0, .any, false⟩
/-- `GAL.STALE_LAG.US` [15:0] -/
def galStaleLag : Fld := ⟨8, 0x14, 1, 0x4, 1, 0x4, 0, 16, .rc, 0x0, .any, false⟩
/-- `GAL.WPIPE.LEVEL` [5:0] -/
def galWpipeLevel : Fld := ⟨8, 0x18, 1, 0x4, 1, 0x4, 0, 6, .ro, 0x0, .any, false⟩
/-- `GAL.WPIPE.PEAK` [13:8] -/
def galWpipePeak : Fld := ⟨8, 0x18, 1, 0x4, 1, 0x4, 8, 6, .rc, 0x0, .any, false⟩
/-- `GAL.DENIED.COUNT` [31:0] -/
def galDenied : Fld := ⟨8, 0x1c, 1, 0x4, 1, 0x4, 0, 32, .rc, 0x0, .any, false⟩
/-- `GAL.BIND_STAT.COUNT` [12:0] -/
def galBindStatCount : Fld := ⟨8, 0x20, 1, 0x4, 1, 0x4, 0, 13, .ro, 0x0, .any, false⟩
/-- `GAL.BIND_STAT.REFUSED` [31:16] -/
def galBindStatRefused : Fld := ⟨8, 0x20, 1, 0x4, 1, 0x4, 16, 16, .rc, 0x0, .any, false⟩
/-- `GAL.HG_CTL.BASE` [15:0] -/
def galHgCtlBase : Fld := ⟨8, 0x200, 1, 0x4, 1, 0x4, 0, 16, .rw, 0x0, .any, false⟩
/-- `GAL.HG_CTL.COUNT` [18:16] -/
def galHgCtlCount : Fld := ⟨8, 0x200, 1, 0x4, 1, 0x4, 16, 3, .rw, 0x0, .any, false⟩
/-- `GAL.HG_CTL.GO` [31:31] -/
def galHgCtlGo : Fld := ⟨8, 0x200, 1, 0x4, 1, 0x4, 31, 1, .wo, 0x0, .any, false⟩
/-- `GAL.HG_STAMP.STAMP` [31:0] -/
def galHgStamp : Fld := ⟨8, 0x204, 1, 0x4, 1, 0x4, 0, 32, .rw, 0x0, .any, false⟩
/-- `GAL.HG_VAL.VALUE` [31:0] -/
def galHgVal : Fld := ⟨8, 0x208, 8, 0x4, 1, 0x4, 0, 32, .rw, 0x0, .any, false⟩
/-- `GAL.HG_STAT.RESULT` [2:0] -/
def galHgStatResult : Fld := ⟨8, 0x228, 1, 0x4, 1, 0x4, 0, 3, .ro, 0x0, .any, false⟩
/-- `GAL.HG_STAT.BUSY` [8:8] -/
def galHgStatBusy : Fld := ⟨8, 0x228, 1, 0x4, 1, 0x4, 8, 1, .ro, 0x0, .any, false⟩
/-- `GAL.HP_STAT.RESULT` [2:0] -/
def galHpStat : Fld := ⟨8, 0x230, 1, 0x4, 1, 0x4, 0, 3, .ro, 0x0, .any, false⟩
/-- `GAL.PROF_A.TMO` [25:0] -/
def galProfATmo : Fld := ⟨8, 0x1000, 256, 0x8, 1, 0x4, 0, 26, .rws, 0x0, (.range 0 65000000), false⟩
/-- `GAL.PROF_A.SUBST` [27:26] -/
def galProfASubst : Fld := ⟨8, 0x1000, 256, 0x8, 1, 0x4, 26, 2, .rws, 0x0, (.range 0 2), false⟩
/-- `GAL.PROF_B.WR` [7:0] -/
def galProfB : Fld := ⟨8, 0x1004, 256, 0x8, 1, 0x4, 0, 8, .rws, 0xff, .any, false⟩
/-- `GAL.GW_A.HANDLE` [15:0] -/
def galGwAHandle : Fld := ⟨8, 0x10000, 4096, 0x10, 1, 0x4, 0, 16, .rws, 0x0, .any, false⟩
/-- `GAL.GW_A.ENTRY` [23:16] -/
def galGwAEntry : Fld := ⟨8, 0x10000, 4096, 0x10, 1, 0x4, 16, 8, .rws, 0x0, .any, false⟩
/-- `GAL.GW_A.CLUSTER` [25:24] -/
def galGwACluster : Fld := ⟨8, 0x10000, 4096, 0x10, 1, 0x4, 24, 2, .rws, 0x0, .any, false⟩
/-- `GAL.GW_A.MODE` [28:26] -/
def galGwAMode : Fld := ⟨8, 0x10000, 4096, 0x10, 1, 0x4, 26, 3, .rws, 0x0, (.range 0 3), false⟩
/-- `GAL.GW_A.EN` [31:31] -/
def galGwAEn : Fld := ⟨8, 0x10000, 4096, 0x10, 1, 0x4, 31, 1, .rws, 0x0, .any, false⟩
/-- `GAL.GW_B.THR` [31:0] -/
def galGwB : Fld := ⟨8, 0x10004, 4096, 0x10, 1, 0x4, 0, 32, .rws, 0x0, .any, false⟩
/-- `GAL.GW_C.HYS` [15:0] -/
def galGwCHys : Fld := ⟨8, 0x10008, 4096, 0x10, 1, 0x4, 0, 16, .rws, 0x0, .any, false⟩
/-- `GAL.GW_C.EDGE` [17:16] -/
def galGwCEdge : Fld := ⟨8, 0x10008, 4096, 0x10, 1, 0x4, 16, 2, .rws, 0x3, (.range 1 3), false⟩
/-- `GAL.GW_D.ABOVE` [0:0] -/
def galGwD : Fld := ⟨8, 0x1000c, 4096, 0x10, 1, 0x4, 0, 1, .ro, 0x0, .any, false⟩

def galFields0 : List Fld :=
    [galStat, galOldStamp, galOldLastHandle, galOldLastWriter, galStaleCnt, galStaleLag, galWpipeLevel, galWpipePeak,
   galDenied, galBindStatCount, galBindStatRefused, galHgCtlBase, galHgCtlCount, galHgCtlGo, galHgStamp, galHgVal,
   galHgStatResult, galHgStatBusy, galHpStat, galProfATmo, galProfASubst, galProfB, galGwAHandle, galGwAEntry,
   galGwACluster, galGwAMode, galGwAEn, galGwB, galGwCHys, galGwCEdge, galGwD]
/-- The fields of block GAL. -/
def galFields : List Fld := galFields0

/-! ### Block BRG (class 9, 02 Table 2.5) -/

/-- `BRG.CLAIM.QB` [5:0] -/
def brgClaim : Fld := ⟨9, 0x4, 1, 0x4, 1, 0x4, 0, 6, .rws, 0x0, .any, false⟩
/-- `BRG.CLAIM_CH.MASK` [31:0] -/
def brgClaimCh : Fld := ⟨9, 0x8, 1, 0x4, 1, 0x4, 0, 32, .rws, 0x0, .any, false⟩
/-- `BRG.PIPE.LEVEL` [8:0] -/
def brgPipe : Fld := ⟨9, 0xc, 1, 0x4, 1, 0x4, 0, 9, .ro, 0x0, .any, false⟩
/-- `BRG.PIPE_DROP.COUNT` [31:0] -/
def brgPipeDrop : Fld := ⟨9, 0x10, 1, 0x4, 1, 0x4, 0, 32, .rc, 0x0, .any, false⟩
/-- `BRG.ACF_SKIP.COUNT` [31:0] -/
def brgAcfSkip : Fld := ⟨9, 0x14, 1, 0x4, 1, 0x4, 0, 32, .rc, 0x0, .any, false⟩
/-- `BRG.STREAM_MISS.COUNT` [31:0] -/
def brgStreamMiss : Fld := ⟨9, 0x18, 1, 0x4, 1, 0x4, 0, 32, .rc, 0x0, .any, false⟩
/-- `BRG.PDU_BAD.COUNT` [31:0] -/
def brgPduBad : Fld := ⟨9, 0x1c, 1, 0x4, 1, 0x4, 0, 32, .rc, 0x0, .any, false⟩
/-- `BRG.WIN_A.BASE` [15:0] -/
def brgWinABase : Fld := ⟨9, 0x100, 40, 0x8, 1, 0x4, 0, 16, .rws, 0x0, .any, false⟩
/-- `BRG.WIN_A.LOW` [26:16] -/
def brgWinALow : Fld := ⟨9, 0x100, 40, 0x8, 1, 0x4, 16, 11, .rws, 0x0, .any, false⟩
/-- `BRG.WIN_B.COUNT` [11:0] -/
def brgWinBCount : Fld := ⟨9, 0x104, 40, 0x8, 1, 0x4, 0, 12, .rws, 0x0, (.range 0 2048), false⟩
/-- `BRG.WIN_B.MISSQ` [12:12] -/
def brgWinBMissq : Fld := ⟨9, 0x104, 40, 0x8, 1, 0x4, 12, 1, .rws, 0x0, .any, false⟩
/-- `BRG.CNT_ROUTED.COUNT` [31:0] -/
def brgCntRouted : Fld := ⟨9, 0x400, 40, 0x20, 1, 0x4, 0, 32, .rc, 0x0, .any, true⟩
/-- `BRG.CNT_NO_ROUTE.COUNT` [31:0] -/
def brgCntNoRoute : Fld := ⟨9, 0x404, 40, 0x20, 1, 0x4, 0, 32, .rc, 0x0, .any, false⟩
/-- `BRG.CNT_RATE.COUNT` [31:0] -/
def brgCntRate : Fld := ⟨9, 0x408, 40, 0x20, 1, 0x4, 0, 32, .rc, 0x0, .any, false⟩
/-- `BRG.CNT_SIZE.COUNT` [31:0] -/
def brgCntSize : Fld := ⟨9, 0x40c, 40, 0x20, 1, 0x4, 0, 32, .rc, 0x0, .any, false⟩
/-- `BRG.CNT_SEAL.COUNT` [31:0] -/
def brgCntSeal : Fld := ⟨9, 0x410, 40, 0x20, 1, 0x4, 0, 32, .rc, 0x0, .any, false⟩
/-- `BRG.CNT_SPOOF.COUNT` [31:0] -/
def brgCntSpoof : Fld := ⟨9, 0x414, 40, 0x20, 1, 0x4, 0, 32, .rc, 0x0, .any, false⟩
/-- `BRG.CNT_COLL.COUNT` [31:0] -/
def brgCntColl : Fld := ⟨9, 0x418, 40, 0x20, 1, 0x4, 0, 32, .rc, 0x0, .any, false⟩
/-- `BRG.CNT_CLAIM_DROP.COUNT` [31:0] -/
def brgCntClaimDrop : Fld := ⟨9, 0x41c, 40, 0x20, 1, 0x4, 0, 32, .rc, 0x0, .any, false⟩
/-- `BRG.BK_A.INTERVAL` [15:0] -/
def brgBkAInterval : Fld := ⟨9, 0x10000, 4096, 0x8, 1, 0x4, 0, 16, .rws, 0x1, (.range 1 65535), false⟩
/-- `BRG.BK_A.DEPTH` [23:16] -/
def brgBkADepth : Fld := ⟨9, 0x10000, 4096, 0x8, 1, 0x4, 16, 8, .rws, 0x1, (.range 1 255), false⟩
/-- `BRG.BK_B.DROPS` [15:0] -/
def brgBkBDrops : Fld := ⟨9, 0x10004, 4096, 0x8, 1, 0x4, 0, 16, .rc, 0x0, .any, false⟩
/-- `BRG.BK_B.LEVEL` [23:16] -/
def brgBkBLevel : Fld := ⟨9, 0x10004, 4096, 0x8, 1, 0x4, 16, 8, .ro, 0x1, .any, false⟩
/-- `BRG.MAP_A.MATCH` [28:0] -/
def brgMapAMatch : Fld := ⟨9, 0x20000, 4096, 0x10, 1, 0x4, 0, 29, .rws, 0x0, .any, false⟩
/-- `BRG.MAP_A.VALID` [31:31] -/
def brgMapAValid : Fld := ⟨9, 0x20000, 4096, 0x10, 1, 0x4, 31, 1, .rws, 0x0, .any, false⟩
/-- `BRG.MAP_B.MASK` [28:0] -/
def brgMapB : Fld := ⟨9, 0x20004, 4096, 0x10, 1, 0x4, 0, 29, .rws, 0x0, .any, false⟩
/-- `BRG.MAP_C.CHAN` [4:0] -/
def brgMapCChan : Fld := ⟨9, 0x20008, 4096, 0x10, 1, 0x4, 0, 5, .rws, 0x0, .any, false⟩
/-- `BRG.MAP_C.ANYCH` [5:5] -/
def brgMapCAnych : Fld := ⟨9, 0x20008, 4096, 0x10, 1, 0x4, 5, 1, .rws, 0x0, .any, false⟩
/-- `BRG.MAP_C.HMODE` [6:6] -/
def brgMapCHmode : Fld := ⟨9, 0x20008, 4096, 0x10, 1, 0x4, 6, 1, .rws, 0x0, .any, false⟩
/-- `BRG.MAP_C.HBASE` [31:16] -/
def brgMapCHbase : Fld := ⟨9, 0x20008, 4096, 0x10, 1, 0x4, 16, 16, .rws, 0x0, .any, false⟩
/-- `BRG.TK_A.PORT` [4:0] -/
def brgTkAPort : Fld := ⟨9, 0x30000, 256, 0x20, 1, 0x4, 0, 5, .rws, 0x0, (.range 0 25), false⟩
/-- `BRG.TK_A.TC` [7:5] -/
def brgTkATc : Fld := ⟨9, 0x30000, 256, 0x20, 1, 0x4, 5, 3, .rws, 0x0, .any, false⟩
/-- `BRG.TK_A.BRIEF` [9:9] -/
def brgTkABrief : Fld := ⟨9, 0x30000, 256, 0x20, 1, 0x4, 9, 1, .rws, 0x0, .any, false⟩
/-- `BRG.TK_A.MAXMSG` [13:10] -/
def brgTkAMaxmsg : Fld := ⟨9, 0x30000, 256, 0x20, 1, 0x4, 10, 4, .rws, 0x1, (.range 1 15), false⟩
/-- `BRG.TK_A.TB` [18:16] -/
def brgTkATb : Fld := ⟨9, 0x30000, 256, 0x20, 1, 0x4, 16, 3, .rws, 0x0, .any, false⟩
/-- `BRG.TK_A.VALID` [31:31] -/
def brgTkAValid : Fld := ⟨9, 0x30000, 256, 0x20, 1, 0x4, 31, 1, .rws, 0x0, .any, false⟩
/-- `BRG.TK_B.HOLD` [15:0] -/
def brgTkB : Fld := ⟨9, 0x30004, 256, 0x20, 1, 0x4, 0, 16, .rws, 0x0, .any, false⟩
/-- `BRG.TK_C.STREAM_ID` [31:0] -/
def brgTkC : Fld := ⟨9, 0x30008, 256, 0x20, 1, 0x4, 0, 32, .rws, 0x0, .any, false⟩
/-- `BRG.TK_D.STREAM_ID` [31:0] -/
def brgTkD : Fld := ⟨9, 0x3000c, 256, 0x20, 1, 0x4, 0, 32, .rws, 0x0, .any, false⟩
/-- `BRG.TK_E.DA_LO` [31:0] -/
def brgTkE : Fld := ⟨9, 0x30010, 256, 0x20, 1, 0x4, 0, 32, .rws, 0x0, .any, false⟩
/-- `BRG.TK_F.DA_HI` [15:0] -/
def brgTkFDaHi : Fld := ⟨9, 0x30014, 256, 0x20, 1, 0x4, 0, 16, .rws, 0x0, .any, false⟩
/-- `BRG.TK_F.VID` [27:16] -/
def brgTkFVid : Fld := ⟨9, 0x30014, 256, 0x20, 1, 0x4, 16, 12, .rws, 0x0, .any, false⟩
/-- `BRG.TK_F.PCP` [30:28] -/
def brgTkFPcp : Fld := ⟨9, 0x30014, 256, 0x20, 1, 0x4, 28, 3, .rws, 0x0, .any, false⟩
/-- `BRG.TK_G.SEQ` [7:0] -/
def brgTkG : Fld := ⟨9, 0x30018, 256, 0x20, 1, 0x4, 0, 8, .ro, 0x0, .any, true⟩
/-- `BRG.TK_H.SENT` [31:0] -/
def brgTkH : Fld := ⟨9, 0x3001c, 256, 0x20, 1, 0x4, 0, 32, .ro, 0x0, .any, true⟩
/-- `BRG.SM_A.STREAM_ID` [31:0] -/
def brgSmA : Fld := ⟨9, 0x34000, 256, 0x10, 1, 0x4, 0, 32, .rws, 0x0, .any, false⟩
/-- `BRG.SM_B.STREAM_ID` [31:0] -/
def brgSmB : Fld := ⟨9, 0x34004, 256, 0x10, 1, 0x4, 0, 32, .rws, 0x0, .any, false⟩
/-- `BRG.SM_C.HANDLE` [15:0] -/
def brgSmCHandle : Fld := ⟨9, 0x34008, 256, 0x10, 1, 0x4, 0, 16, .rws, 0x0, .any, false⟩
/-- `BRG.SM_C.MODE` [16:16] -/
def brgSmCMode : Fld := ⟨9, 0x34008, 256, 0x10, 1, 0x4, 16, 1, .rws, 0x0, .any, false⟩
/-- `BRG.SM_C.VALID` [31:31] -/
def brgSmCValid : Fld := ⟨9, 0x34008, 256, 0x10, 1, 0x4, 31, 1, .rws, 0x0, .any, false⟩
/-- `BRG.SM_D.GAPS` [31:16] -/
def brgSmD : Fld := ⟨9, 0x3400c, 256, 0x10, 1, 0x4, 16, 16, .rc, 0x0, .any, false⟩
/-- `BRG.SPI_A.PORT` [15:0] -/
def brgSpiAPort : Fld := ⟨9, 0x38000, 16, 0x8, 1, 0x4, 0, 16, .rws, 0x0, .any, false⟩
/-- `BRG.SPI_A.VALID` [31:31] -/
def brgSpiAValid : Fld := ⟨9, 0x38000, 16, 0x8, 1, 0x4, 31, 1, .rws, 0x0, .any, false⟩
/-- `BRG.SPI_B.OFFSET` [15:0] -/
def brgSpiBOffset : Fld := ⟨9, 0x38004, 16, 0x8, 1, 0x4, 0, 16, .rws, 0x0, .any, false⟩
/-- `BRG.SPI_B.GAPS` [31:16] -/
def brgSpiBGaps : Fld := ⟨9, 0x38004, 16, 0x8, 1, 0x4, 16, 16, .rc, 0x0, .any, false⟩

def brgFields0 : List Fld :=
    [brgClaim, brgClaimCh, brgPipe, brgPipeDrop, brgAcfSkip, brgStreamMiss, brgPduBad, brgWinABase, brgWinALow,
   brgWinBCount, brgWinBMissq, brgCntRouted, brgCntNoRoute, brgCntRate, brgCntSize, brgCntSeal, brgCntSpoof,
   brgCntColl, brgCntClaimDrop, brgBkAInterval, brgBkADepth, brgBkBDrops, brgBkBLevel, brgMapAMatch, brgMapAValid,
   brgMapB, brgMapCChan, brgMapCAnych, brgMapCHmode, brgMapCHbase, brgTkAPort, brgTkATc, brgTkABrief, brgTkAMaxmsg,
   brgTkATb, brgTkAValid, brgTkB, brgTkC, brgTkD, brgTkE]
def brgFields1 : List Fld :=
    [brgTkFDaHi, brgTkFVid, brgTkFPcp, brgTkG, brgTkH, brgSmA, brgSmB, brgSmCHandle, brgSmCMode, brgSmCValid, brgSmD,
   brgSpiAPort, brgSpiAValid, brgSpiBOffset, brgSpiBGaps]
/-- The fields of block BRG. -/
def brgFields : List Fld := brgFields0 ++ brgFields1

/-! ### Block TIM (class 10, 02 Table 2.5) -/

/-- `TIM.STAT.FOLLOWING` [0:0] -/
def timStatFollowing : Fld := ⟨10, 0x4, 1, 0x4, 1, 0x4, 0, 1, .ro, 0x0, .any, false⟩
/-- `TIM.STAT.FOLLOW_LOST` [1:1] -/
def timStatFollowLost : Fld := ⟨10, 0x4, 1, 0x4, 1, 0x4, 1, 1, .ro, 0x0, .any, false⟩
/-- `TIM.FOLLOW_ERR.PS` [15:0] -/
def timFollowErr : Fld := ⟨10, 0x8, 1, 0x4, 1, 0x4, 0, 16, .rc, 0x0, .any, false⟩
/-- `TIM.CAP_NOW.SET` [1:0] -/
def timCapNowSet : Fld := ⟨10, 0xc, 1, 0x4, 1, 0x4, 0, 2, .wo, 0x0, .any, false⟩
/-- `TIM.CAP_NOW.GO` [31:31] -/
def timCapNowGo : Fld := ⟨10, 0xc, 1, 0x4, 1, 0x4, 31, 1, .wo, 0x0, .any, false⟩
/-- `TIM.CUE_FIRED.COUNT` [31:0] -/
def timCueFired : Fld := ⟨10, 0x10, 1, 0x4, 1, 0x4, 0, 32, .rc, 0x0, .any, true⟩
/-- `TIM.CUE_MISSED.COUNT` [31:0] -/
def timCueMissed : Fld := ⟨10, 0x14, 1, 0x4, 1, 0x4, 0, 32, .rc, 0x0, .any, false⟩
/-- `TIM.PPS_CTL.TB` [2:0] -/
def timPpsCtlTb : Fld := ⟨10, 0x20, 1, 0x4, 1, 0x4, 0, 3, .rws, 0x0, .any, false⟩
/-- `TIM.PPS_CTL.OUT_EN` [3:3] -/
def timPpsCtlOutEn : Fld := ⟨10, 0x20, 1, 0x4, 1, 0x4, 3, 1, .rws, 0x0, .any, false⟩
/-- `TIM.PPS_CTL.IN_EN` [4:4] -/
def timPpsCtlInEn : Fld := ⟨10, 0x20, 1, 0x4, 1, 0x4, 4, 1, .rws, 0x0, .any, false⟩
/-- `TIM.PPS_CTL.CAPSET` [6:5] -/
def timPpsCtlCapset : Fld := ⟨10, 0x20, 1, 0x4, 1, 0x4, 5, 2, .rws, 0x3, .any, false⟩
/-- `TIM.PPS_CTL.WIDTH` [31:16] -/
def timPpsCtlWidth : Fld := ⟨10, 0x20, 1, 0x4, 1, 0x4, 16, 16, .rws, 0x64, (.range 1 65535), false⟩
/-- `TIM.PPS_OFS.OFS` [31:0] -/
def timPpsOfs : Fld := ⟨10, 0x24, 1, 0x4, 1, 0x4, 0, 32, .rws, 0x0, (.signed (-500000000) (499999999)), false⟩
/-- `TIM.TP.WIDTH` [15:0] -/
def timTpWidth : Fld := ⟨10, 0x40, 8, 0x4, 1, 0x4, 0, 16, .rws, 0x3e8, (.range 8 65535), false⟩
/-- `TIM.TP.LEVEL` [16:16] -/
def timTpLevel : Fld := ⟨10, 0x40, 8, 0x4, 1, 0x4, 16, 1, .ro, 0x0, .any, false⟩
/-- `TIM.TB_CFG.KIND` [0:0] -/
def timTbCfgKind : Fld := ⟨10, 0x100, 8, 0x40, 1, 0x4, 0, 1, .rws, 0x0, .any, false⟩
/-- `TIM.TB_CFG.SRC` [2:1] -/
def timTbCfgSrc : Fld := ⟨10, 0x100, 8, 0x40, 1, 0x4, 1, 2, .rws, 0x0, .any, false⟩
/-- `TIM.TB_AOFS.AOFS` [31:0] -/
def timTbAofs : Fld := ⟨10, 0x104, 8, 0x40, 1, 0x4, 0, 32, .rws, 0x0, .any, false⟩
/-- `TIM.TB_ADJ.ADJ` [31:0] -/
def timTbAdj : Fld := ⟨10, 0x108, 8, 0x40, 1, 0x4, 0, 32, .rw, 0x0, (.signed (-4294967) (4294967)), false⟩
/-- `TIM.TB_STEP.STEP` [31:0] -/
def timTbStep : Fld := ⟨10, 0x10c, 8, 0x40, 1, 0x4, 0, 32, .wo, 0x0, .any, false⟩
/-- `TIM.TB_SET_NS.NS` [29:0] -/
def timTbSetNs : Fld := ⟨10, 0x110, 8, 0x40, 1, 0x4, 0, 30, .rw, 0x0, (.range 0 999999999), false⟩
/-- `TIM.TB_SET_SEC_LO.SEC` [31:0] -/
def timTbSetSecLo : Fld := ⟨10, 0x114, 8, 0x40, 1, 0x4, 0, 32, .rw, 0x0, .any, false⟩
/-- `TIM.TB_SET_SEC_HI.SEC` [15:0] -/
def timTbSetSecHiSec : Fld := ⟨10, 0x118, 8, 0x40, 1, 0x4, 0, 16, .rw, 0x0, .any, false⟩
/-- `TIM.TB_SET_SEC_HI.GO` [31:31] -/
def timTbSetSecHiGo : Fld := ⟨10, 0x118, 8, 0x40, 1, 0x4, 31, 1, .wo, 0x0, .any, false⟩
/-- `TIM.TB_NOW_LO.NOW` [31:0] -/
def timTbNowLo : Fld := ⟨10, 0x120, 8, 0x40, 1, 0x4, 0, 32, .ro, 0x0, .any, false⟩
/-- `TIM.TB_NOW_MID.NOW` [31:0] -/
def timTbNowMid : Fld := ⟨10, 0x124, 8, 0x40, 1, 0x4, 0, 32, .ro, 0x0, .any, false⟩
/-- `TIM.TB_NOW_HI.SEC_HI` [15:0] -/
def timTbNowHiSecHi : Fld := ⟨10, 0x128, 8, 0x40, 1, 0x4, 0, 16, .ro, 0x0, .any, false⟩
/-- `TIM.TB_NOW_HI.FRAC` [31:16] -/
def timTbNowHiFrac : Fld := ⟨10, 0x128, 8, 0x40, 1, 0x4, 16, 16, .ro, 0x0, .any, false⟩
/-- `TIM.TB_RATE_LO.RATE` [31:0] -/
def timTbRateLo : Fld := ⟨10, 0x12c, 8, 0x40, 1, 0x4, 0, 32, .ro, 0x0, .any, false⟩
/-- `TIM.TB_RATE_HI.RATE` [31:0] -/
def timTbRateHi : Fld := ⟨10, 0x130, 8, 0x40, 1, 0x4, 0, 32, .ro, 0x0, .any, false⟩
/-- `TIM.TB_STAT.HOLD` [0:0] -/
def timTbStat : Fld := ⟨10, 0x134, 8, 0x40, 1, 0x4, 0, 1, .ro, 0x0, .any, false⟩
/-- `TIM.PH_CFG.MODE` [1:0] -/
def timPhCfgMode : Fld := ⟨10, 0x400, 4, 0x40, 1, 0x4, 0, 2, .rws, 0x0, .any, false⟩
/-- `TIM.PH_CFG.EN` [2:2] -/
def timPhCfgEn : Fld := ⟨10, 0x400, 4, 0x40, 1, 0x4, 2, 1, .rws, 0x0, .any, false⟩
/-- `TIM.PH_CFG.INV` [3:3] -/
def timPhCfgInv : Fld := ⟨10, 0x400, 4, 0x40, 1, 0x4, 3, 1, .rws, 0x0, .any, false⟩
/-- `TIM.PH_CFG.FILT` [11:4] -/
def timPhCfgFilt : Fld := ⟨10, 0x400, 4, 0x40, 1, 0x4, 4, 8, .rws, 0xa, .any, false⟩
/-- `TIM.PH_CPR.CPR` [23:0] -/
def timPhCpr : Fld := ⟨10, 0x404, 4, 0x40, 1, 0x4, 0, 24, .rws, 0x1000, (.range 4 16777215), false⟩
/-- `TIM.PH_BW.BW` [12:0] -/
def timPhBwBw : Fld := ⟨10, 0x408, 4, 0x40, 1, 0x4, 0, 13, .rws, 0xc8, (.range 1 5000), false⟩
/-- `TIM.PH_BW.LOSS` [31:16] -/
def timPhBwLoss : Fld := ⟨10, 0x408, 4, 0x40, 1, 0x4, 16, 16, .rws, 0x3e8, (.range 1 65535), false⟩
/-- `TIM.PH_MSG.HANDLE` [15:0] -/
def timPhMsgHandle : Fld := ⟨10, 0x40c, 4, 0x40, 1, 0x4, 0, 16, .rws, 0x0, .any, false⟩
/-- `TIM.PH_MSG.REFTB` [18:16] -/
def timPhMsgReftb : Fld := ⟨10, 0x40c, 4, 0x40, 1, 0x4, 16, 3, .rws, 0x0, .any, false⟩
/-- `TIM.PH_STAT.STATE` [1:0] -/
def timPhStatState : Fld := ⟨10, 0x410, 4, 0x40, 1, 0x4, 0, 2, .ro, 0x0, .any, false⟩
/-- `TIM.PH_STAT.ALIGNED` [2:2] -/
def timPhStatAligned : Fld := ⟨10, 0x410, 4, 0x40, 1, 0x4, 2, 1, .ro, 0x0, .any, false⟩
/-- `TIM.PH_STAT.BWLIM` [3:3] -/
def timPhStatBwlim : Fld := ⟨10, 0x410, 4, 0x40, 1, 0x4, 3, 1, .ro, 0x0, .any, false⟩
/-- `TIM.PH_STAT.BW_EFF` [28:16] -/
def timPhStatBwEff : Fld := ⟨10, 0x410, 4, 0x40, 1, 0x4, 16, 13, .ro, 0x0, .any, false⟩
/-- `TIM.PH_EDGES.COUNT` [31:0] -/
def timPhEdges : Fld := ⟨10, 0x414, 4, 0x40, 1, 0x4, 0, 32, .rc, 0x0, .any, true⟩
/-- `TIM.PH_Z_ERR.COUNT` [31:0] -/
def timPhZErr : Fld := ⟨10, 0x418, 4, 0x40, 1, 0x4, 0, 32, .rc, 0x0, .any, false⟩
/-- `TIM.PH_HALL_BAD.COUNT` [31:0] -/
def timPhHallBad : Fld := ⟨10, 0x41c, 4, 0x40, 1, 0x4, 0, 32, .rc, 0x0, .any, false⟩
/-- `TIM.PH_EDGE_OVR.COUNT` [31:0] -/
def timPhEdgeOvr : Fld := ⟨10, 0x420, 4, 0x40, 1, 0x4, 0, 32, .rc, 0x0, .any, false⟩
/-- `TIM.PH_LOSSES.COUNT` [31:0] -/
def timPhLosses : Fld := ⟨10, 0x424, 4, 0x40, 1, 0x4, 0, 32, .rc, 0x0, .any, false⟩
/-- `TIM.PTP_A.EN` [0:0] -/
def timPtpAEn : Fld := ⟨10, 0x600, 4, 0x40, 1, 0x4, 0, 1, .rws, 0x0, .any, false⟩
/-- `TIM.PTP_A.ROLE` [2:1] -/
def timPtpARole : Fld := ⟨10, 0x600, 4, 0x40, 1, 0x4, 1, 2, .rws, 0x0, (.range 0 2), false⟩
/-- `TIM.PTP_A.TB` [5:3] -/
def timPtpATb : Fld := ⟨10, 0x600, 4, 0x40, 1, 0x4, 3, 3, .rws, 0x0, .any, false⟩
/-- `TIM.PTP_A.DOMAIN` [15:8] -/
def timPtpADomain : Fld := ⟨10, 0x600, 4, 0x40, 1, 0x4, 8, 8, .rws, 0x0, .any, false⟩
/-- `TIM.PTP_A.SLAVE` [20:16] -/
def timPtpASlave : Fld := ⟨10, 0x600, 4, 0x40, 1, 0x4, 16, 5, .rws, 0x0, (.range 0 25), false⟩
/-- `TIM.PTP_A.LOGSYNC` [27:24] -/
def timPtpALogsync : Fld := ⟨10, 0x600, 4, 0x40, 1, 0x4, 24, 4, .rws, 0xd, (.signed (-7) (0)), false⟩
/-- `TIM.PTP_MASTERS.PORTS` [25:0] -/
def timPtpMasters : Fld := ⟨10, 0x604, 4, 0x40, 1, 0x4, 0, 26, .rws, 0x0, .any, false⟩
/-- `TIM.PTP_RATIO.RATIO` [31:0] -/
def timPtpRatio : Fld := ⟨10, 0x608, 4, 0x40, 1, 0x4, 0, 32, .rw, 0x0, .any, false⟩
/-- `TIM.PTP_LINKDELAY.DELAY` [31:0] -/
def timPtpLinkdelay : Fld := ⟨10, 0x60c, 4, 0x40, 1, 0x4, 0, 32, .rw, 0x0, .any, false⟩
/-- `TIM.PTP_JUMP.NS` [31:0] -/
def timPtpJump : Fld := ⟨10, 0x610, 4, 0x40, 1, 0x4, 0, 32, .rw, 0x0, .any, false⟩
/-- `TIM.PTP_HOLD.HOLD` [0:0] -/
def timPtpHoldHold : Fld := ⟨10, 0x614, 4, 0x40, 1, 0x4, 0, 1, .w1c, 0x0, .any, false⟩
/-- `TIM.PTP_HOLD.SEQ` [31:16] -/
def timPtpHoldSeq : Fld := ⟨10, 0x614, 4, 0x40, 1, 0x4, 16, 16, .ro, 0x0, .any, true⟩
/-- `TIM.PTP_CLKID_LO.CLKID` [31:0] -/
def timPtpClkidLo : Fld := ⟨10, 0x618, 4, 0x40, 1, 0x4, 0, 32, .rws, 0x0, .any, false⟩
/-- `TIM.PTP_CLKID_HI.CLKID` [31:0] -/
def timPtpClkidHi : Fld := ⟨10, 0x61c, 4, 0x40, 1, 0x4, 0, 32, .rws, 0x0, .any, false⟩
/-- `TIM.PTP_SYNC_RX.COUNT` [31:0] -/
def timPtpSyncRx : Fld := ⟨10, 0x620, 4, 0x40, 1, 0x4, 0, 32, .rc, 0x0, .any, true⟩
/-- `TIM.PTP_SYNC_TX.COUNT` [31:0] -/
def timPtpSyncTx : Fld := ⟨10, 0x624, 4, 0x40, 1, 0x4, 0, 32, .rc, 0x0, .any, true⟩
/-- `TIM.PTP_FUP_LATE.COUNT` [31:0] -/
def timPtpFupLate : Fld := ⟨10, 0x628, 4, 0x40, 1, 0x4, 0, 32, .rc, 0x0, .any, false⟩
/-- `TIM.PTP_JUMPS.COUNT` [31:0] -/
def timPtpJumps : Fld := ⟨10, 0x62c, 4, 0x40, 1, 0x4, 0, 32, .rc, 0x0, .any, false⟩
/-- `TIM.CUE_ARM.ARMED` [31:0] -/
def timCueArm : Fld := ⟨10, 0x8000, 32, 0x4, 1, 0x4, 0, 32, .ro, 0x0, .any, false⟩
/-- `TIM.CAP.WORD0` [31:0] -/
def timCap : Fld := ⟨10, 0x9000, 4, 0x100, 8, 0x10, 0, 32, .ro, 0x0, .any, false⟩
/-- `TIM.CAP_W1.WORD1` [31:0] -/
def timCapW1 : Fld := ⟨10, 0x9004, 4, 0x100, 8, 0x10, 0, 32, .ro, 0x0, .any, false⟩
/-- `TIM.CAP_W2.WORD2` [31:0] -/
def timCapW2 : Fld := ⟨10, 0x9008, 4, 0x100, 8, 0x10, 0, 32, .ro, 0x0, .any, false⟩
/-- `TIM.CAP_W3.WORD3` [31:0] -/
def timCapW3 : Fld := ⟨10, 0x900c, 4, 0x100, 8, 0x10, 0, 32, .ro, 0x0, .any, false⟩
/-- `TIM.CAPSTAT.CUE` [9:0] -/
def timCapstatCue : Fld := ⟨10, 0x9400, 4, 0x4, 1, 0x4, 0, 10, .ro, 0x0, .any, false⟩
/-- `TIM.CAPSTAT.SRC` [11:10] -/
def timCapstatSrc : Fld := ⟨10, 0x9400, 4, 0x4, 1, 0x4, 10, 2, .ro, 0x0, .any, false⟩
/-- `TIM.CAPSTAT.OVF` [30:30] -/
def timCapstatOvf : Fld := ⟨10, 0x9400, 4, 0x4, 1, 0x4, 30, 1, .rc, 0x0, .any, false⟩
/-- `TIM.CAPSTAT.VALID` [31:31] -/
def timCapstatValid : Fld := ⟨10, 0x9400, 4, 0x4, 1, 0x4, 31, 1, .rc, 0x0, .any, false⟩
/-- `TIM.CUE_A.TB` [2:0] -/
def timCueATb : Fld := ⟨10, 0x10000, 1024, 0x10, 1, 0x4, 0, 3, .rws, 0x0, .any, false⟩
/-- `TIM.CUE_A.ACTION` [5:3] -/
def timCueAAction : Fld := ⟨10, 0x10000, 1024, 0x10, 1, 0x4, 3, 3, .rws, 0x0, .any, false⟩
/-- `TIM.CUE_A.WAKE` [6:6] -/
def timCueAWake : Fld := ⟨10, 0x10000, 1024, 0x10, 1, 0x4, 6, 1, .rws, 0x0, .any, false⟩
/-- `TIM.CUE_A.PERHI` [15:8] -/
def timCueAPerhi : Fld := ⟨10, 0x10000, 1024, 0x10, 1, 0x4, 8, 8, .rws, 0x0, .any, false⟩
/-- `TIM.CUE_A.ARG` [29:16] -/
def timCueAArg : Fld := ⟨10, 0x10000, 1024, 0x10, 1, 0x4, 16, 14, .rws, 0x0, .any, false⟩
/-- `TIM.CUE_A.EN` [31:31] -/
def timCueAEn : Fld := ⟨10, 0x10000, 1024, 0x10, 1, 0x4, 31, 1, .rws, 0x0, .any, false⟩
/-- `TIM.CUE_B.THR` [31:0] -/
def timCueB : Fld := ⟨10, 0x10004, 1024, 0x10, 1, 0x4, 0, 32, .rws, 0x0, .any, false⟩
/-- `TIM.CUE_C.THR` [31:0] -/
def timCueC : Fld := ⟨10, 0x10008, 1024, 0x10, 1, 0x4, 0, 32, .rws, 0x0, .any, false⟩
/-- `TIM.CUE_D.PERLO` [31:0] -/
def timCueD : Fld := ⟨10, 0x1000c, 1024, 0x10, 1, 0x4, 0, 32, .rws, 0x0, .any, false⟩

def timFields0 : List Fld :=
    [timStatFollowing, timStatFollowLost, timFollowErr, timCapNowSet, timCapNowGo, timCueFired, timCueMissed,
   timPpsCtlTb, timPpsCtlOutEn, timPpsCtlInEn, timPpsCtlCapset, timPpsCtlWidth, timPpsOfs, timTpWidth, timTpLevel,
   timTbCfgKind, timTbCfgSrc, timTbAofs, timTbAdj, timTbStep, timTbSetNs, timTbSetSecLo, timTbSetSecHiSec,
   timTbSetSecHiGo, timTbNowLo, timTbNowMid, timTbNowHiSecHi, timTbNowHiFrac, timTbRateLo, timTbRateHi, timTbStat,
   timPhCfgMode, timPhCfgEn, timPhCfgInv, timPhCfgFilt, timPhCpr, timPhBwBw, timPhBwLoss, timPhMsgHandle,
   timPhMsgReftb]
def timFields1 : List Fld :=
    [timPhStatState, timPhStatAligned, timPhStatBwlim, timPhStatBwEff, timPhEdges, timPhZErr, timPhHallBad,
   timPhEdgeOvr, timPhLosses, timPtpAEn, timPtpARole, timPtpATb, timPtpADomain, timPtpASlave, timPtpALogsync,
   timPtpMasters, timPtpRatio, timPtpLinkdelay, timPtpJump, timPtpHoldHold, timPtpHoldSeq, timPtpClkidLo,
   timPtpClkidHi, timPtpSyncRx, timPtpSyncTx, timPtpFupLate, timPtpJumps, timCueArm, timCap, timCapW1, timCapW2,
   timCapW3, timCapstatCue, timCapstatSrc, timCapstatOvf, timCapstatValid, timCueATb, timCueAAction, timCueAWake,
   timCueAPerhi]
def timFields2 : List Fld :=
  [timCueAArg, timCueAEn, timCueB, timCueC, timCueD]
/-- The fields of block TIM. -/
def timFields : List Fld := timFields0 ++ timFields1 ++ timFields2

/-! ### Block CIP (class 11, 02 Table 2.5) -/

/-- `CIP.LANE.UP` [3:0] -/
def cipLaneUp : Fld := ⟨11, 0x4, 1, 0x4, 1, 0x4, 0, 4, .ro, 0xf, .any, false⟩
/-- `CIP.LANE.TESTING` [7:4] -/
def cipLaneTesting : Fld := ⟨11, 0x4, 1, 0x4, 1, 0x4, 4, 4, .ro, 0x0, .any, false⟩
/-- `CIP.LANE.FAILED` [11:8] -/
def cipLaneFailed : Fld := ⟨11, 0x4, 1, 0x4, 1, 0x4, 8, 4, .ro, 0x0, .any, false⟩
/-- `CIP.JOBS.INFLIGHT` [8:0] -/
def cipJobsInflight : Fld := ⟨11, 0x8, 1, 0x4, 1, 0x4, 0, 9, .ro, 0x0, .any, false⟩
/-- `CIP.JOBS.PEAK` [24:16] -/
def cipJobsPeak : Fld := ⟨11, 0x8, 1, 0x4, 1, 0x4, 16, 9, .rc, 0x0, .any, false⟩
/-- `CIP.CNT_DONE.COUNT` [31:0] -/
def cipCntDone : Fld := ⟨11, 0x10, 1, 0x4, 1, 0x4, 0, 32, .rc, 0x0, .any, true⟩
/-- `CIP.CNT_AUTH_FAIL.COUNT` [31:0] -/
def cipCntAuthFail : Fld := ⟨11, 0x14, 1, 0x4, 1, 0x4, 0, 32, .rc, 0x0, .any, false⟩
/-- `CIP.CNT_PARITY.COUNT` [31:0] -/
def cipCntParity : Fld := ⟨11, 0x18, 1, 0x4, 1, 0x4, 0, 32, .rc, 0x0, .any, false⟩
/-- `CIP.CNT_CQ_DROP.COUNT` [31:0] -/
def cipCntCqDrop : Fld := ⟨11, 0x1c, 1, 0x4, 1, 0x4, 0, 32, .rc, 0x0, .any, false⟩
/-- `CIP.CNT_COUNTER_WAIT.COUNT` [31:0] -/
def cipCntCounterWait : Fld := ⟨11, 0x20, 1, 0x4, 1, 0x4, 0, 32, .rc, 0x0, .any, false⟩
/-- `CIP.HJOB.WORD` [31:0] -/
def cipHjob : Fld := ⟨11, 0x40, 8, 0x4, 1, 0x4, 0, 32, .rw, 0x0, .any, false⟩
/-- `CIP.HJOB_CTL.GO` [31:31] -/
def cipHjobCtl : Fld := ⟨11, 0x60, 1, 0x4, 1, 0x4, 31, 1, .wo, 0x0, .any, false⟩
/-- `CIP.HJOB_STAT.RESULT` [1:0] -/
def cipHjobStatResult : Fld := ⟨11, 0x64, 1, 0x4, 1, 0x4, 0, 2, .ro, 0x0, .any, false⟩
/-- `CIP.HJOB_STAT.JOB` [15:8] -/
def cipHjobStatJob : Fld := ⟨11, 0x64, 1, 0x4, 1, 0x4, 8, 8, .ro, 0x0, .any, false⟩
/-- `CIP.XTS.EN` [0:0] -/
def cipXtsEn : Fld := ⟨11, 0x100, 1, 0x4, 1, 0x4, 0, 1, .rws, 0x0, .any, false⟩
/-- `CIP.XTS.SEC512` [1:1] -/
def cipXtsSec512 : Fld := ⟨11, 0x100, 1, 0x4, 1, 0x4, 1, 1, .rws, 0x0, .any, false⟩
/-- `CIP.XTS.KS` [15:8] -/
def cipXtsKs : Fld := ⟨11, 0x100, 1, 0x4, 1, 0x4, 8, 8, .rws, 0x0, .even, false⟩
/-- `CIP.XR_BASE.ADDR` [31:0] -/
def cipXrBase : Fld := ⟨11, 0x110, 4, 0x8, 1, 0x4, 0, 32, .rws, 0x0, .any, false⟩
/-- `CIP.XR_LIMIT.ADDR` [31:0] -/
def cipXrLimit : Fld := ⟨11, 0x114, 4, 0x8, 1, 0x4, 0, 32, .rws, 0x0, .any, false⟩
/-- `CIP.FW_A.W` [10:0] -/
def cipFwA : Fld := ⟨11, 0x1000, 256, 0x20, 1, 0x4, 0, 11, .rws, 0x400, (.range 1 1024), false⟩
/-- `CIP.FW_SET_LO.LAST` [31:0] -/
def cipFwSetLo : Fld := ⟨11, 0x1004, 256, 0x20, 1, 0x4, 0, 32, .rw, 0x0, .any, false⟩
/-- `CIP.FW_SET_HI.LAST` [31:0] -/
def cipFwSetHi : Fld := ⟨11, 0x1008, 256, 0x20, 1, 0x4, 0, 32, .rw, 0x0, .any, false⟩
/-- `CIP.FW_CTL.SET` [0:0] -/
def cipFwCtl : Fld := ⟨11, 0x100c, 256, 0x20, 1, 0x4, 0, 1, .wo, 0x0, .any, false⟩
/-- `CIP.FW_LAST_LO.LAST` [31:0] -/
def cipFwLastLo : Fld := ⟨11, 0x1010, 256, 0x20, 1, 0x4, 0, 32, .ro, 0x0, .any, false⟩
/-- `CIP.FW_LAST_HI.LAST` [31:0] -/
def cipFwLastHi : Fld := ⟨11, 0x1014, 256, 0x20, 1, 0x4, 0, 32, .ro, 0x0, .any, false⟩
/-- `CIP.FW_CNT.MAC_FAILS` [15:0] -/
def cipFwCntMacFails : Fld := ⟨11, 0x1018, 256, 0x20, 1, 0x4, 0, 16, .rc, 0x0, .any, false⟩
/-- `CIP.FW_CNT.REPLAYS` [31:16] -/
def cipFwCntReplays : Fld := ⟨11, 0x1018, 256, 0x20, 1, 0x4, 16, 16, .rc, 0x0, .any, false⟩
/-- `CIP.SECY_A.EN` [0:0] -/
def cipSecyAEn : Fld := ⟨11, 0x4000, 26, 0x100, 1, 0x4, 0, 1, .rws, 0x0, .any, false⟩
/-- `CIP.SECY_A.XPN` [1:1] -/
def cipSecyAXpn : Fld := ⟨11, 0x4000, 26, 0x100, 1, 0x4, 1, 1, .rws, 0x0, .any, false⟩
/-- `CIP.SECY_A.VALIDATE` [3:2] -/
def cipSecyAValidate : Fld := ⟨11, 0x4000, 26, 0x100, 1, 0x4, 2, 2, .rws, 0x2, (.range 0 2), false⟩
/-- `CIP.SECY_A.PROTECT` [4:4] -/
def cipSecyAProtect : Fld := ⟨11, 0x4000, 26, 0x100, 1, 0x4, 4, 1, .rws, 0x1, .any, false⟩
/-- `CIP.SECY_A.CONF` [5:5] -/
def cipSecyAConf : Fld := ⟨11, 0x4000, 26, 0x100, 1, 0x4, 5, 1, .rws, 0x1, .any, false⟩
/-- `CIP.SECY_A.OFFSET` [7:6] -/
def cipSecyAOffset : Fld := ⟨11, 0x4000, 26, 0x100, 1, 0x4, 6, 2, .rws, 0x0, (.range 0 2), false⟩
/-- `CIP.SECY_A.TX_AN` [9:8] -/
def cipSecyATxAn : Fld := ⟨11, 0x4000, 26, 0x100, 1, 0x4, 8, 2, .rws, 0x0, .any, false⟩
/-- `CIP.SECY_A.REPLAY` [10:10] -/
def cipSecyAReplay : Fld := ⟨11, 0x4000, 26, 0x100, 1, 0x4, 10, 1, .rws, 0x1, .any, false⟩
/-- `CIP.SECY_WIN.WINDOW` [31:0] -/
def cipSecyWin : Fld := ⟨11, 0x4004, 26, 0x100, 1, 0x4, 0, 32, .rws, 0x0, .any, false⟩
/-- `CIP.SECY_SCI_LO.SCI` [31:0] -/
def cipSecySciLo : Fld := ⟨11, 0x4008, 26, 0x100, 1, 0x4, 0, 32, .rws, 0x0, .any, false⟩
/-- `CIP.SECY_SCI_HI.SCI` [31:0] -/
def cipSecySciHi : Fld := ⟨11, 0x400c, 26, 0x100, 1, 0x4, 0, 32, .rws, 0x0, .any, false⟩
/-- `CIP.SECY_SCI_DEF_LO.SCI` [31:0] -/
def cipSecySciDefLo : Fld := ⟨11, 0x4010, 26, 0x100, 1, 0x4, 0, 32, .rws, 0x0, .any, false⟩
/-- `CIP.SECY_SCI_DEF_HI.SCI` [31:0] -/
def cipSecySciDefHi : Fld := ⟨11, 0x4014, 26, 0x100, 1, 0x4, 0, 32, .rws, 0x0, .any, false⟩
/-- `CIP.TXSA_A.KS` [7:0] -/
def cipTxsaAKs : Fld := ⟨11, 0x4020, 26, 0x100, 4, 0x20, 0, 8, .rws, 0x0, .any, false⟩
/-- `CIP.TXSA_A.EN` [31:31] -/
def cipTxsaAEn : Fld := ⟨11, 0x4020, 26, 0x100, 4, 0x20, 31, 1, .rws, 0x0, .any, false⟩
/-- `CIP.TXSA_SSCI.SSCI` [31:0] -/
def cipTxsaSsci : Fld := ⟨11, 0x4024, 26, 0x100, 4, 0x20, 0, 32, .rws, 0x0, .any, false⟩
/-- `CIP.TXSA_SALT0.SALT` [31:0] -/
def cipTxsaSalt0 : Fld := ⟨11, 0x4028, 26, 0x100, 4, 0x20, 0, 32, .rws, 0x0, .any, false⟩
/-- `CIP.TXSA_SALT1.SALT` [31:0] -/
def cipTxsaSalt1 : Fld := ⟨11, 0x402c, 26, 0x100, 4, 0x20, 0, 32, .rws, 0x0, .any, false⟩
/-- `CIP.TXSA_SALT2.SALT` [31:0] -/
def cipTxsaSalt2 : Fld := ⟨11, 0x4030, 26, 0x100, 4, 0x20, 0, 32, .rws, 0x0, .any, false⟩
/-- `CIP.TXSA_PN_LO.NEXTPN` [31:0] -/
def cipTxsaPnLo : Fld := ⟨11, 0x4034, 26, 0x100, 4, 0x20, 0, 32, .ro, 0x0, .any, false⟩
/-- `CIP.TXSA_PN_HI.NEXTPN` [31:0] -/
def cipTxsaPnHi : Fld := ⟨11, 0x4038, 26, 0x100, 4, 0x20, 0, 32, .ro, 0x0, .any, false⟩
/-- `CIP.MS_RX_OK.COUNT` [31:0] -/
def cipMsRxOk : Fld := ⟨11, 0x40a0, 26, 0x100, 1, 0x4, 0, 32, .rc, 0x0, .any, true⟩
/-- `CIP.MS_RX_INVALID.COUNT` [31:0] -/
def cipMsRxInvalid : Fld := ⟨11, 0x40a4, 26, 0x100, 1, 0x4, 0, 32, .rc, 0x0, .any, false⟩
/-- `CIP.MS_RX_NOTVALID.COUNT` [31:0] -/
def cipMsRxNotvalid : Fld := ⟨11, 0x40a8, 26, 0x100, 1, 0x4, 0, 32, .rc, 0x0, .any, false⟩
/-- `CIP.MS_RX_LATE.COUNT` [31:0] -/
def cipMsRxLate : Fld := ⟨11, 0x40ac, 26, 0x100, 1, 0x4, 0, 32, .rc, 0x0, .any, false⟩
/-- `CIP.MS_RX_NOSA.COUNT` [31:0] -/
def cipMsRxNosa : Fld := ⟨11, 0x40b0, 26, 0x100, 1, 0x4, 0, 32, .rc, 0x0, .any, false⟩
/-- `CIP.MS_RX_UNTAGGED.COUNT` [31:0] -/
def cipMsRxUntagged : Fld := ⟨11, 0x40b4, 26, 0x100, 1, 0x4, 0, 32, .rc, 0x0, .any, false⟩
/-- `CIP.MS_TX_PROTECTED.COUNT` [31:0] -/
def cipMsTxProtected : Fld := ⟨11, 0x40b8, 26, 0x100, 1, 0x4, 0, 32, .rc, 0x0, .any, true⟩
/-- `CIP.MS_TX_DROPPED.COUNT` [31:0] -/
def cipMsTxDropped : Fld := ⟨11, 0x40bc, 26, 0x100, 1, 0x4, 0, 32, .rc, 0x0, .any, false⟩
/-- `CIP.RXSC_A.PORT` [4:0] -/
def cipRxscAPort : Fld := ⟨11, 0x8000, 64, 0x100, 1, 0x4, 0, 5, .rws, 0x0, (.range 0 25), false⟩
/-- `CIP.RXSC_A.EN` [31:31] -/
def cipRxscAEn : Fld := ⟨11, 0x8000, 64, 0x100, 1, 0x4, 31, 1, .rws, 0x0, .any, false⟩
/-- `CIP.RXSC_SCI_LO.SCI` [31:0] -/
def cipRxscSciLo : Fld := ⟨11, 0x8004, 64, 0x100, 1, 0x4, 0, 32, .rws, 0x0, .any, false⟩
/-- `CIP.RXSC_SCI_HI.SCI` [31:0] -/
def cipRxscSciHi : Fld := ⟨11, 0x8008, 64, 0x100, 1, 0x4, 0, 32, .rws, 0x0, .any, false⟩
/-- `CIP.RXSA_A.KS` [7:0] -/
def cipRxsaAKs : Fld := ⟨11, 0x8020, 64, 0x100, 4, 0x20, 0, 8, .rws, 0x0, .any, false⟩
/-- `CIP.RXSA_A.EN` [31:31] -/
def cipRxsaAEn : Fld := ⟨11, 0x8020, 64, 0x100, 4, 0x20, 31, 1, .rws, 0x0, .any, false⟩
/-- `CIP.RXSA_SSCI.SSCI` [31:0] -/
def cipRxsaSsci : Fld := ⟨11, 0x8024, 64, 0x100, 4, 0x20, 0, 32, .rws, 0x0, .any, false⟩
/-- `CIP.RXSA_SALT0.SALT` [31:0] -/
def cipRxsaSalt0 : Fld := ⟨11, 0x8028, 64, 0x100, 4, 0x20, 0, 32, .rws, 0x0, .any, false⟩
/-- `CIP.RXSA_SALT1.SALT` [31:0] -/
def cipRxsaSalt1 : Fld := ⟨11, 0x802c, 64, 0x100, 4, 0x20, 0, 32, .rws, 0x0, .any, false⟩
/-- `CIP.RXSA_SALT2.SALT` [31:0] -/
def cipRxsaSalt2 : Fld := ⟨11, 0x8030, 64, 0x100, 4, 0x20, 0, 32, .rws, 0x0, .any, false⟩
/-- `CIP.RXSA_PN_LO.LOWPN` [31:0] -/
def cipRxsaPnLo : Fld := ⟨11, 0x8034, 64, 0x100, 4, 0x20, 0, 32, .ro, 0x0, .any, false⟩
/-- `CIP.RXSA_PN_HI.LOWPN` [31:0] -/
def cipRxsaPnHi : Fld := ⟨11, 0x8038, 64, 0x100, 4, 0x20, 0, 32, .ro, 0x0, .any, false⟩

def cipFields0 : List Fld :=
    [cipLaneUp, cipLaneTesting, cipLaneFailed, cipJobsInflight, cipJobsPeak, cipCntDone, cipCntAuthFail, cipCntParity,
   cipCntCqDrop, cipCntCounterWait, cipHjob, cipHjobCtl, cipHjobStatResult, cipHjobStatJob, cipXtsEn, cipXtsSec512,
   cipXtsKs, cipXrBase, cipXrLimit, cipFwA, cipFwSetLo, cipFwSetHi, cipFwCtl, cipFwLastLo, cipFwLastHi,
   cipFwCntMacFails, cipFwCntReplays, cipSecyAEn, cipSecyAXpn, cipSecyAValidate, cipSecyAProtect, cipSecyAConf,
   cipSecyAOffset, cipSecyATxAn, cipSecyAReplay, cipSecyWin, cipSecySciLo, cipSecySciHi, cipSecySciDefLo,
   cipSecySciDefHi]
def cipFields1 : List Fld :=
    [cipTxsaAKs, cipTxsaAEn, cipTxsaSsci, cipTxsaSalt0, cipTxsaSalt1, cipTxsaSalt2, cipTxsaPnLo, cipTxsaPnHi,
   cipMsRxOk, cipMsRxInvalid, cipMsRxNotvalid, cipMsRxLate, cipMsRxNosa, cipMsRxUntagged, cipMsTxProtected,
   cipMsTxDropped, cipRxscAPort, cipRxscAEn, cipRxscSciLo, cipRxscSciHi, cipRxsaAKs, cipRxsaAEn, cipRxsaSsci,
   cipRxsaSalt0, cipRxsaSalt1, cipRxsaSalt2, cipRxsaPnLo, cipRxsaPnHi]
/-- The fields of block CIP. -/
def cipFields : List Fld := cipFields0 ++ cipFields1

/-! ### Block DRK (class 12, 02 Table 2.5) -/

/-- `DRK.CMD.OP` [3:0] -/
def drkCmdOp : Fld := ⟨12, 0x4, 1, 0x4, 1, 0x4, 0, 4, .rw, 0x0, .any, false⟩
/-- `DRK.CMD.SLOT` [15:8] -/
def drkCmdSlot : Fld := ⟨12, 0x4, 1, 0x4, 1, 0x4, 8, 8, .rw, 0x0, .any, false⟩
/-- `DRK.CMD.KEK` [23:16] -/
def drkCmdKek : Fld := ⟨12, 0x4, 1, 0x4, 1, 0x4, 16, 8, .rw, 0x0, .any, false⟩
/-- `DRK.CMD.GO` [31:31] -/
def drkCmdGo : Fld := ⟨12, 0x4, 1, 0x4, 1, 0x4, 31, 1, .wo, 0x0, .any, false⟩
/-- `DRK.CMD_STAT.BUSY` [0:0] -/
def drkCmdStatBusy : Fld := ⟨12, 0x8, 1, 0x4, 1, 0x4, 0, 1, .ro, 0x0, .any, false⟩
/-- `DRK.CMD_STAT.RESULT` [11:4] -/
def drkCmdStatResult : Fld := ⟨12, 0x8, 1, 0x4, 1, 0x4, 4, 8, .ro, 0x0, .any, false⟩
/-- `DRK.ATTR_A.ATTR` [31:0] -/
def drkAttrA : Fld := ⟨12, 0x10, 1, 0x4, 1, 0x4, 0, 32, .rw, 0x0, .any, false⟩
/-- `DRK.ATTR_B.ATTR` [31:0] -/
def drkAttrB : Fld := ⟨12, 0x14, 1, 0x4, 1, 0x4, 0, 32, .rw, 0x0, .any, false⟩
/-- `DRK.BLOB.DATA` [31:0] -/
def drkBlob : Fld := ⟨12, 0x20, 12, 0x4, 1, 0x4, 0, 32, .rw, 0x0, .any, false⟩
/-- `DRK.SIG_ADDR.ADDR` [31:0] -/
def drkSigAddr : Fld := ⟨12, 0x50, 1, 0x4, 1, 0x4, 0, 32, .rw, 0x0, .any, false⟩
/-- `DRK.RNG.VALUE` [31:0] -/
def drkRng : Fld := ⟨12, 0x60, 1, 0x4, 1, 0x4, 0, 32, .ro, 0x0, .any, false⟩
/-- `DRK.FUSE.SB_EN` [0:0] -/
def drkFuseSbEn : Fld := ⟨12, 0x70, 1, 0x4, 1, 0x4, 0, 1, .ro, 0x0, .any, false⟩
/-- `DRK.FUSE.SIGPOL` [1:1] -/
def drkFuseSigpol : Fld := ⟨12, 0x70, 1, 0x4, 1, 0x4, 1, 1, .ro, 0x0, .any, false⟩
/-- `DRK.FUSE.DBG_LOCK` [2:2] -/
def drkFuseDbgLock : Fld := ⟨12, 0x70, 1, 0x4, 1, 0x4, 2, 1, .ro, 0x0, .any, false⟩
/-- `DRK.FUSE.REVOKED` [11:4] -/
def drkFuseRevoked : Fld := ⟨12, 0x70, 1, 0x4, 1, 0x4, 4, 8, .ro, 0x0, .any, false⟩
/-- `DRK.DBG_REQ.LEVEL` [1:0] -/
def drkDbgReqLevel : Fld := ⟨12, 0x80, 1, 0x4, 1, 0x4, 0, 2, .rw, 0x0, (.range 0 2), false⟩
/-- `DRK.DBG_REQ.CLOSE` [30:30] -/
def drkDbgReqClose : Fld := ⟨12, 0x80, 1, 0x4, 1, 0x4, 30, 1, .wo, 0x0, .any, false⟩
/-- `DRK.DBG_REQ.GO` [31:31] -/
def drkDbgReqGo : Fld := ⟨12, 0x80, 1, 0x4, 1, 0x4, 31, 1, .wo, 0x0, .any, false⟩
/-- `DRK.DBG_STAT.GRANTED` [1:0] -/
def drkDbgStatGranted : Fld := ⟨12, 0x84, 1, 0x4, 1, 0x4, 0, 2, .ro, 0x0, .any, false⟩
/-- `DRK.DBG_STAT.FAILS` [5:4] -/
def drkDbgStatFails : Fld := ⟨12, 0x84, 1, 0x4, 1, 0x4, 4, 2, .ro, 0x0, .any, false⟩
/-- `DRK.DBG_CHAL.DATA` [31:0] -/
def drkDbgChal : Fld := ⟨12, 0x90, 8, 0x4, 1, 0x4, 0, 32, .ro, 0x0, .any, false⟩
/-- `DRK.DBG_RESP.DATA` [31:0] -/
def drkDbgResp : Fld := ⟨12, 0xc0, 24, 0x4, 1, 0x4, 0, 32, .wo, 0x0, .any, false⟩
/-- `DRK.SLOT_A.STATE` [1:0] -/
def drkSlotAState : Fld := ⟨12, 0x1000, 256, 0x20, 1, 0x4, 0, 2, .ro, 0x0, .any, false⟩
/-- `DRK.SLOT_A.EXHAUSTED` [2:2] -/
def drkSlotAExhausted : Fld := ⟨12, 0x1000, 256, 0x20, 1, 0x4, 2, 1, .ro, 0x0, .any, false⟩
/-- `DRK.SLOT_A.REFS` [31:16] -/
def drkSlotARefs : Fld := ⟨12, 0x1000, 256, 0x20, 1, 0x4, 16, 16, .ro, 0x0, .any, false⟩
/-- `DRK.SLOT_ATTR_A.ATTR` [31:0] -/
def drkSlotAttrA : Fld := ⟨12, 0x1004, 256, 0x20, 1, 0x4, 0, 32, .ro, 0x0, .any, false⟩
/-- `DRK.SLOT_ATTR_B.ATTR` [31:0] -/
def drkSlotAttrB : Fld := ⟨12, 0x1008, 256, 0x20, 1, 0x4, 0, 32, .ro, 0x0, .any, false⟩
/-- `DRK.SLOT_KCV.KCV` [31:0] -/
def drkSlotKcv : Fld := ⟨12, 0x100c, 256, 0x20, 1, 0x4, 0, 32, .ro, 0x0, .any, false⟩
/-- `DRK.SLOT_N.N` [31:0] -/
def drkSlotN : Fld := ⟨12, 0x1010, 256, 0x20, 1, 0x4, 0, 32, .ro, 0x0, .any, false⟩
/-- `DRK.SLOT_E.E` [31:0] -/
def drkSlotE : Fld := ⟨12, 0x1014, 256, 0x20, 1, 0x4, 0, 32, .ro, 0x0, .any, false⟩
/-- `DRK.SLOT_SHADOW.SHADOW_REFS` [15:0] -/
def drkSlotShadow : Fld := ⟨12, 0x1018, 256, 0x20, 1, 0x4, 0, 16, .ro, 0x0, .any, false⟩

def drkFields0 : List Fld :=
    [drkCmdOp, drkCmdSlot, drkCmdKek, drkCmdGo, drkCmdStatBusy, drkCmdStatResult, drkAttrA, drkAttrB, drkBlob,
   drkSigAddr, drkRng, drkFuseSbEn, drkFuseSigpol, drkFuseDbgLock, drkFuseRevoked, drkDbgReqLevel, drkDbgReqClose,
   drkDbgReqGo, drkDbgStatGranted, drkDbgStatFails, drkDbgChal, drkDbgResp, drkSlotAState, drkSlotAExhausted,
   drkSlotARefs, drkSlotAttrA, drkSlotAttrB, drkSlotKcv, drkSlotN, drkSlotE, drkSlotShadow]
/-- The fields of block DRK. -/
def drkFields : List Fld := drkFields0

/-! ### Block MBX (class 13, 02 Table 2.5) -/

/-- `MBX.SEL.INDEX` [7:0] -/
def mbxSelIndex : Fld := ⟨13, 0x0, 1, 0x4, 1, 0x4, 0, 8, .rw, 0x0, .any, false⟩
/-- `MBX.SEL.ERR` [31:31] -/
def mbxSelErr : Fld := ⟨13, 0x0, 1, 0x4, 1, 0x4, 31, 1, .ro, 0x0, .any, false⟩
/-- `MBX.DB.VALUE` [31:0] -/
def mbxDb : Fld := ⟨13, 0x10, 4, 0x4, 1, 0x4, 0, 32, .wo, 0x0, .any, false⟩
/-- `MBX.DBE.ENTRY` [7:0] -/
def mbxDbeEntry : Fld := ⟨13, 0x20, 4, 0x4, 1, 0x4, 0, 8, .rws, 0x0, .any, false⟩
/-- `MBX.DBE.EN` [31:31] -/
def mbxDbeEn : Fld := ⟨13, 0x20, 4, 0x4, 1, 0x4, 31, 1, .rws, 0x0, .any, false⟩
/-- `MBX.CFG_A.END_A` [4:0] -/
def mbxCfgAEndA : Fld := ⟨13, 0x100, 1, 0x4, 1, 0x4, 0, 5, .rws, 0x0, .codes [0, 1, 2, 3, 4, 8, 9, 10, 11, 16, 17, 24], false⟩
/-- `MBX.CFG_A.END_B` [12:8] -/
def mbxCfgAEndB : Fld := ⟨13, 0x100, 1, 0x4, 1, 0x4, 8, 5, .rws, 0x0, .codes [0, 1, 2, 3, 4, 8, 9, 10, 11, 16, 17, 24], false⟩
/-- `MBX.CFG_A.EN` [31:31] -/
def mbxCfgAEn : Fld := ⟨13, 0x100, 1, 0x4, 1, 0x4, 31, 1, .rws, 0x0, .any, false⟩
/-- `MBX.CFG_B.TMO` [15:0] -/
def mbxCfgB : Fld := ⟨13, 0x104, 1, 0x4, 1, 0x4, 0, 16, .rws, 0x0, .any, false⟩
/-- `MBX.CFG_C.CORE` [1:0] -/
def mbxCfgCCore : Fld := ⟨13, 0x108, 1, 0x4, 1, 0x4, 0, 2, .rws, 0x0, .any, false⟩
/-- `MBX.CFG_C.ENTRY` [9:2] -/
def mbxCfgCEntry : Fld := ⟨13, 0x108, 1, 0x4, 1, 0x4, 2, 8, .rws, 0x0, .any, false⟩
/-- `MBX.CFG_C.VEC` [15:10] -/
def mbxCfgCVec : Fld := ⟨13, 0x108, 1, 0x4, 1, 0x4, 10, 6, .rws, 0x0, .any, false⟩
/-- `MBX.CFG_D.CORE` [1:0] -/
def mbxCfgDCore : Fld := ⟨13, 0x10c, 1, 0x4, 1, 0x4, 0, 2, .rws, 0x0, .any, false⟩
/-- `MBX.CFG_D.ENTRY` [9:2] -/
def mbxCfgDEntry : Fld := ⟨13, 0x10c, 1, 0x4, 1, 0x4, 2, 8, .rws, 0x0, .any, false⟩
/-- `MBX.CFG_D.VEC` [15:10] -/
def mbxCfgDVec : Fld := ⟨13, 0x10c, 1, 0x4, 1, 0x4, 10, 6, .rws, 0x0, .any, false⟩
/-- `MBX.TX.WORD` [31:0] -/
def mbxTx : Fld := ⟨13, 0x110, 1, 0x4, 1, 0x4, 0, 32, .wo, 0x0, .any, false⟩
/-- `MBX.RX.WORD` [31:0] -/
def mbxRx : Fld := ⟨13, 0x114, 1, 0x4, 1, 0x4, 0, 32, .ro, 0x0, .any, false⟩
/-- `MBX.DOORBELL.VALUE` [31:0] -/
def mbxDoorbell : Fld := ⟨13, 0x118, 1, 0x4, 1, 0x4, 0, 32, .wo, 0x0, .any, false⟩
/-- `MBX.DB_VAL.VALUE` [31:0] -/
def mbxDbVal : Fld := ⟨13, 0x11c, 1, 0x4, 1, 0x4, 0, 32, .ro, 0x0, .any, false⟩
/-- `MBX.STAT.OUT` [3:0] -/
def mbxStatOut : Fld := ⟨13, 0x120, 1, 0x4, 1, 0x4, 0, 4, .ro, 0x0, .any, false⟩
/-- `MBX.STAT.IN` [7:4] -/
def mbxStatIn : Fld := ⟨13, 0x120, 1, 0x4, 1, 0x4, 4, 4, .ro, 0x0, .any, false⟩
/-- `MBX.STAT.DB` [8:8] -/
def mbxStatDb : Fld := ⟨13, 0x120, 1, 0x4, 1, 0x4, 8, 1, .ro, 0x0, .any, false⟩
/-- `MBX.STAT.TMO` [9:9] -/
def mbxStatTmo : Fld := ⟨13, 0x120, 1, 0x4, 1, 0x4, 9, 1, .w1c, 0x0, .any, false⟩
/-- `MBX.STAT.OVF` [10:10] -/
def mbxStatOvf : Fld := ⟨13, 0x120, 1, 0x4, 1, 0x4, 10, 1, .w1c, 0x0, .any, false⟩
/-- `MBX.STAT.UNDER` [11:11] -/
def mbxStatUnder : Fld := ⟨13, 0x120, 1, 0x4, 1, 0x4, 11, 1, .w1c, 0x0, .any, false⟩
/-- `MBX.FLUSH.OUT` [0:0] -/
def mbxFlushOut : Fld := ⟨13, 0x124, 1, 0x4, 1, 0x4, 0, 1, .wo, 0x0, .any, false⟩
/-- `MBX.FLUSH.IN` [1:1] -/
def mbxFlushIn : Fld := ⟨13, 0x124, 1, 0x4, 1, 0x4, 1, 1, .wo, 0x0, .any, false⟩
/-- `MBX.CNT.DB_OVW` [15:0] -/
def mbxCntDbOvw : Fld := ⟨13, 0x128, 1, 0x4, 1, 0x4, 0, 16, .rc, 0x0, .any, false⟩
/-- `MBX.CNT.FLUSHED` [31:16] -/
def mbxCntFlushed : Fld := ⟨13, 0x128, 1, 0x4, 1, 0x4, 16, 16, .rc, 0x0, .any, false⟩

def mbxFields0 : List Fld :=
    [mbxSelIndex, mbxSelErr, mbxDb, mbxDbeEntry, mbxDbeEn, mbxCfgAEndA, mbxCfgAEndB, mbxCfgAEn, mbxCfgB, mbxCfgCCore,
   mbxCfgCEntry, mbxCfgCVec, mbxCfgDCore, mbxCfgDEntry, mbxCfgDVec, mbxTx, mbxRx, mbxDoorbell, mbxDbVal, mbxStatOut,
   mbxStatIn, mbxStatDb, mbxStatTmo, mbxStatOvf, mbxStatUnder, mbxFlushOut, mbxFlushIn, mbxCntDbOvw, mbxCntFlushed]
/-- The fields of block MBX. -/
def mbxFields : List Fld := mbxFields0

/-! ### Block QBK (class 14, 02 Table 2.5) -/

/-- `QBK.SEL.INDEX` [7:0] -/
def qbkSelIndex : Fld := ⟨14, 0x0, 1, 0x4, 1, 0x4, 0, 8, .rw, 0x0, .any, false⟩
/-- `QBK.SEL.ERR` [31:31] -/
def qbkSelErr : Fld := ⟨14, 0x0, 1, 0x4, 1, 0x4, 31, 1, .ro, 0x0, .any, false⟩
/-- `QBK.CFG_A.BASE` [16:0] -/
def qbkCfgABase : Fld := ⟨14, 0x100, 1, 0x4, 1, 0x4, 0, 17, .rws, 0x0, .any, false⟩
/-- `QBK.CFG_A.LOG2SIZE` [24:20] -/
def qbkCfgALog2size : Fld := ⟨14, 0x100, 1, 0x4, 1, 0x4, 20, 5, .rws, 0x4, (.range 4 17), false⟩
/-- `QBK.CFG_A.EN` [31:31] -/
def qbkCfgAEn : Fld := ⟨14, 0x100, 1, 0x4, 1, 0x4, 31, 1, .rws, 0x0, .any, false⟩
/-- `QBK.CFG_B.WM` [17:0] -/
def qbkCfgB : Fld := ⟨14, 0x104, 1, 0x4, 1, 0x4, 0, 18, .rws, 0x1, (.range 1 262143), false⟩
/-- `QBK.CFG_C.CLUSTER` [1:0] -/
def qbkCfgCCluster : Fld := ⟨14, 0x108, 1, 0x4, 1, 0x4, 0, 2, .rws, 0x0, .any, false⟩
/-- `QBK.CFG_C.ENTRY` [9:2] -/
def qbkCfgCEntry : Fld := ⟨14, 0x108, 1, 0x4, 1, 0x4, 2, 8, .rws, 0x0, .any, false⟩
/-- `QBK.CFG_C.EVEN` [10:10] -/
def qbkCfgCEven : Fld := ⟨14, 0x108, 1, 0x4, 1, 0x4, 10, 1, .rws, 0x0, .any, false⟩
/-- `QBK.CFG_C.CORE` [13:12] -/
def qbkCfgCCore : Fld := ⟨14, 0x108, 1, 0x4, 1, 0x4, 12, 2, .rws, 0x0, .any, false⟩
/-- `QBK.CFG_C.INTEN` [14:14] -/
def qbkCfgCInten : Fld := ⟨14, 0x108, 1, 0x4, 1, 0x4, 14, 1, .rws, 0x0, .any, false⟩
/-- `QBK.CFG_C.MSIX` [15:15] -/
def qbkCfgCMsix : Fld := ⟨14, 0x108, 1, 0x4, 1, 0x4, 15, 1, .rws, 0x0, .any, false⟩
/-- `QBK.CFG_C.VEC` [21:16] -/
def qbkCfgCVec : Fld := ⟨14, 0x108, 1, 0x4, 1, 0x4, 16, 6, .rws, 0x0, .any, false⟩
/-- `QBK.CFG_D.STALE_TMO` [19:0] -/
def qbkCfgD : Fld := ⟨14, 0x10c, 1, 0x4, 1, 0x4, 0, 20, .rws, 0x0, (.range 0 1000000), false⟩
/-- `QBK.WP.PTR` [17:0] -/
def qbkWp : Fld := ⟨14, 0x110, 1, 0x4, 1, 0x4, 0, 18, .ro, 0x0, .any, false⟩
/-- `QBK.RP.PTR` [17:0] -/
def qbkRp : Fld := ⟨14, 0x114, 1, 0x4, 1, 0x4, 0, 18, .ro, 0x0, .any, false⟩
/-- `QBK.REL.PTR` [17:0] -/
def qbkRel : Fld := ⟨14, 0x118, 1, 0x4, 1, 0x4, 0, 18, .ro, 0x0, .any, false⟩
/-- `QBK.MARK.PTR` [17:0] -/
def qbkMark : Fld := ⟨14, 0x11c, 1, 0x4, 1, 0x4, 0, 18, .ro, 0x0, .any, false⟩
/-- `QBK.LEVEL.UNREAD` [17:0] -/
def qbkLevel : Fld := ⟨14, 0x120, 1, 0x4, 1, 0x4, 0, 18, .ro, 0x0, .any, false⟩
/-- `QBK.STAT.STALE` [0:0] -/
def qbkStatStale : Fld := ⟨14, 0x124, 1, 0x4, 1, 0x4, 0, 1, .ro, 0x0, .any, false⟩
/-- `QBK.STAT.NOTE` [1:1] -/
def qbkStatNote : Fld := ⟨14, 0x124, 1, 0x4, 1, 0x4, 1, 1, .ro, 0x0, .any, false⟩
/-- `QBK.STAT.UNDER` [2:2] -/
def qbkStatUnder : Fld := ⟨14, 0x124, 1, 0x4, 1, 0x4, 2, 1, .w1c, 0x0, .any, false⟩
/-- `QBK.STAT.ERR` [3:3] -/
def qbkStatErr : Fld := ⟨14, 0x124, 1, 0x4, 1, 0x4, 3, 1, .w1c, 0x0, .any, false⟩
/-- `QBK.STAT.PUSH_RESULT` [5:4] -/
def qbkStatPushResult : Fld := ⟨14, 0x124, 1, 0x4, 1, 0x4, 4, 2, .ro, 0x0, .any, false⟩
/-- `QBK.DROPS.COUNT` [31:0] -/
def qbkDrops : Fld := ⟨14, 0x128, 1, 0x4, 1, 0x4, 0, 32, .rc, 0x0, .any, false⟩
/-- `QBK.PEAK.HELD` [17:0] -/
def qbkPeak : Fld := ⟨14, 0x12c, 1, 0x4, 1, 0x4, 0, 18, .rc, 0x0, .any, false⟩
/-- `QBK.POP.WORD` [31:0] -/
def qbkPop : Fld := ⟨14, 0x130, 1, 0x4, 1, 0x4, 0, 32, .ro, 0x0, .any, false⟩
/-- `QBK.OP.OP` [2:0] -/
def qbkOp : Fld := ⟨14, 0x134, 1, 0x4, 1, 0x4, 0, 3, .wo, 0x0, .any, false⟩
/-- `QBK.OP.COUNT` [25:8] -/
def qbkOpCount : Fld := ⟨14, 0x134, 1, 0x4, 1, 0x4, 8, 18, .wo, 0x0, .any, false⟩
/-- `QBK.PUSH.WORD` [31:0] -/
def qbkPush : Fld := ⟨14, 0x140, 16, 0x4, 1, 0x4, 0, 32, .rw, 0x0, .any, false⟩
/-- `QBK.PUSH_CTL.COUNT` [3:0] -/
def qbkPushCtlCount : Fld := ⟨14, 0x180, 1, 0x4, 1, 0x4, 0, 4, .wo, 0x0, .any, false⟩
/-- `QBK.PUSH_CTL.GO` [31:31] -/
def qbkPushCtlGo : Fld := ⟨14, 0x180, 1, 0x4, 1, 0x4, 31, 1, .wo, 0x0, .any, false⟩
/-- `QBK.PEEK.WORD` [31:0] -/
def qbkPeek : Fld := ⟨14, 0x400, 256, 0x4, 1, 0x4, 0, 32, .ro, 0x0, .any, false⟩

def qbkFields0 : List Fld :=
    [qbkSelIndex, qbkSelErr, qbkCfgABase, qbkCfgALog2size, qbkCfgAEn, qbkCfgB, qbkCfgCCluster, qbkCfgCEntry,
   qbkCfgCEven, qbkCfgCCore, qbkCfgCInten, qbkCfgCMsix, qbkCfgCVec, qbkCfgD, qbkWp, qbkRp, qbkRel, qbkMark, qbkLevel,
   qbkStatStale, qbkStatNote, qbkStatUnder, qbkStatErr, qbkStatPushResult, qbkDrops, qbkPeak, qbkPop, qbkOp,
   qbkOpCount, qbkPush, qbkPushCtlCount, qbkPushCtlGo, qbkPeek]
/-- The fields of block QBK. -/
def qbkFields : List Fld := qbkFields0

/-! ### Block STW (class 15, 02 Table 2.5) -/

/-- `STW.PAIR.MODE` [1:0] -/
def stwPairMode : Fld := ⟨15, 0x4, 1, 0x4, 1, 0x4, 0, 2, .rws, 0x0, (.range 0 2), false⟩
/-- `STW.PAIR.DEGRADE` [2:2] -/
def stwPairDegrade : Fld := ⟨15, 0x4, 1, 0x4, 1, 0x4, 2, 1, .rws, 0x0, .any, false⟩
/-- `STW.PAIR.PREF` [3:3] -/
def stwPairPref : Fld := ⟨15, 0x4, 1, 0x4, 1, 0x4, 3, 1, .rws, 0x0, .any, false⟩
/-- `STW.PAIR_PREP.MODE` [1:0] -/
def stwPairPrepMode : Fld := ⟨15, 0x8, 1, 0x4, 1, 0x4, 0, 2, .wo, 0x0, .any, false⟩
/-- `STW.PAIR_PREP.GO` [31:31] -/
def stwPairPrepGo : Fld := ⟨15, 0x8, 1, 0x4, 1, 0x4, 31, 1, .wo, 0x0, .any, false⟩
/-- `STW.PAIR_STAT.MODE` [1:0] -/
def stwPairStatMode : Fld := ⟨15, 0xc, 1, 0x4, 1, 0x4, 0, 2, .ro, 0x0, .any, false⟩
/-- `STW.PAIR_STAT.ROLE` [4:2] -/
def stwPairStatRole : Fld := ⟨15, 0xc, 1, 0x4, 1, 0x4, 2, 3, .ro, 0x0, .any, false⟩
/-- `STW.PAIR_STAT.ISOLATED` [5:5] -/
def stwPairStatIsolated : Fld := ⟨15, 0xc, 1, 0x4, 1, 0x4, 5, 1, .ro, 0x0, .any, false⟩
/-- `STW.PAIR_STAT.SILENT` [6:6] -/
def stwPairStatSilent : Fld := ⟨15, 0xc, 1, 0x4, 1, 0x4, 6, 1, .ro, 0x0, .any, false⟩
/-- `STW.PAIR_STAT.ARMED` [7:7] -/
def stwPairStatArmed : Fld := ⟨15, 0xc, 1, 0x4, 1, 0x4, 7, 1, .ro, 0x0, .any, false⟩
/-- `STW.PAIR_STAT.DEGRADED` [8:8] -/
def stwPairStatDegraded : Fld := ⟨15, 0xc, 1, 0x4, 1, 0x4, 8, 1, .ro, 0x0, .any, false⟩
/-- `STW.HANDOVER.CUE` [9:0] -/
def stwHandoverCue : Fld := ⟨15, 0x10, 1, 0x4, 1, 0x4, 0, 10, .wo, 0x0, .any, false⟩
/-- `STW.HANDOVER.GO` [31:31] -/
def stwHandoverGo : Fld := ⟨15, 0x10, 1, 0x4, 1, 0x4, 31, 1, .wo, 0x0, .any, false⟩
/-- `STW.JOIN.CUE` [9:0] -/
def stwJoinCue : Fld := ⟨15, 0x14, 1, 0x4, 1, 0x4, 0, 10, .wo, 0x0, .any, false⟩
/-- `STW.JOIN.TIMEGO` [30:30] -/
def stwJoinTimego : Fld := ⟨15, 0x14, 1, 0x4, 1, 0x4, 30, 1, .wo, 0x0, .any, false⟩
/-- `STW.JOIN.GO` [31:31] -/
def stwJoinGo : Fld := ⟨15, 0x14, 1, 0x4, 1, 0x4, 31, 1, .wo, 0x0, .any, false⟩
/-- `STW.LINK.UP` [0:0] -/
def stwLinkUp : Fld := ⟨15, 0x20, 1, 0x4, 1, 0x4, 0, 1, .ro, 0x0, .any, false⟩
/-- `STW.LINK.TRAINING` [1:1] -/
def stwLinkTraining : Fld := ⟨15, 0x20, 1, 0x4, 1, 0x4, 1, 1, .ro, 0x0, .any, false⟩
/-- `STW.LINK.LANES` [15:8] -/
def stwLinkLanes : Fld := ⟨15, 0x20, 1, 0x4, 1, 0x4, 8, 8, .ro, 0x0, .any, false⟩
/-- `STW.LINK_CTL.RETRAIN` [0:0] -/
def stwLinkCtlRetrain : Fld := ⟨15, 0x24, 1, 0x4, 1, 0x4, 0, 1, .wo, 0x0, .any, false⟩
/-- `STW.LINK_CTL.AUTO` [1:1] -/
def stwLinkCtlAuto : Fld := ⟨15, 0x24, 1, 0x4, 1, 0x4, 1, 1, .rw, 0x1, .any, false⟩
/-- `STW.RETRY.TIME` [9:0] -/
def stwRetry : Fld := ⟨15, 0x28, 1, 0x4, 1, 0x4, 0, 10, .rws, 0x14, (.range 1 1000), false⟩
/-- `STW.HB.PERIOD` [6:0] -/
def stwHbPeriod : Fld := ⟨15, 0x2c, 1, 0x4, 1, 0x4, 0, 7, .rws, 0xa, (.range 1 100), false⟩
/-- `STW.HB.MISS` [11:8] -/
def stwHbMiss : Fld := ⟨15, 0x2c, 1, 0x4, 1, 0x4, 8, 4, .rws, 0x3, (.range 2 15), false⟩
/-- `STW.VOTE.WIN` [6:0] -/
def stwVoteWin : Fld := ⟨15, 0x30, 1, 0x4, 1, 0x4, 0, 7, .rws, 0x4, (.range 1 64), false⟩
/-- `STW.VOTE.SILENT_LIMIT` [31:16] -/
def stwVoteSilentLimit : Fld := ⟨15, 0x30, 1, 0x4, 1, 0x4, 16, 16, .rws, 0x0, .any, false⟩
/-- `STW.VSTAGE.LEVEL` [12:0] -/
def stwVstageLevel : Fld := ⟨15, 0x34, 1, 0x4, 1, 0x4, 0, 13, .ro, 0x0, .any, false⟩
/-- `STW.VSTAGE.PEAK` [28:16] -/
def stwVstagePeak : Fld := ⟨15, 0x34, 1, 0x4, 1, 0x4, 16, 13, .rc, 0x0, .any, false⟩
/-- `STW.VC.LEVEL` [5:0] -/
def stwVcLevel : Fld := ⟨15, 0x100, 4, 0x10, 1, 0x4, 0, 6, .ro, 0x0, .any, false⟩
/-- `STW.VC.PEAK` [13:8] -/
def stwVcPeak : Fld := ⟨15, 0x100, 4, 0x10, 1, 0x4, 8, 6, .rc, 0x0, .any, false⟩
/-- `STW.VC_NP.NP_OUT` [6:0] -/
def stwVcNp : Fld := ⟨15, 0x104, 4, 0x10, 1, 0x4, 0, 7, .ro, 0x0, .any, false⟩
/-- `STW.CNT_FLITS_TX.COUNT` [31:0] -/
def stwCntFlitsTx : Fld := ⟨15, 0x200, 1, 0x4, 1, 0x4, 0, 32, .rc, 0x0, .any, true⟩
/-- `STW.CNT_FLITS_RX.COUNT` [31:0] -/
def stwCntFlitsRx : Fld := ⟨15, 0x204, 1, 0x4, 1, 0x4, 0, 32, .rc, 0x0, .any, true⟩
/-- `STW.CNT_CRC_ERR.COUNT` [31:0] -/
def stwCntCrcErr : Fld := ⟨15, 0x208, 1, 0x4, 1, 0x4, 0, 32, .rc, 0x0, .any, false⟩
/-- `STW.CNT_RETRIES.COUNT` [31:0] -/
def stwCntRetries : Fld := ⟨15, 0x20c, 1, 0x4, 1, 0x4, 0, 32, .rc, 0x0, .any, false⟩
/-- `STW.CNT_LOST_FLITS.COUNT` [31:0] -/
def stwCntLostFlits : Fld := ⟨15, 0x210, 1, 0x4, 1, 0x4, 0, 32, .rc, 0x0, .any, false⟩
/-- `STW.CNT_LINK_DOWNS.COUNT` [31:0] -/
def stwCntLinkDowns : Fld := ⟨15, 0x214, 1, 0x4, 1, 0x4, 0, 32, .rc, 0x0, .any, false⟩
/-- `STW.CNT_HB_MISSED.COUNT` [31:0] -/
def stwCntHbMissed : Fld := ⟨15, 0x218, 1, 0x4, 1, 0x4, 0, 32, .rc, 0x0, .any, false⟩
/-- `STW.CNT_FAILOVERS.COUNT` [31:0] -/
def stwCntFailovers : Fld := ⟨15, 0x21c, 1, 0x4, 1, 0x4, 0, 32, .rc, 0x0, .any, false⟩
/-- `STW.CNT_NOTICE_MISS.COUNT` [31:0] -/
def stwCntNoticeMiss : Fld := ⟨15, 0x220, 1, 0x4, 1, 0x4, 0, 32, .rc, 0x0, .any, false⟩
/-- `STW.CNT_MIRROR_SHADOWED.COUNT` [31:0] -/
def stwCntMirrorShadowed : Fld := ⟨15, 0x224, 1, 0x4, 1, 0x4, 0, 32, .rc, 0x0, .any, false⟩
/-- `STW.CNT_MIRROR_SUPPRESSED.COUNT` [31:0] -/
def stwCntMirrorSuppressed : Fld := ⟨15, 0x228, 1, 0x4, 1, 0x4, 0, 32, .rc, 0x0, .any, false⟩
/-- `STW.CNT_REPL_DROP.COUNT` [31:0] -/
def stwCntReplDrop : Fld := ⟨15, 0x22c, 1, 0x4, 1, 0x4, 0, 32, .rc, 0x0, .any, false⟩
/-- `STW.CNT_VOTE_MATCH.COUNT` [31:0] -/
def stwCntVoteMatch : Fld := ⟨15, 0x230, 1, 0x4, 1, 0x4, 0, 32, .rc, 0x0, .any, true⟩
/-- `STW.CNT_VOTE_MISMATCH.COUNT` [31:0] -/
def stwCntVoteMismatch : Fld := ⟨15, 0x234, 1, 0x4, 1, 0x4, 0, 32, .rc, 0x0, .any, false⟩
/-- `STW.CNT_VOTE_TIMEOUT.COUNT` [31:0] -/
def stwCntVoteTimeout : Fld := ⟨15, 0x238, 1, 0x4, 1, 0x4, 0, 32, .rc, 0x0, .any, false⟩
/-- `STW.CNT_VOTE_LATE.COUNT` [31:0] -/
def stwCntVoteLate : Fld := ⟨15, 0x23c, 1, 0x4, 1, 0x4, 0, 32, .rc, 0x0, .any, false⟩
/-- `STW.CNT_VOTE_FULL.COUNT` [31:0] -/
def stwCntVoteFull : Fld := ⟨15, 0x240, 1, 0x4, 1, 0x4, 0, 32, .rc, 0x0, .any, false⟩
/-- `STW.CNT_VOTE_SILENT.COUNT` [31:0] -/
def stwCntVoteSilent : Fld := ⟨15, 0x244, 1, 0x4, 1, 0x4, 0, 32, .rc, 0x0, .any, false⟩
/-- `STW.CNT_LRSC_BROKEN.COUNT` [31:0] -/
def stwCntLrscBroken : Fld := ⟨15, 0x248, 1, 0x4, 1, 0x4, 0, 32, .rc, 0x0, .any, false⟩
/-- `STW.CNT_PARTNER_LOST.COUNT` [31:0] -/
def stwCntPartnerLost : Fld := ⟨15, 0x24c, 1, 0x4, 1, 0x4, 0, 32, .rc, 0x0, .any, false⟩

def stwFields0 : List Fld :=
    [stwPairMode, stwPairDegrade, stwPairPref, stwPairPrepMode, stwPairPrepGo, stwPairStatMode, stwPairStatRole,
   stwPairStatIsolated, stwPairStatSilent, stwPairStatArmed, stwPairStatDegraded, stwHandoverCue, stwHandoverGo,
   stwJoinCue, stwJoinTimego, stwJoinGo, stwLinkUp, stwLinkTraining, stwLinkLanes, stwLinkCtlRetrain, stwLinkCtlAuto,
   stwRetry, stwHbPeriod, stwHbMiss, stwVoteWin, stwVoteSilentLimit, stwVstageLevel, stwVstagePeak, stwVcLevel,
   stwVcPeak, stwVcNp, stwCntFlitsTx, stwCntFlitsRx, stwCntCrcErr, stwCntRetries, stwCntLostFlits, stwCntLinkDowns,
   stwCntHbMissed, stwCntFailovers, stwCntNoticeMiss]
def stwFields1 : List Fld :=
    [stwCntMirrorShadowed, stwCntMirrorSuppressed, stwCntReplDrop, stwCntVoteMatch, stwCntVoteMismatch,
   stwCntVoteTimeout, stwCntVoteLate, stwCntVoteFull, stwCntVoteSilent, stwCntLrscBroken, stwCntPartnerLost]
/-- The fields of block STW. -/
def stwFields : List Fld := stwFields0 ++ stwFields1

/-! ### Block NWL (class 16, 02 Table 2.5) -/

/-- `NWL.LINK.UP` [0:0] -/
def nwlLinkUp : Fld := ⟨16, 0x4, 1, 0x4, 1, 0x4, 0, 1, .ro, 0x0, .any, false⟩
/-- `NWL.LINK.PENDING` [1:1] -/
def nwlLinkPending : Fld := ⟨16, 0x4, 1, 0x4, 1, 0x4, 1, 1, .ro, 0x0, .any, false⟩
/-- `NWL.LOAD.CH` [4:0] -/
def nwlLoadCh : Fld := ⟨16, 0x10, 1, 0x4, 1, 0x4, 0, 5, .wo, 0x0, .any, false⟩
/-- `NWL.LOAD.ON` [5:5] -/
def nwlLoadOn : Fld := ⟨16, 0x10, 1, 0x4, 1, 0x4, 5, 1, .wo, 0x0, .any, false⟩
/-- `NWL.LOAD.GO` [31:31] -/
def nwlLoadGo : Fld := ⟨16, 0x10, 1, 0x4, 1, 0x4, 31, 1, .wo, 0x0, .any, false⟩
/-- `NWL.DUTY.CH` [4:0] -/
def nwlDutyCh : Fld := ⟨16, 0x14, 1, 0x4, 1, 0x4, 0, 5, .wo, 0x0, .any, false⟩
/-- `NWL.DUTY.DUTY` [14:5] -/
def nwlDuty : Fld := ⟨16, 0x14, 1, 0x4, 1, 0x4, 5, 10, .wo, 0x0, .any, false⟩
/-- `NWL.DUTY.GO` [31:31] -/
def nwlDutyGo : Fld := ⟨16, 0x14, 1, 0x4, 1, 0x4, 31, 1, .wo, 0x0, .any, false⟩
/-- `NWL.CLEAR.CH` [4:0] -/
def nwlClearCh : Fld := ⟨16, 0x18, 1, 0x4, 1, 0x4, 0, 5, .wo, 0x0, .any, false⟩
/-- `NWL.CLEAR.LATCHES` [7:5] -/
def nwlClearLatches : Fld := ⟨16, 0x18, 1, 0x4, 1, 0x4, 5, 3, .wo, 0x0, .any, false⟩
/-- `NWL.CLEAR.GO` [31:31] -/
def nwlClearGo : Fld := ⟨16, 0x18, 1, 0x4, 1, 0x4, 31, 1, .wo, 0x0, .any, false⟩
/-- `NWL.CTRL.CODE` [3:0] -/
def nwlCtrlCode : Fld := ⟨16, 0x1c, 1, 0x4, 1, 0x4, 0, 4, .wo, 0x0, .any, false⟩
/-- `NWL.CTRL.GO` [31:31] -/
def nwlCtrlGo : Fld := ⟨16, 0x1c, 1, 0x4, 1, 0x4, 31, 1, .wo, 0x0, .any, false⟩
/-- `NWL.OWNER.MAP` [23:0] -/
def nwlOwner : Fld := ⟨16, 0x20, 1, 0x4, 1, 0x4, 0, 24, .ro, 0x0, .any, false⟩
/-- `NWL.OWNER_SET.MAP` [23:0] -/
def nwlOwnerSetMap : Fld := ⟨16, 0x24, 1, 0x4, 1, 0x4, 0, 24, .wo, 0x0, .any, false⟩
/-- `NWL.OWNER_SET.GO` [31:31] -/
def nwlOwnerSetGo : Fld := ⟨16, 0x24, 1, 0x4, 1, 0x4, 31, 1, .wo, 0x0, .any, false⟩
/-- `NWL.WD_CFG.PERIOD` [7:0] -/
def nwlWdCfgPeriod : Fld := ⟨16, 0x30, 1, 0x4, 1, 0x4, 0, 8, .rws, 0x64, (.range 1 250), false⟩
/-- `NWL.WD_CFG.LIMIT` [9:8] -/
def nwlWdCfgLimit : Fld := ⟨16, 0x30, 1, 0x4, 1, 0x4, 8, 2, .rws, 0x1, (.range 1 3), false⟩
/-- `NWL.WD_CFG.RECOVER` [15:12] -/
def nwlWdCfgRecover : Fld := ⟨16, 0x30, 1, 0x4, 1, 0x4, 12, 4, .rws, 0x3, (.range 1 15), false⟩
/-- `NWL.WD_CFG.SL_ON_WD` [16:16] -/
def nwlWdCfgSlOnWd : Fld := ⟨16, 0x30, 1, 0x4, 1, 0x4, 16, 1, .rws, 0x0, .any, false⟩
/-- `NWL.WD_CFG.WD_AUTO` [17:17] -/
def nwlWdCfgWdAuto : Fld := ⟨16, 0x30, 1, 0x4, 1, 0x4, 17, 1, .rws, 0x0, .any, false⟩
/-- `NWL.WD_CHAL.CH` [15:0] -/
def nwlWdChalCh : Fld := ⟨16, 0x34, 1, 0x4, 1, 0x4, 0, 16, .ro, 0x0, .any, false⟩
/-- `NWL.WD_CHAL.CNT` [23:16] -/
def nwlWdChalCnt : Fld := ⟨16, 0x34, 1, 0x4, 1, 0x4, 16, 8, .ro, 0x0, .any, false⟩
/-- `NWL.WD_ANS.ANSWER` [15:0] -/
def nwlWdAns : Fld := ⟨16, 0x38, 1, 0x4, 1, 0x4, 0, 16, .wo, 0x0, .any, false⟩
/-- `NWL.WD_STAT.STATE` [1:0] -/
def nwlWdStatState : Fld := ⟨16, 0x3c, 1, 0x4, 1, 0x4, 0, 2, .ro, 0x0, .any, false⟩
/-- `NWL.WD_STAT.MISSES` [3:2] -/
def nwlWdStatMisses : Fld := ⟨16, 0x3c, 1, 0x4, 1, 0x4, 2, 2, .ro, 0x0, .any, false⟩
/-- `NWL.WD_STAT.GOOD` [7:4] -/
def nwlWdStatGood : Fld := ⟨16, 0x3c, 1, 0x4, 1, 0x4, 4, 4, .ro, 0x0, .any, false⟩
/-- `NWL.WD_STAT.LAST` [10:8] -/
def nwlWdStatLast : Fld := ⟨16, 0x3c, 1, 0x4, 1, 0x4, 8, 3, .ro, 0x0, .any, false⟩
/-- `NWL.SL.ACTIVE` [0:0] -/
def nwlSlActive : Fld := ⟨16, 0x40, 1, 0x4, 1, 0x4, 0, 1, .ro, 0x0, .any, false⟩
/-- `NWL.SL.CAUSE` [3:1] -/
def nwlSlCause : Fld := ⟨16, 0x40, 1, 0x4, 1, 0x4, 1, 3, .ro, 0x0, .any, false⟩
/-- `NWL.SL.LH` [13:8] -/
def nwlSlLh : Fld := ⟨16, 0x40, 1, 0x4, 1, 0x4, 8, 6, .ro, 0x0, .any, false⟩
/-- `NWL.WK_CFG.EDGE` [15:0] -/
def nwlWkCfgEdge : Fld := ⟨16, 0x50, 1, 0x4, 1, 0x4, 0, 16, .rws, 0x0, .any, false⟩
/-- `NWL.WK_CFG.FILT` [23:16] -/
def nwlWkCfgFilt : Fld := ⟨16, 0x50, 1, 0x4, 1, 0x4, 16, 8, .rws, 0xa, .any, false⟩
/-- `NWL.WK_STAT.LEVEL` [7:0] -/
def nwlWkStatLevel : Fld := ⟨16, 0x54, 1, 0x4, 1, 0x4, 0, 8, .ro, 0x0, .any, false⟩
/-- `NWL.WK_STAT.WOKE` [15:8] -/
def nwlWkStatWoke : Fld := ⟨16, 0x54, 1, 0x4, 1, 0x4, 8, 8, .w1c, 0x0, .any, false⟩
/-- `NWL.SUPPLY.VBAT` [15:0] -/
def nwlSupplyVbat : Fld := ⟨16, 0x58, 1, 0x4, 1, 0x4, 0, 16, .ro, 0x0, .any, false⟩
/-- `NWL.SUPPLY.NTEMP` [23:16] -/
def nwlSupplyNtemp : Fld := ⟨16, 0x58, 1, 0x4, 1, 0x4, 16, 8, .ro, 0x0, .any, false⟩
/-- `NWL.EE_ADDR.PAGE` [13:4] -/
def nwlEeAddr : Fld := ⟨16, 0x60, 1, 0x4, 1, 0x4, 4, 10, .rw, 0x0, .any, false⟩
/-- `NWL.EE_DATA.DATA` [31:0] -/
def nwlEeData : Fld := ⟨16, 0x64, 4, 0x4, 1, 0x4, 0, 32, .rw, 0x0, .any, false⟩
/-- `NWL.EE_CTL.READ` [0:0] -/
def nwlEeCtlRead : Fld := ⟨16, 0x74, 1, 0x4, 1, 0x4, 0, 1, .wo, 0x0, .any, false⟩
/-- `NWL.EE_CTL.WRITE` [1:1] -/
def nwlEeCtlWrite : Fld := ⟨16, 0x74, 1, 0x4, 1, 0x4, 1, 1, .wo, 0x0, .any, false⟩
/-- `NWL.EE_CTL.BUSY` [8:8] -/
def nwlEeCtlBusy : Fld := ⟨16, 0x74, 1, 0x4, 1, 0x4, 8, 1, .ro, 0x0, .any, false⟩
/-- `NWL.EE_CTL.RESULT` [11:9] -/
def nwlEeCtlResult : Fld := ⟨16, 0x74, 1, 0x4, 1, 0x4, 9, 3, .ro, 0x0, .any, false⟩
/-- `NWL.CNT_CRC_RX.COUNT` [31:0] -/
def nwlCntCrcRx : Fld := ⟨16, 0x80, 1, 0x4, 1, 0x4, 0, 32, .rc, 0x0, .any, false⟩
/-- `NWL.CNT_CRC_TX.COUNT` [31:0] -/
def nwlCntCrcTx : Fld := ⟨16, 0x84, 1, 0x4, 1, 0x4, 0, 32, .rc, 0x0, .any, false⟩
/-- `NWL.CNT_RESENDS.COUNT` [31:0] -/
def nwlCntResends : Fld := ⟨16, 0x88, 1, 0x4, 1, 0x4, 0, 32, .rc, 0x0, .any, false⟩
/-- `NWL.CNT_NAKS.COUNT` [31:0] -/
def nwlCntNaks : Fld := ⟨16, 0x8c, 1, 0x4, 1, 0x4, 0, 32, .rc, 0x0, .any, false⟩
/-- `NWL.CNT_LINK_LOSS.COUNT` [31:0] -/
def nwlCntLinkLoss : Fld := ⟨16, 0x90, 1, 0x4, 1, 0x4, 0, 32, .rc, 0x0, .any, false⟩
/-- `NWL.CNT_LINK_DROP.COUNT` [31:0] -/
def nwlCntLinkDrop : Fld := ⟨16, 0x94, 1, 0x4, 1, 0x4, 0, 32, .rc, 0x0, .any, false⟩
/-- `NWL.CNT_WD_MISSES.COUNT` [31:0] -/
def nwlCntWdMisses : Fld := ⟨16, 0x98, 1, 0x4, 1, 0x4, 0, 32, .rc, 0x0, .any, false⟩
/-- `NWL.CNT_LOAD_DISAGREE.COUNT` [31:0] -/
def nwlCntLoadDisagree : Fld := ⟨16, 0x9c, 1, 0x4, 1, 0x4, 0, 32, .rc, 0x0, .any, false⟩
/-- `NWL.CH_A.EN` [0:0] -/
def nwlChAEn : Fld := ⟨16, 0x100, 24, 0x10, 1, 0x4, 0, 1, .rws, 0x0, .any, false⟩
/-- `NWL.CH_A.MODE` [1:1] -/
def nwlChAMode : Fld := ⟨16, 0x100, 24, 0x10, 1, 0x4, 1, 1, .rws, 0x0, .any, false⟩
/-- `NWL.CH_A.PWT` [3:2] -/
def nwlChAPwt : Fld := ⟨16, 0x100, 24, 0x10, 1, 0x4, 2, 2, .rws, 0x0, .any, false⟩
/-- `NWL.CH_A.FREQ` [16:4] -/
def nwlChAFreq : Fld := ⟨16, 0x100, 24, 0x10, 1, 0x4, 4, 13, .rws, 0xc8, (.range 50 5000), false⟩
/-- `NWL.CH_A.PHASE` [26:17] -/
def nwlChAPhase : Fld := ⟨16, 0x100, 24, 0x10, 1, 0x4, 17, 10, .rws, 0x0, .any, false⟩
/-- `NWL.CH_A.FS` [28:27] -/
def nwlChAFs : Fld := ⟨16, 0x100, 24, 0x10, 1, 0x4, 27, 2, .rws, 0x0, .any, false⟩
/-- `NWL.CH_A.THERM_AUTO` [29:29] -/
def nwlChAThermAuto : Fld := ⟨16, 0x100, 24, 0x10, 1, 0x4, 29, 1, .rws, 0x0, .any, false⟩
/-- `NWL.CH_A.OL_OFF_EN` [30:30] -/
def nwlChAOlOffEn : Fld := ⟨16, 0x100, 24, 0x10, 1, 0x4, 30, 1, .rws, 0x0, .any, false⟩
/-- `NWL.CH_B.FS_DUTY` [9:0] -/
def nwlChBFsDuty : Fld := ⟨16, 0x104, 24, 0x10, 1, 0x4, 0, 10, .rws, 0x0, .any, false⟩
/-- `NWL.CH_B.RETRY_MAX` [20:16] -/
def nwlChBRetryMax : Fld := ⟨16, 0x104, 24, 0x10, 1, 0x4, 16, 5, .rws, 0x0, .any, false⟩
/-- `NWL.CH_B.RETRY_GAP` [29:24] -/
def nwlChBRetryGap : Fld := ⟨16, 0x104, 24, 0x10, 1, 0x4, 24, 6, .rws, 0x4, (.range 1 32), false⟩
/-- `NWL.CH_C.WARM` [7:0] -/
def nwlChCWarm : Fld := ⟨16, 0x108, 24, 0x10, 1, 0x4, 0, 8, .rws, 0x0, .any, false⟩
/-- `NWL.CH_C.INOM` [17:8] -/
def nwlChCInom : Fld := ⟨16, 0x108, 24, 0x10, 1, 0x4, 8, 10, .rws, 0x0, .any, false⟩
/-- `NWL.CH_C.TAU` [26:18] -/
def nwlChCTau : Fld := ⟨16, 0x108, 24, 0x10, 1, 0x4, 18, 9, .rws, 0x1, (.range 1 300), false⟩
/-- `NWL.CH_STAT.OUT` [1:0] -/
def nwlChStatOut : Fld := ⟨16, 0x10c, 24, 0x10, 1, 0x4, 0, 2, .ro, 0x0, .any, false⟩
/-- `NWL.CH_STAT.CMD` [2:2] -/
def nwlChStatCmd : Fld := ⟨16, 0x10c, 24, 0x10, 1, 0x4, 2, 1, .ro, 0x0, .any, false⟩
/-- `NWL.CH_STAT.THERM` [3:3] -/
def nwlChStatTherm : Fld := ⟨16, 0x10c, 24, 0x10, 1, 0x4, 3, 1, .ro, 0x0, .any, false⟩
/-- `NWL.CH_STAT.OC` [4:4] -/
def nwlChStatOc : Fld := ⟨16, 0x10c, 24, 0x10, 1, 0x4, 4, 1, .ro, 0x0, .any, false⟩
/-- `NWL.CH_STAT.WIRE` [5:5] -/
def nwlChStatWire : Fld := ⟨16, 0x10c, 24, 0x10, 1, 0x4, 5, 1, .ro, 0x0, .any, false⟩
/-- `NWL.CH_STAT.OPEN_ON` [6:6] -/
def nwlChStatOpenOn : Fld := ⟨16, 0x10c, 24, 0x10, 1, 0x4, 6, 1, .ro, 0x0, .any, false⟩
/-- `NWL.CH_STAT.OPEN_OFF` [7:7] -/
def nwlChStatOpenOff : Fld := ⟨16, 0x10c, 24, 0x10, 1, 0x4, 7, 1, .ro, 0x0, .any, false⟩
/-- `NWL.CH_STAT.STB` [8:8] -/
def nwlChStatStb : Fld := ⟨16, 0x10c, 24, 0x10, 1, 0x4, 8, 1, .ro, 0x0, .any, false⟩
/-- `NWL.CH_STAT.RETRIES` [13:9] -/
def nwlChStatRetries : Fld := ⟨16, 0x10c, 24, 0x10, 1, 0x4, 9, 5, .ro, 0x0, .any, false⟩
/-- `NWL.CH_STAT.VALID` [14:14] -/
def nwlChStatValid : Fld := ⟨16, 0x10c, 24, 0x10, 1, 0x4, 14, 1, .ro, 0x0, .any, false⟩
/-- `NWL.CH_STAT.FS` [15:15] -/
def nwlChStatFs : Fld := ⟨16, 0x10c, 24, 0x10, 1, 0x4, 15, 1, .ro, 0x0, .any, false⟩
/-- `NWL.CH_STAT.SENSE` [27:16] -/
def nwlChStatSense : Fld := ⟨16, 0x10c, 24, 0x10, 1, 0x4, 16, 12, .ro, 0x0, .any, false⟩

def nwlFields0 : List Fld :=
    [nwlLinkUp, nwlLinkPending, nwlLoadCh, nwlLoadOn, nwlLoadGo, nwlDutyCh, nwlDuty, nwlDutyGo, nwlClearCh,
   nwlClearLatches, nwlClearGo, nwlCtrlCode, nwlCtrlGo, nwlOwner, nwlOwnerSetMap, nwlOwnerSetGo, nwlWdCfgPeriod,
   nwlWdCfgLimit, nwlWdCfgRecover, nwlWdCfgSlOnWd, nwlWdCfgWdAuto, nwlWdChalCh, nwlWdChalCnt, nwlWdAns,
   nwlWdStatState, nwlWdStatMisses, nwlWdStatGood, nwlWdStatLast, nwlSlActive, nwlSlCause, nwlSlLh, nwlWkCfgEdge,
   nwlWkCfgFilt, nwlWkStatLevel, nwlWkStatWoke, nwlSupplyVbat, nwlSupplyNtemp, nwlEeAddr, nwlEeData, nwlEeCtlRead]
def nwlFields1 : List Fld :=
    [nwlEeCtlWrite, nwlEeCtlBusy, nwlEeCtlResult, nwlCntCrcRx, nwlCntCrcTx, nwlCntResends, nwlCntNaks, nwlCntLinkLoss,
   nwlCntLinkDrop, nwlCntWdMisses, nwlCntLoadDisagree, nwlChAEn, nwlChAMode, nwlChAPwt, nwlChAFreq, nwlChAPhase,
   nwlChAFs, nwlChAThermAuto, nwlChAOlOffEn, nwlChBFsDuty, nwlChBRetryMax, nwlChBRetryGap, nwlChCWarm, nwlChCInom,
   nwlChCTau, nwlChStatOut, nwlChStatCmd, nwlChStatTherm, nwlChStatOc, nwlChStatWire, nwlChStatOpenOn,
   nwlChStatOpenOff, nwlChStatStb, nwlChStatRetries, nwlChStatValid, nwlChStatFs, nwlChStatSense]
/-- The fields of block NWL. -/
def nwlFields : List Fld := nwlFields0 ++ nwlFields1

/-! ### Block PCI (class 17, 02 Table 2.5) -/

/-- `PCI.LINK.UP` [0:0] -/
def pciLinkUp : Fld := ⟨17, 0x4, 1, 0x4, 1, 0x4, 0, 1, .ro, 0x0, .any, false⟩
/-- `PCI.LINK.SPEED` [3:1] -/
def pciLinkSpeed : Fld := ⟨17, 0x4, 1, 0x4, 1, 0x4, 1, 3, .ro, 0x0, .any, false⟩
/-- `PCI.LINK.WIDTH` [5:4] -/
def pciLinkWidth : Fld := ⟨17, 0x4, 1, 0x4, 1, 0x4, 4, 2, .ro, 0x0, .any, false⟩
/-- `PCI.BAR0_EN.CLASS` [20:0] -/
def pciBar0En : Fld := ⟨17, 0x8, 1, 0x4, 1, 0x4, 0, 21, .rws, 0x6000, .any, false⟩
/-- `PCI.CPL_TMO.US` [15:0] -/
def pciCplTmo : Fld := ⟨17, 0xc, 1, 0x4, 1, 0x4, 0, 16, .rws, 0x2710, (.range 50 50000), false⟩
/-- `PCI.DMA_A.SQ` [5:0] -/
def pciDmaASq : Fld := ⟨17, 0x100, 8, 0x10, 1, 0x4, 0, 6, .rws, 0x0, .any, false⟩
/-- `PCI.DMA_A.CQ` [13:8] -/
def pciDmaACq : Fld := ⟨17, 0x100, 8, 0x10, 1, 0x4, 8, 6, .rws, 0x0, .any, false⟩
/-- `PCI.DMA_A.EN` [31:31] -/
def pciDmaAEn : Fld := ⟨17, 0x100, 8, 0x10, 1, 0x4, 31, 1, .rws, 0x0, .any, false⟩
/-- `PCI.DMA_B.BUSY` [0:0] -/
def pciDmaBBusy : Fld := ⟨17, 0x104, 8, 0x10, 1, 0x4, 0, 1, .ro, 0x0, .any, false⟩
/-- `PCI.DMA_B.ERRORS` [31:16] -/
def pciDmaBErrors : Fld := ⟨17, 0x104, 8, 0x10, 1, 0x4, 16, 16, .rc, 0x0, .any, false⟩
/-- `PCI.VNIC.EN` [0:0] -/
def pciVnicEn : Fld := ⟨17, 0x200, 1, 0x4, 1, 0x4, 0, 1, .rws, 0x0, .any, false⟩
/-- `PCI.VNIC.OWNER` [1:1] -/
def pciVnicOwner : Fld := ⟨17, 0x200, 1, 0x4, 1, 0x4, 1, 1, .rws, 0x0, .any, false⟩
/-- `PCI.TXB_LO.BASE` [31:0] -/
def pciTxbLo : Fld := ⟨17, 0x204, 1, 0x4, 1, 0x4, 0, 32, .rws, 0x0, .any, false⟩
/-- `PCI.TXB_HI.BASE` [31:0] -/
def pciTxbHi : Fld := ⟨17, 0x208, 1, 0x4, 1, 0x4, 0, 32, .rws, 0x0, .any, false⟩
/-- `PCI.RXB_LO.BASE` [31:0] -/
def pciRxbLo : Fld := ⟨17, 0x20c, 1, 0x4, 1, 0x4, 0, 32, .rws, 0x0, .any, false⟩
/-- `PCI.RXB_HI.BASE` [31:0] -/
def pciRxbHi : Fld := ⟨17, 0x210, 1, 0x4, 1, 0x4, 0, 32, .rws, 0x0, .any, false⟩
/-- `PCI.RINGS.TXLOG2` [3:0] -/
def pciRingsTxlog2 : Fld := ⟨17, 0x214, 1, 0x4, 1, 0x4, 0, 4, .rws, 0x4, (.range 4 12), false⟩
/-- `PCI.RINGS.RXLOG2` [11:8] -/
def pciRingsRxlog2 : Fld := ⟨17, 0x214, 1, 0x4, 1, 0x4, 8, 4, .rws, 0x4, (.range 4 12), false⟩
/-- `PCI.RINGS.BUF` [30:16] -/
def pciRingsBuf : Fld := ⟨17, 0x214, 1, 0x4, 1, 0x4, 16, 15, .rws, 0x800, (.steps 256 16384 256), false⟩
/-- `PCI.TX_TAIL.INDEX` [11:0] -/
def pciTxTail : Fld := ⟨17, 0x220, 1, 0x4, 1, 0x4, 0, 12, .rw, 0x0, .any, false⟩
/-- `PCI.TX_HEAD.INDEX` [11:0] -/
def pciTxHead : Fld := ⟨17, 0x224, 1, 0x4, 1, 0x4, 0, 12, .ro, 0x0, .any, false⟩
/-- `PCI.RX_TAIL.INDEX` [11:0] -/
def pciRxTail : Fld := ⟨17, 0x228, 1, 0x4, 1, 0x4, 0, 12, .rw, 0x0, .any, false⟩
/-- `PCI.RX_HEAD.INDEX` [11:0] -/
def pciRxHead : Fld := ⟨17, 0x22c, 1, 0x4, 1, 0x4, 0, 12, .ro, 0x0, .any, false⟩
/-- `PCI.INT_A.RXVEC` [5:0] -/
def pciIntARxvec : Fld := ⟨17, 0x230, 1, 0x4, 1, 0x4, 0, 6, .rws, 0x0, .any, false⟩
/-- `PCI.INT_A.TXVEC` [13:8] -/
def pciIntATxvec : Fld := ⟨17, 0x230, 1, 0x4, 1, 0x4, 8, 6, .rws, 0x0, .any, false⟩
/-- `PCI.INT_A.CORE` [17:16] -/
def pciIntACore : Fld := ⟨17, 0x230, 1, 0x4, 1, 0x4, 16, 2, .rws, 0x0, .any, false⟩
/-- `PCI.INT_B.FRAMES` [7:0] -/
def pciIntBFrames : Fld := ⟨17, 0x234, 1, 0x4, 1, 0x4, 0, 8, .rws, 0x1, (.range 1 255), false⟩
/-- `PCI.INT_B.USEC` [31:16] -/
def pciIntBUsec : Fld := ⟨17, 0x234, 1, 0x4, 1, 0x4, 16, 16, .rws, 0x0, .any, false⟩
/-- `PCI.VCNT.TX_BAD` [15:0] -/
def pciVcntTxBad : Fld := ⟨17, 0x240, 1, 0x4, 1, 0x4, 0, 16, .rc, 0x0, .any, false⟩
/-- `PCI.VCNT.RX_TOOLONG` [31:16] -/
def pciVcntRxToolong : Fld := ⟨17, 0x240, 1, 0x4, 1, 0x4, 16, 16, .rc, 0x0, .any, false⟩

def pciFields0 : List Fld :=
    [pciLinkUp, pciLinkSpeed, pciLinkWidth, pciBar0En, pciCplTmo, pciDmaASq, pciDmaACq, pciDmaAEn, pciDmaBBusy,
   pciDmaBErrors, pciVnicEn, pciVnicOwner, pciTxbLo, pciTxbHi, pciRxbLo, pciRxbHi, pciRingsTxlog2, pciRingsRxlog2,
   pciRingsBuf, pciTxTail, pciTxHead, pciRxTail, pciRxHead, pciIntARxvec, pciIntATxvec, pciIntACore, pciIntBFrames,
   pciIntBUsec, pciVcntTxBad, pciVcntRxToolong]
/-- The fields of block PCI. -/
def pciFields : List Fld := pciFields0

/-! ### Block UPD (class 18, 02 Table 2.5) -/

/-- `UPD.CTL.OP` [3:0] -/
def updCtlOp : Fld := ⟨18, 0x4, 1, 0x4, 1, 0x4, 0, 4, .wo, 0x0, .any, false⟩
/-- `UPD.CTL.GO` [31:31] -/
def updCtlGo : Fld := ⟨18, 0x4, 1, 0x4, 1, 0x4, 31, 1, .wo, 0x0, .any, false⟩
/-- `UPD.STAT.STATE` [2:0] -/
def updStatState : Fld := ⟨18, 0x8, 1, 0x4, 1, 0x4, 0, 3, .ro, 0x0, .any, false⟩
/-- `UPD.STAT.RESULT` [11:4] -/
def updStatResult : Fld := ⟨18, 0x8, 1, 0x4, 1, 0x4, 4, 8, .ro, 0x0, .any, false⟩
/-- `UPD.STAT.FAIL` [19:16] -/
def updStatFail : Fld := ⟨18, 0x8, 1, 0x4, 1, 0x4, 16, 4, .ro, 0x0, .any, false⟩
/-- `UPD.STAT.BUSY` [24:24] -/
def updStatBusy : Fld := ⟨18, 0x8, 1, 0x4, 1, 0x4, 24, 1, .ro, 0x0, .any, false⟩
/-- `UPD.SRC.ADDR` [31:2] -/
def updSrc : Fld := ⟨18, 0xc, 1, 0x4, 1, 0x4, 2, 30, .rw, 0x4000000, .any, false⟩
/-- `UPD.PROG.UNIT` [12:0] -/
def updProgUnit : Fld := ⟨18, 0x10, 1, 0x4, 1, 0x4, 0, 13, .rw, 0x0, .any, false⟩
/-- `UPD.PROG.TARGET` [17:16] -/
def updProgTarget : Fld := ⟨18, 0x10, 1, 0x4, 1, 0x4, 16, 2, .rw, 0x0, .any, false⟩
/-- `UPD.PROG.GO` [31:31] -/
def updProgGo : Fld := ⟨18, 0x10, 1, 0x4, 1, 0x4, 31, 1, .wo, 0x0, .any, false⟩
/-- `UPD.NEXT.UNIT` [13:0] -/
def updNext : Fld := ⟨18, 0x14, 1, 0x4, 1, 0x4, 0, 14, .ro, 0x0, .any, false⟩
/-- `UPD.HDR_ID.ID` [31:0] -/
def updHdrId : Fld := ⟨18, 0x18, 1, 0x4, 1, 0x4, 0, 32, .ro, 0x0, .any, false⟩
/-- `UPD.ACT.TRIES` [2:0] -/
def updActTries : Fld := ⟨18, 0x1c, 1, 0x4, 1, 0x4, 0, 3, .rw, 0x3, (.range 1 7), false⟩
/-- `UPD.ACT.TRIAL_S` [31:16] -/
def updActTrialS : Fld := ⟨18, 0x1c, 1, 0x4, 1, 0x4, 16, 16, .rw, 0x258, .any, false⟩
/-- `UPD.BANK.ACTIVE` [0:0] -/
def updBankActive : Fld := ⟨18, 0x20, 1, 0x4, 1, 0x4, 0, 1, .ro, 0x0, .any, false⟩
/-- `UPD.BANK.TRIAL` [1:1] -/
def updBankTrial : Fld := ⟨18, 0x20, 1, 0x4, 1, 0x4, 1, 1, .ro, 0x0, .any, false⟩
/-- `UPD.BANK.TRIES` [4:2] -/
def updBankTries : Fld := ⟨18, 0x20, 1, 0x4, 1, 0x4, 2, 3, .ro, 0x0, .any, false⟩
/-- `UPD.BANK.SET_CUR` [5:5] -/
def updBankSetCur : Fld := ⟨18, 0x20, 1, 0x4, 1, 0x4, 5, 1, .ro, 0x0, .any, false⟩
/-- `UPD.BANK.SET_OLD` [6:6] -/
def updBankSetOld : Fld := ⟨18, 0x20, 1, 0x4, 1, 0x4, 6, 1, .ro, 0x0, .any, false⟩
/-- `UPD.TRIAL.LEFT` [15:0] -/
def updTrial : Fld := ⟨18, 0x24, 1, 0x4, 1, 0x4, 0, 16, .ro, 0x0, .any, false⟩
/-- `UPD.FUSE.COUNT` [6:0] -/
def updFuse : Fld := ⟨18, 0x28, 1, 0x4, 1, 0x4, 0, 7, .ro, 0x0, .any, false⟩
/-- `UPD.CNT_UNITS.COUNT` [31:0] -/
def updCntUnits : Fld := ⟨18, 0x30, 1, 0x4, 1, 0x4, 0, 32, .rc, 0x0, .any, true⟩
/-- `UPD.CNT_REFUSED.COUNT` [31:0] -/
def updCntRefused : Fld := ⟨18, 0x34, 1, 0x4, 1, 0x4, 0, 32, .rc, 0x0, .any, false⟩
/-- `UPD.CNT_FALLBACKS.COUNT` [31:0] -/
def updCntFallbacks : Fld := ⟨18, 0x38, 1, 0x4, 1, 0x4, 0, 32, .rc, 0x0, .any, false⟩

def updFields0 : List Fld :=
    [updCtlOp, updCtlGo, updStatState, updStatResult, updStatFail, updStatBusy, updSrc, updProgUnit, updProgTarget,
   updProgGo, updNext, updHdrId, updActTries, updActTrialS, updBankActive, updBankTrial, updBankTries, updBankSetCur,
   updBankSetOld, updTrial, updFuse, updCntUnits, updCntRefused, updCntFallbacks]
/-- The fields of block UPD. -/
def updFields : List Fld := updFields0

/-! ### Block PRT (class 19, 02 Table 2.5) -/

/-- `PRT.UNLOCK.KEY` [15:0] -/
def prtUnlock : Fld := ⟨19, 0x4, 1, 0x4, 1, 0x4, 0, 16, .wo, 0x0, .any, false⟩
/-- `PRT.STAT.OPEN` [0:0] -/
def prtStatOpen : Fld := ⟨19, 0x8, 1, 0x4, 1, 0x4, 0, 1, .ro, 0x0, .any, false⟩
/-- `PRT.STAT.FUSED` [1:1] -/
def prtStatFused : Fld := ⟨19, 0x8, 1, 0x4, 1, 0x4, 1, 1, .ro, 0x0, .any, false⟩
/-- `PRT.STAT.DENIED` [31:16] -/
def prtStatDenied : Fld := ⟨19, 0x8, 1, 0x4, 1, 0x4, 16, 16, .rc, 0x0, .any, false⟩
/-- `PRT.RELOCK.GO` [31:31] -/
def prtRelock : Fld := ⟨19, 0xc, 1, 0x4, 1, 0x4, 31, 1, .wo, 0x0, .any, false⟩
/-- `PRT.QCFG_A.EN` [0:0] -/
def prtQcfgAEn : Fld := ⟨19, 0x20, 1, 0x4, 1, 0x4, 0, 1, .rws, 0x0, .any, false⟩
/-- `PRT.QCFG_A.DROPS` [31:16] -/
def prtQcfgADrops : Fld := ⟨19, 0x20, 1, 0x4, 1, 0x4, 16, 16, .rws, 0x64, (.range 1 65535), false⟩
/-- `PRT.QCFG_B.WIN` [15:0] -/
def prtQcfgBWin : Fld := ⟨19, 0x24, 1, 0x4, 1, 0x4, 0, 16, .rws, 0x3e8, (.range 1 65535), false⟩
/-- `PRT.QCFG_B.HOLD` [31:16] -/
def prtQcfgBHold : Fld := ⟨19, 0x24, 1, 0x4, 1, 0x4, 16, 16, .rws, 0x2710, (.range 1 65535), false⟩
/-- `PRT.QT_A.HANDLE` [15:0] -/
def prtQtAHandle : Fld := ⟨19, 0x40, 16, 0x8, 1, 0x4, 0, 16, .ro, 0x0, .any, false⟩
/-- `PRT.QT_A.CHAN` [21:16] -/
def prtQtAChan : Fld := ⟨19, 0x40, 16, 0x8, 1, 0x4, 16, 6, .ro, 0x0, .any, false⟩
/-- `PRT.QT_A.STATE` [25:24] -/
def prtQtAState : Fld := ⟨19, 0x40, 16, 0x8, 1, 0x4, 24, 2, .ro, 0x0, .any, false⟩
/-- `PRT.QT_A.RELEASE` [31:31] -/
def prtQtARelease : Fld := ⟨19, 0x40, 16, 0x8, 1, 0x4, 31, 1, .wo, 0x0, .any, false⟩
/-- `PRT.QT_B.DROPS` [31:0] -/
def prtQtB : Fld := ⟨19, 0x44, 16, 0x8, 1, 0x4, 0, 32, .rc, 0x0, .any, false⟩
/-- `PRT.VCNT_MALFORMED_1722.COUNT` [31:0] -/
def prtVcntMalformed1722 : Fld := ⟨19, 0xc0, 1, 0x4, 1, 0x4, 0, 32, .rc, 0x0, .any, false⟩
/-- `PRT.VCNT_PLCA_YIELD.COUNT` [31:0] -/
def prtVcntPlcaYield : Fld := ⟨19, 0xc4, 1, 0x4, 1, 0x4, 0, 32, .rc, 0x0, .any, false⟩
/-- `PRT.VCNT_QT_FULL.COUNT` [31:0] -/
def prtVcntQtFull : Fld := ⟨19, 0xc8, 1, 0x4, 1, 0x4, 0, 32, .rc, 0x0, .any, false⟩
/-- `PRT.PORT_A.DELAY` [15:0] -/
def prtPortADelay : Fld := ⟨19, 0x100, 29, 0x10, 1, 0x4, 0, 16, .rws, 0x0, (.range 0 65000), false⟩
/-- `PRT.PORT_A.FCS_EG` [16:16] -/
def prtPortAFcsEg : Fld := ⟨19, 0x100, 29, 0x10, 1, 0x4, 16, 1, .rws, 0x0, .any, false⟩
/-- `PRT.PORT_B.BP_ON` [15:0] -/
def prtPortBBpOn : Fld := ⟨19, 0x104, 29, 0x10, 1, 0x4, 0, 16, .rws, 0x0, .any, false⟩
/-- `PRT.PORT_B.BP_OFF` [31:16] -/
def prtPortBBpOff : Fld := ⟨19, 0x104, 29, 0x10, 1, 0x4, 16, 16, .rws, 0x0, .any, false⟩
/-- `PRT.PORT_C.DROP_N` [15:0] -/
def prtPortCDropN : Fld := ⟨19, 0x108, 29, 0x10, 1, 0x4, 0, 16, .rws, 0x0, .any, false⟩
/-- `PRT.PORT_C.FCS_N` [31:16] -/
def prtPortCFcsN : Fld := ⟨19, 0x108, 29, 0x10, 1, 0x4, 16, 16, .rws, 0x0, .any, false⟩
/-- `PRT.PORT_D.INJ_DROP` [15:0] -/
def prtPortDInjDrop : Fld := ⟨19, 0x10c, 29, 0x10, 1, 0x4, 0, 16, .rc, 0x0, .any, false⟩
/-- `PRT.PORT_D.INJ_FCS` [31:16] -/
def prtPortDInjFcs : Fld := ⟨19, 0x10c, 29, 0x10, 1, 0x4, 16, 16, .rc, 0x0, .any, false⟩
/-- `PRT.CAN_A.BIT` [9:0] -/
def prtCanABit : Fld := ⟨19, 0x400, 32, 0x10, 1, 0x4, 0, 10, .rws, 0x0, .any, false⟩
/-- `PRT.CAN_A.MODE` [11:10] -/
def prtCanAMode : Fld := ⟨19, 0x400, 32, 0x10, 1, 0x4, 10, 2, .rws, 0x0, .any, false⟩
/-- `PRT.CAN_A.ARM` [12:12] -/
def prtCanAArm : Fld := ⟨19, 0x400, 32, 0x10, 1, 0x4, 12, 1, .wo, 0x0, .any, false⟩
/-- `PRT.CAN_B.ID` [28:0] -/
def prtCanBId : Fld := ⟨19, 0x404, 32, 0x10, 1, 0x4, 0, 29, .rws, 0x0, .any, false⟩
/-- `PRT.CAN_B.IDE` [29:29] -/
def prtCanBIde : Fld := ⟨19, 0x404, 32, 0x10, 1, 0x4, 29, 1, .rws, 0x0, .any, false⟩
/-- `PRT.CAN_C.INJ` [15:0] -/
def prtCanC : Fld := ⟨19, 0x408, 32, 0x10, 1, 0x4, 0, 16, .rc, 0x0, .any, false⟩
/-- `PRT.STW_A.EVERY` [15:0] -/
def prtStwAEvery : Fld := ⟨19, 0x600, 1, 0x4, 1, 0x4, 0, 16, .rws, 0x0, .any, false⟩
/-- `PRT.STW_A.BURST` [23:16] -/
def prtStwABurst : Fld := ⟨19, 0x600, 1, 0x4, 1, 0x4, 16, 8, .rws, 0x1, (.range 1 255), false⟩
/-- `PRT.STW_B.LANES` [7:0] -/
def prtStwB : Fld := ⟨19, 0x604, 1, 0x4, 1, 0x4, 0, 8, .rws, 0x0, .any, false⟩
/-- `PRT.STW_C.INJ` [31:0] -/
def prtStwC : Fld := ⟨19, 0x608, 1, 0x4, 1, 0x4, 0, 32, .rc, 0x0, .any, false⟩
/-- `PRT.CUEJ_A.FIRST` [9:0] -/
def prtCuejAFirst : Fld := ⟨19, 0x610, 1, 0x4, 1, 0x4, 0, 10, .rws, 0x0, .any, false⟩
/-- `PRT.CUEJ_A.LAST` [25:16] -/
def prtCuejALast : Fld := ⟨19, 0x610, 1, 0x4, 1, 0x4, 16, 10, .rws, 0x0, .any, false⟩
/-- `PRT.CUEJ_B.JIT` [15:0] -/
def prtCuejBJit : Fld := ⟨19, 0x614, 1, 0x4, 1, 0x4, 0, 16, .rws, 0x0, .any, false⟩
/-- `PRT.CUEJ_B.SEED` [31:16] -/
def prtCuejBSeed : Fld := ⟨19, 0x614, 1, 0x4, 1, 0x4, 16, 16, .rws, 0xace1, (.range 1 65535), false⟩
/-- `PRT.EVD.DELAY` [15:0] -/
def prtEvdDelay : Fld := ⟨19, 0x620, 4, 0x4, 1, 0x4, 0, 16, .rws, 0x0, .any, false⟩
/-- `PRT.EVD.ENTRY` [23:16] -/
def prtEvdEntry : Fld := ⟨19, 0x620, 4, 0x4, 1, 0x4, 16, 8, .rws, 0x0, .any, false⟩
/-- `PRT.EVD.ALL` [24:24] -/
def prtEvdAll : Fld := ⟨19, 0x620, 4, 0x4, 1, 0x4, 24, 1, .rws, 0x0, .any, false⟩
/-- `PRT.WD.KIND` [1:0] -/
def prtWdKind : Fld := ⟨19, 0x640, 1, 0x4, 1, 0x4, 0, 2, .rws, 0x0, (.range 0 2), false⟩
/-- `PRT.WD.LEFT` [15:8] -/
def prtWdLeft : Fld := ⟨19, 0x640, 1, 0x4, 1, 0x4, 8, 8, .ro, 0x0, .any, false⟩
/-- `PRT.WD.N` [23:16] -/
def prtWdN : Fld := ⟨19, 0x640, 1, 0x4, 1, 0x4, 16, 8, .wo, 0x0, .any, false⟩

def prtFields0 : List Fld :=
    [prtUnlock, prtStatOpen, prtStatFused, prtStatDenied, prtRelock, prtQcfgAEn, prtQcfgADrops, prtQcfgBWin,
   prtQcfgBHold, prtQtAHandle, prtQtAChan, prtQtAState, prtQtARelease, prtQtB, prtVcntMalformed1722, prtVcntPlcaYield,
   prtVcntQtFull, prtPortADelay, prtPortAFcsEg, prtPortBBpOn, prtPortBBpOff, prtPortCDropN, prtPortCFcsN,
   prtPortDInjDrop, prtPortDInjFcs, prtCanABit, prtCanAMode, prtCanAArm, prtCanBId, prtCanBIde, prtCanC, prtStwAEvery,
   prtStwABurst, prtStwB, prtStwC, prtCuejAFirst, prtCuejALast, prtCuejBJit, prtCuejBSeed, prtEvdDelay]
def prtFields1 : List Fld :=
  [prtEvdEntry, prtEvdAll, prtWdKind, prtWdLeft, prtWdN]
/-- The fields of block PRT. -/
def prtFields : List Fld := prtFields0 ++ prtFields1

/-! ### Block EVT (class 20, 02 Table 2.5) -/

/-- `EVT.DROP.COUNT` [31:0] -/
def evtDrop : Fld := ⟨20, 0x4, 3, 0x4, 1, 0x4, 0, 32, .rc, 0x0, .any, false⟩
/-- `EVT.LOG_BASE.BASE` [21:4] -/
def evtLogBase : Fld := ⟨20, 0x10, 1, 0x4, 1, 0x4, 4, 18, .rw, 0x0, .any, false⟩
/-- `EVT.LOG_CFG.LOG2N` [4:0] -/
def evtLogCfgLog2n : Fld := ⟨20, 0x14, 1, 0x4, 1, 0x4, 0, 5, .rw, 0xa, (.range 6 16), false⟩
/-- `EVT.LOG_CFG.EN` [8:8] -/
def evtLogCfgEn : Fld := ⟨20, 0x14, 1, 0x4, 1, 0x4, 8, 1, .rw, 0x0, .any, false⟩
/-- `EVT.LOG_CFG.STOP` [9:9] -/
def evtLogCfgStop : Fld := ⟨20, 0x14, 1, 0x4, 1, 0x4, 9, 1, .rw, 0x0, .any, false⟩
/-- `EVT.LOG_CFG.TEN` [10:10] -/
def evtLogCfgTen : Fld := ⟨20, 0x14, 1, 0x4, 1, 0x4, 10, 1, .rw, 0x0, .any, false⟩
/-- `EVT.LOG_TRIG.CODE` [15:0] -/
def evtLogTrigCode : Fld := ⟨20, 0x18, 1, 0x4, 1, 0x4, 0, 16, .rw, 0x0, .any, false⟩
/-- `EVT.LOG_TRIG.POST` [31:16] -/
def evtLogTrigPost : Fld := ⟨20, 0x18, 1, 0x4, 1, 0x4, 16, 16, .rw, 0x100, .any, false⟩
/-- `EVT.LOG_STAT.STOPPED` [0:0] -/
def evtLogStatStopped : Fld := ⟨20, 0x1c, 1, 0x4, 1, 0x4, 0, 1, .ro, 0x0, .any, false⟩
/-- `EVT.LOG_STAT.TRIGGERED` [1:1] -/
def evtLogStatTriggered : Fld := ⟨20, 0x1c, 1, 0x4, 1, 0x4, 1, 1, .ro, 0x0, .any, false⟩
/-- `EVT.LOG_LOST.COUNT` [31:0] -/
def evtLogLost : Fld := ⟨20, 0x20, 1, 0x4, 1, 0x4, 0, 32, .rc, 0x0, .any, false⟩
/-- `EVT.CE.COUNT` [31:0] -/
def evtCe : Fld := ⟨20, 0x40, 10, 0x4, 1, 0x4, 0, 32, .rc, 0x0, .any, false⟩
/-- `EVT.UE.COUNT` [31:0] -/
def evtUe : Fld := ⟨20, 0x80, 10, 0x4, 1, 0x4, 0, 32, .rc, 0x0, .any, false⟩
/-- `EVT.ROUTE.QB` [5:0] -/
def evtRouteQb : Fld := ⟨20, 0x100, 21, 0x4, 1, 0x4, 0, 6, .rw, 0x0, .any, false⟩
/-- `EVT.ROUTE.HOST` [8:8] -/
def evtRouteHost : Fld := ⟨20, 0x100, 21, 0x4, 1, 0x4, 8, 1, .rw, 0x0, .any, false⟩
/-- `EVT.ROUTE.LOG` [9:9] -/
def evtRouteLog : Fld := ⟨20, 0x100, 21, 0x4, 1, 0x4, 9, 1, .rw, 0x1, .any, false⟩
/-- `EVT.ROUTE.PCI` [10:10] -/
def evtRoutePci : Fld := ⟨20, 0x100, 21, 0x4, 1, 0x4, 10, 1, .rw, 0x0, .any, false⟩
/-- `EVT.ROUTE.REMOTE` [11:11] -/
def evtRouteRemote : Fld := ⟨20, 0x100, 21, 0x4, 1, 0x4, 11, 1, .rw, 0x0, .any, false⟩
/-- `EVT.RESET_LOSS.COUNT` [31:0] -/
def evtResetLoss : Fld := ⟨20, 0x200, 21, 0x4, 1, 0x4, 0, 32, .rc, 0x0, .any, false⟩

def evtFields0 : List Fld :=
    [evtDrop, evtLogBase, evtLogCfgLog2n, evtLogCfgEn, evtLogCfgStop, evtLogCfgTen, evtLogTrigCode, evtLogTrigPost,
   evtLogStatStopped, evtLogStatTriggered, evtLogLost, evtCe, evtUe, evtRouteQb, evtRouteHost, evtRouteLog,
   evtRoutePci, evtRouteRemote, evtResetLoss]
/-- The fields of block EVT. -/
def evtFields : List Fld := evtFields0

/-- The fields of the block of class `b` (02 Table 2.5, R53). -/
def blockFields (b : Nat) : List Fld :=
  match b with
  | 0 => sysFields
  | 1 => pwrFields
  | 2 => canFields
  | 3 => linFields
  | 4 => ethFields
  | 5 => swcFields
  | 6 => fwtFields
  | 7 => fkeFields
  | 8 => galFields
  | 9 => brgFields
  | 10 => timFields
  | 11 => cipFields
  | 12 => drkFields
  | 13 => mbxFields
  | 14 => qbkFields
  | 15 => stwFields
  | 16 => nwlFields
  | 17 => pciFields
  | 18 => updFields
  | 19 => prtFields
  | 20 => evtFields
  | _ => []

end Sys2Proof.Machine
end

