-- ==== Sys2Proof/Machine/State.lean ====
section
/-! DEFINITION. Machine/State.lean: the state of the PVZ-96 as plain data. A register field lives in the register file of
its die (`regs`, with the staged copies in `staged`); what the register tables do not show (queues, memories, contexts,
units at work) has fields of its own. Every field's reset value stands in its structure's default or in `State.reset`. -/

namespace Sys2Proof.Machine

/-- Response statuses (02 Table 2.2). -/
inductive Status where
  | okay
  | decodeError
  | secureViolation
  | sizeError
  | hallAsleep
  | clusterFenced
  | timeout
  | linkDown
  deriving DecidableEq, Repr

/-- The code of a status (02 Table 2.2). -/
def Status.code (s : Status) : Nat :=
  match s with
  | .okay => 0
  | .decodeError => 1
  | .secureViolation => 2
  | .sizeError => 3
  | .hallAsleep => 4
  | .clusterFenced => 5
  | .timeout => 6
  | .linkDown => 7

/-- The completion of an access: its status and, for a read, its value (02 R39). -/
structure Resp where
  status : Status := .okay
  value  : Nat := 0
  deriving DecidableEq, Repr

/-- An event record in the router (02 Table 2.14); `remote` marks a record that arrived over the Stairwell. -/
structure EvRec where
  code   : Nat
  id     : Nat := 0
  sec    : Bool := false
  die    : Nat := 0
  addrHi : Nat := 0
  info   : Nat := 0
  stamp  : Nat := 0
  seq    : Nat := 0
  unit   : Nat := 0
  remote : Bool := false
  deriving DecidableEq, Repr

/-- Where a frame of the engines comes from: an Ethernet frame, a CAN or LIN image (03 Table 3.5), or one that `fnew`
made, whose kind its emit decides. -/
inductive FrameKind where
  | eth
  | can
  | lin
  | made
  deriving DecidableEq, Repr

/-- A frame in the frame space of an engine (03 R66): its bytes in the engine view, its kind, the ingress port or channel
that brought it, its ingress stamp and position, the bytes it arrived with, the set it is tagged with, the descriptor of
the packet buffer it holds, its VID, priority and stream handle, and its origin tag (12 R328). -/
structure EFrame where
  bytes  : List Byte
  kind   : FrameKind
  ingress : Nat := 0
  stamp  : Nat := 0
  pos    : Nat := 0
  orig   : List Byte := []
  tag    : Nat := 0
  desc   : Option Nat := none
  vid    : Nat := 0
  prio   : Nat := 0
  handle : Option Nat := none
  origin : Nat := 0
  deriving DecidableEq, Repr

/-- An event in a cluster's event queue (03 R56): its type, handler-table entry, source, operands and frame; the flow key
of Table 3.1, the set it is tagged with, and the instant from which it may be dispatched (17 R441). -/
structure EngEvent where
  typ     : Nat
  entry   : Nat
  cls     : Nat
  unit    : Nat
  w1      : Nat := 0
  w2      : Nat := 0
  frame   : Option EFrame := none
  key     : List Byte := []
  tag     : Nat := 0
  readyAt : Nat := 0
  origin  : Nat := 0
  deriving DecidableEq, Repr

/-- One of the four lookup tags of a context (03 R68). -/
inductive LkpTag where
  | free
  | busy (table : Nat) (key : List Nat)
  | done (hit : Bool) (w0 w1 : Word)
  | asleep
  deriving DecidableEq, Repr

/-- What a context does (03 R55): `waitPost` and `waitTime` are the two waits of R108, `stalled` waits for the result of
a Gallery atomic, `ending` has executed `end` and waits for R61. -/
inductive CtxState where
  | free
  | ready
  | stalled
  | waitPost
  | waitTime (deadline : Word)
  | ending
  deriving DecidableEq, Repr

/-- A hardware context (03 R55, Table 3.2; 04 Table 4.1). Frames are known by their descriptor number; the 32-bit value
of a descriptor is `Config.descriptor` of the number. -/
structure Context where
  state  : CtxState := .free
  w      : Vector Word 16 := Vector.replicate 16 0
  pc     : BitVec 15 := 0
  lk     : BitVec 15 := 0
  cur    : BitVec 16 := 0
  fd     : Option Nat := none
  ev     : Word := 0
  st     : BitVec 16 := 0
  fl     : BitVec 16 := 0
  held   : List (Nat × EFrame) := []
  arrived : Option Nat := none
  tags   : Vector LkpTag 4 := Vector.replicate 4 .free
  count  : Nat := 0
  entry  : Nat := 0
  tag    : Nat := 0
  since  : Nat := 0
  lock   : Option Nat := none
  relReq : Bool := false
  released : Bool := false
  emits  : Nat := 0
  yields : List Nat := []
  cls    : Nat := 0
  unit   : Nat := 0
  origin : Nat := 0
  deriving DecidableEq, Repr

/-- An engine cluster (03 R55): its event queue, the holders of its flow locks, its fence and its arbiter's pointer. -/
structure Cluster where
  evq    : List EngEvent := []
  locks  : Tab Nat := []
  fenced : Bool := false
  ptr    : Nat := 0
  deriving DecidableEq, Repr

/-- An armed engine timer (03 R73). -/
structure ETimer where
  deadline : Word
  entry    : Nat
  cluster  : Nat
  deriving DecidableEq, Repr

/-- The engines of a die (chapter 3): contexts under 4·engine + context, clusters, timers, code words under
32,768·cluster + index, data memories under 16,384·engine + offset, the next descriptor number, and the consumed counter
of P_27 (R71). -/
structure EngState where
  ctxs    : Tab Context := []
  cls     : Vector Cluster 4 := Vector.replicate 4 {}
  timers  : Tab ETimer := []
  code    : Tab Word := []
  data    : Memory := []
  nextFd  : Nat := 0
  consumed : Nat := 0
  deriving DecidableEq, Repr

/-- The event router (02 R54, R462): the next SEQ, the last raise of each held-off event and scope, the PCIe event
queue, and the log ring's count of records and of records after the trigger (17 R437). -/
structure EvtState where
  seq     : Nat := 0
  holdoff : Tab Nat := []
  pciq    : List EvRec := []
  logCnt  : Nat := 0
  logPost : Nat := 0
  deriving DecidableEq, Repr

/-- A clock or angle base (10 Table 10.1): seconds, nanoseconds, the 32-bit accumulator fraction, the steps and the set
that wait for the next clock (R259), the period count and the angle of an angle base. -/
structure TBase where
  sec   : Nat := 0
  ns    : Nat := 0
  frac  : Nat := 0
  step  : List Int := []
  set   : Option (Nat × Nat) := none
  count : Nat := 0
  angle : Nat := 0
  deriving DecidableEq, Repr

/-- An access that its requester still waits for (02 R40): it went over the Stairwell. `tag` is its number. -/
structure PendAcc where
  req   : Requester
  addr  : Nat
  write : Bool
  since : Nat
  tag   : Nat
  timedOut : Bool := false
  deriving DecidableEq, Repr

/-- The register bus of a die: the completion of the last access it performed, the pointer of the semaphore arbiter
(02 R46), and the accesses whose response is outstanding. -/
structure BusState where
  resp    : Resp := {}
  semPtr  : Nat := 0
  waiting : List PendAcc := []
  nextTag : Nat := 0
  deriving DecidableEq, Repr

/-- The queue blocks and mailboxes of a die (chapter 13): queue RAM words, the instants at which stale timers started
(under the queue block), the words of each mailbox direction (under 2·mailbox, AB, and 2·mailbox + 1, BA) and the instants
at which drain timers started; host SRAM; the MSI-X vectors sent; the instant at which MTIME was 0 (R347); whether the
host complex is fenced (R345). -/
structure HostState where
  qram   : Tab Word := []
  stale  : Tab Nat := []
  mbx    : Tab (List Word) := []
  drain  : Tab Nat := []
  sram   : Memory := []
  msix   : List Nat := []
  mtBase : Nat := 0
  fenced : Bool := false
  deriving DecidableEq, Repr

/-! ### Field buses (chapter 6) -/

/-- A frame in a CAN transmit queue (06 R156): its source (0 route, 1 engine, 2 message buffer, 3 time master, 4 host
record), a host record's tag, the message buffer or time-reference role (1 Sync, 2 Follow-up) it comes from, its entry
instant, the set it is tagged with, retransmissions used, its first start of frame, the start-of-frame stamp and whole
position of the running attempt, its origin tag (12 R328), and whether it is on the wire. `eligible` is the instant from
which it may be offered (12 R337). -/
structure TxEntry where
  frame    : BusFrame
  src      : Nat
  hostTag  : Word := 0
  buf      : Nat := 0
  role     : Nat := 0
  entered  : Nat := 0
  tag      : Nat := 0
  tries    : Nat := 0
  firstSof : Option Nat := none
  sofStamp : Nat := 0
  sofPos   : Nat := 0
  origin   : Nat := 0
  wire     : Bool := false
  eligible : Option Nat := some 0
  deriving DecidableEq, Repr

/-- A CAN channel: its transmit queue, a sleep request that waits for bus idle (R165), bus-off entry and recovery (R163),
the last whole millisecond at which its time master queued a Sync (R167). -/
structure CanChan where
  q          : List TxEntry := []
  sleepReq   : Bool := false
  recovering : Bool := false
  boffAt     : Nat := 0
  lastSync   : Nat := 0
  deriving DecidableEq, Repr

/-- A LIN frame in progress (R173 to R176): its identifier, whether the channel publishes the response or subscribes to
it, the response it sends, the set it is tagged with, whether it is the go-to-sleep command (R177), and the response's origin
tag. -/
structure LinCur where
  id   : Nat
  pub  : Bool
  data : List Byte := []
  tag  : Nat := 0
  gts  : Bool := false
  origin : Nat := 0
  deriving DecidableEq, Repr

/-- A LIN channel: live response buffers by identifier, identifiers whose live buffer changed since a break last took its
response, the frame in progress, the last bus activity, the instant from which headers are accepted after a wake, a go-to-sleep
command that waits, the end of a wake pulse it drives, origin tags of live responses, and the responses that wait for
their vote: 0 without a digest yet, else one more than the position from which they are eligible (12 R337). -/
structure LinChan where
  live     : Tab (List Byte) := []
  unsent   : List Nat := []
  cur      : Option LinCur := none
  active   : Nat := 0
  wakeAt   : Option Nat := none
  gts      : Bool := false
  pulseEnd : Nat := 0
  tags     : Tab Nat := []
  waits    : Tab Nat := []
  deriving DecidableEq, Repr

/-! ### The Gallery and the direct routes (chapter 5) -/

/-- A signal slot (05 Table 5.1). -/
structure Slot where
  value  : Word := 0
  stamp  : Word := 0
  seq    : Nat := 0
  status : Nat := 0
  source : Nat := 0
  subh   : Nat := 0
  prof   : Nat := 0
  deriving DecidableEq, Repr

/-- What a Gallery write does: a put or group write with one stamp (an import sets its own status), an atomic add, or a
compare-and-swap; the last two return the old value to a register. -/
inductive GalOp where
  | put (vals : List Word) (stamp : Word) (status : Nat)
  | add (rd : Nat) (addend : Word)
  | cas (rd : Nat) (old new : Word)
  deriving DecidableEq, Repr

/-- The bus access that a host put is: its requester, its address, its number, whether it is posted (05 R119). -/
structure HostPut where
  req    : Requester
  addr   : Nat := 0
  tag    : Nat := 0
  posted : Bool := false
  deriving DecidableEq, Repr

/-- A Gallery write on its way: its arbiter position (04 R98), the SOURCE it records, the slot it starts at, what it does,
the context that issued it, or the requester whose put or group it is (`group`: through the group port), and the origin tag
of its cause (12 R328). -/
structure GalReq where
  pos    : Nat
  source : Nat
  handle : Nat
  op     : GalOp
  ctx    : Option Nat := none
  host   : Option HostPut := none
  group  : Bool := false
  origin : Nat := 0
  deriving DecidableEq, Repr

/-- The Gallery: slots, staged bindings in staging order (R114), the requests at the eight arbiter positions, the write
pipeline, the arbiter's pointer and freshness deadlines (R122). -/
structure GalState where
  slots    : Tab Slot := []
  bind     : List (Nat × Nat) := []
  req      : List GalReq := []
  pipe     : List GalReq := []
  ptr      : Nat := 0
  deadline : Tab Nat := []
  deriving DecidableEq, Repr

/-- A frame in the route pipeline (05 R132): its ingress channel as WIN_c numbers it, the frame and its ingress stamp, a
handle that the stream map has already given, whether it is a 1722 message and the time base of its stamp then, its set and
origin tag. -/
structure RFrame where
  ch     : Nat
  frame  : BusFrame
  stamp  : Nat
  pos    : Nat := 0
  handle : Option Nat := none
  from1722 : Bool := false
  tb     : Nat := 0
  tag    : Nat := 0
  origin : Nat := 0
  deriving DecidableEq, Repr

/-- A message held by a talker (R134): its channel, its frame as sent, the position of the talker's base at its ingress, its
origin tag. -/
structure TkMsg where
  ch     : Nat
  frame  : BusFrame
  pos    : Nat
  origin : Nat := 0
  deriving DecidableEq, Repr

/-- A talker's held messages and the instant of the first. -/
structure Talker where
  msgs  : List TkMsg := []
  first : Nat := 0
  tag   : Nat := 0
  deriving DecidableEq, Repr

/-- The direct routes: the input FIFO, the start instants of token timing (R131), talkers, and the last sequence numbers
of stream-map and import entries. -/
structure RouteState where
  fifo    : List RFrame := []
  bucket  : Tab Nat := []
  talkers : Tab Talker := []
  smLast  : Tab Nat := []
  spiLast : Tab Nat := []
  deriving DecidableEq, Repr

/-! ### Ethernet ports and the switch core (chapters 7 to 9) -/

/-- A frame stored in the packet buffer (08 R205): its bytes without FCS, the port and pool its cells are charged to, its
cells, the number of its copies, the port it was received on, its length on the wire (07 R182; 0: as its bytes say), receive
stamp (whole position and 32-bit stamp), VID, priority and traffic class (`edit`: the lookup gave them, 09 R234), whether
egress sets DEI (R226), stream handle, sequence number for an R-TAG, engine selector, set, transmit-stamp request (source 0
emit or 1 host, and key), whether MACsec validated it, its origin tag, whether P_27 no longer receives it (03 R77), and the
context whose emit it is while the emit has not reached its ordering point (03 R61: 2·context, plus 1 for an emit after
`rel`). -/
structure SFrame where
  bytes  : List Byte
  port   : Nat
  pool   : Nat
  ingress : Nat
  len    : Nat := 0
  edit   : Bool := false
  noEng  : Bool := false
  cells  : Nat
  refs   : Nat := 0
  rxPos  : Nat := 0
  stamp  : Nat := 0
  vid    : Nat := 0
  prio   : Nat := 0
  tc     : Nat := 0
  dei    : Bool := false
  handle : Option Nat := none
  seqGen : Option Nat := none
  esel   : Nat := 0
  tag    : Nat := 0
  tsReq  : Option (Nat × Nat) := none
  macsec : Bool := false
  origin : Nat := 0
  inv    : Option Nat := none
  deriving DecidableEq, Repr

/-- A copy in an output queue: the descriptor, its enqueue instant, and whether a closing gate has held it back before
(R214). -/
structure QCopy where
  desc     : Nat
  at_      : Nat
  deferred : Bool := false
  deriving DecidableEq, Repr

/-- A transmission in progress: descriptor (none for a frame the port itself makes), traffic class, start instant, stamp
request (TXID, key, source) and start position, whether it is stomped or sent with a bad FCS (17 R441), the bytes put on the
wire without FCS, and the key slot and copy that protect it. -/
structure TxCur where
  desc    : Option Nat
  tc      : Nat := 0
  start   : Nat := 0
  txid    : Option Nat := none
  key     : Nat := 0
  src     : Nat := 0
  pos     : Nat := 0
  stomped : Bool := false
  badFcs  : Bool := false
  bytes   : List Byte := []
  sak     : Option (Nat × Nat) := none
  deriving DecidableEq, Repr

/-- An Ethernet port: received frames that have not entered the lookup pipeline (descriptors), the transmission in
progress and one that an express frame has preempted, control frames to send first, pause (remaining time, the running
10 ms window and its sum), LPI idle timing, rate stepping (07 R192 to R196), PLCA, TC10, and the running gate list (08
R217, R218). -/
structure Port where
  rx        : List Nat := []
  tx        : Option TxCur := none
  held      : Option TxCur := none
  ctl       : List (List Byte) := []
  idleSince : Nat := 0
  pauseEnd  : Nat := 0
  pauseFrom : Nat := 0
  pauseSum  : Nat := 0
  winStart  : Nat := 0
  winRaised : Bool := false
  xoffAt    : Nat := 0
  txBytes   : Nat := 0
  rxBytes   : Nat := 0
  light     : Nat := 0
  token     : Nat := 0
  target    : Nat := 0
  reqAt     : Nat := 0
  reqTries  : Nat := 0
  dly       : Nat := 0
  switchAt  : Option Nat := none
  stopAt    : Nat := 0
  holdoff   : Nat := 0
  former    : Nat := 1
  reverted  : Bool := false
  yield     : Option Nat := none
  sleepWish : Bool := false
  asleep    : Bool := false
  wupSent   : Nat := 0
  hold      : Bool := false
  verifyAt  : Nat := 0
  verifyTry : Nat := 0
  credit    : Tab Int := []
  creditAt  : Nat := 0
  rxHi      : Nat := 0
  txHi      : Nat := 0
  bpBlocked : Bool := false
  dropCnt   : Nat := 0
  fcsCnt    : Nat := 0
  fcsTxCnt  : Nat := 0
  deriving DecidableEq, Repr

/-- State of a sequence recovery function (08 R228): the history bits after the last number, whether a first number is
still to come, and the instant of the last accepted frame. -/
structure SrfState where
  hist  : List Bool := []
  first : Bool := true
  seen  : Nat := 0
  deriving DecidableEq, Repr

/-- Token levels of a flow meter, in units of 1/8,000,000 byte, and their last update (08 R226). -/
structure MeterState where
  c  : Nat := 0
  e  : Nat := 0
  at_ : Nat := 0
  deriving DecidableEq, Repr

/-- An item of the learn queue (09 R237): a learn, a relocation of a slot, or a flush with its scope. -/
inductive LItem where
  | learn (fid : Nat) (mac : List Byte) (port : Nat) (t : Nat)
  | move (slot : Nat) (port : Nat) (t : Nat)
  | flush (byPort : Option Nat) (byFid : Option Nat)
  deriving DecidableEq, Repr

/-- A record of the move tracker (09 R239). -/
structure MoveRec where
  slot  : Nat
  last  : Nat
  count : Nat
  deriving DecidableEq, Repr

/-- A staged edit (09 R248): table, operation (0 WRITE, 1 CLEAR, 2 FDB_ADD, 3 FDB_DEL), index, words. -/
structure Edit where
  tbl  : Nat
  op   : Nat
  idx  : Nat
  data : List Word
  deriving DecidableEq, Repr

/-- The switch core: stored frames by descriptor, the next descriptor, descriptors and cells held (cells under
4·port + pool), the lookup FIFO, output queues under 8·port + class, meters, recovery functions. -/
structure SwState where
  frames   : Tab SFrame := []
  nextDesc : Nat := 0
  descUsed : Nat := 0
  cells    : Tab Nat := []
  fifo     : List Nat := []
  outq     : Tab (List QCopy) := []
  meters   : Tab MeterState := []
  srf      : Tab SrfState := []
  deriving DecidableEq, Repr

/-- The tables (09 Table 9.1): entries as word lists under 65,536·table + index (an unlisted entry is zero), entries with
an uncorrectable error, the staged edits, former contents of edited entries until DONE (R250), the learn queue, a flush
request that waits for room, the move tracker, the last aging tick, and the Proofer's sweep: running table and entry, the
entries it holds for repair, when the sweep began, and when the next may begin. -/
structure TblState where
  ent      : Tab (List Word) := []
  ue       : List Nat := []
  edits    : List Edit := []
  former   : Tab (List Word) := []
  lq       : List LItem := []
  flushReq : List LItem := []
  tracker  : List MoveRec := []
  lastTick : Nat := 0
  sweeping : Bool := false
  swTable  : Nat := 0
  swIdx    : Nat := 0
  swStart  : Nat := 0
  swHeld   : List Nat := []
  swNext   : Nat := 0
  repair   : List Nat := []
  deriving DecidableEq, Repr

/-! ### Time, phase, cues, gPTP (chapter 10) -/

/-- A phase input and its tracker (10 R263 to R266): θ and ω in units of 2^-32 of an angle unit, the QUAD count, pad
levels, the last measurement and its stamp, the direction of the last ω, the measurement stamps (at most 17, newest first),
measurements since ACQUIRE, and the last Hall state's position. -/
structure Phase where
  theta  : Int := 0
  omega  : Int := 0
  qcount : Int := 0
  a      : Bool := false
  b      : Bool := false
  z      : Bool := false
  lastM  : Nat := 0
  lastT  : Nat := 0
  back   : Bool := false
  stamps : List Nat := []
  since  : Nat := 0
  deriving DecidableEq, Repr

/-- A gPTP domain unit (10 R277 to R280): the sequenceId and the receive stamp (ns on the domain's base) of the Sync that waits
for its Follow_Up, the transmit stamps of the Syncs sent by port (in 2^-16 ns) while their Follow_Up has not been sent, a
Follow_Up that waits for such a stamp, the sequenceId of a grandmaster's Sync whose Follow_Up is to come, and the last whole
multiple of the Sync interval. -/
structure PtpUnit where
  sync   : Option (Nat × Int) := none
  tx     : Tab Int := []
  fup    : Option (List Byte) := none
  gmSeq  : Option Nat := none
  lastGm : Nat := 0
  deriving DecidableEq, Repr

/-- Time keeping of a die: phase inputs, NEXT of each armed cue (under its index), pins' pulse ends, PPS, gPTP units, the
issue order of a firing edge (R271), and the messages the units have put on their ports. -/
structure TimState where
  ph      : Vector Phase 4 := Vector.replicate 4 {}
  next    : Tab Nat := []
  pulse   : Tab Nat := []
  ppsLast : Option Nat := none
  ppsHigh : Option Nat := none
  ppsSec  : Int := 0
  ptp     : Vector PtpUnit 4 := Vector.replicate 4 {}
  cueDelay : Tab Nat := []
  lfsr    : Nat := 0xACE1
  deriving DecidableEq, Repr

/-! ### Pairing and the Stairwell (chapter 12) -/

/-- What a virtual channel carries between the dies (12 Table 12.1). -/
inductive VMsg where
  | req (origin : Nat) (secure : Bool) (write : Bool) (addr size : Nat) (data : List Byte) (posted : Bool) (tag : Nat)
  | resp (tag : Nat) (r : Resp)
  | event (r : EvRec)
  | heartbeat (mode role : Nat)
  | notice (lin : Bool) (ch : Nat) (origin : Nat) (status : Nat)
  | replica (p27 : Bool) (f : SFrame)
  | ingress (port : Nat) (f : EthFrame) (stamp pos origin : Nat)
  | trunk (f : EthFrame)
  | learn (i : LItem)
  | digest (origin : Nat) (egress : Nat) (tc : Nat) (len : Nat) (crc : Word) (stamp : Nat)
  deriving DecidableEq, Repr

/-- An output that waits in the vote stage (12 R336): its tag and egress, digest, the instant its window ends, the
descriptor or the bus frame it stands for, and the entry stamp on TB_0. -/
structure VoteItem where
  origin : Nat
  egress : Nat
  tc     : Nat
  len    : Nat
  crc    : Word
  until_ : Nat
  desc   : Option Nat := none
  stamp  : Nat := 0
  matched : Bool := false
  deriving DecidableEq, Repr

/-- The Stairwell end of a die: its outbound queue and inbound landing of each virtual channel, replay buffer, flit
sequence numbers, retries, the instant it went down, reservations (origin, line, instant), heartbeat timing and misses, the vote
stage, digests that came before their frame, mismatch instants, role-change procedures, and per-origin input sequences. -/
structure StwState where
  out      : Vector (List VMsg) 4 := Vector.replicate 4 []
  landing  : Vector (List VMsg) 4 := Vector.replicate 4 []
  replay   : List (Nat × VMsg) := []
  txSeq    : Nat := 0
  rxSeq    : Nat := 0
  retries  : Nat := 0
  failAt   : Option Nat := none
  retryNow : Bool := false
  downAt   : Nat := 0
  resv     : Tab (Nat × Nat) := []
  hbSent   : Nat := 0
  hbSeen   : Nat := 0
  hbMiss   : Nat := 0
  stage    : List VoteItem := []
  early    : List VoteItem := []
  late     : List (Nat × Nat) := []
  mismatch : List Nat := []
  hoCue    : Option Nat := none
  hoAt     : Option Nat := none
  hoMoved  : List Nat := []
  joinCue  : Option Nat := none
  joining  : Bool := false
  failover : Option (Nat × Nat) := none
  tsAt     : Nat := 0
  iseq     : Tab Nat := []
  deriving DecidableEq, Repr

/-! ### The Darkroom and the cipher engine (chapter 11) -/

/-- A key as a slot holds it, active or in its shadow (11 R287, R295): its bytes, attributes, reference count, and the
number by which consumers know this copy. -/
structure KeyCopy where
  key   : List Byte
  attrA : Nat
  attrB : Nat
  refs  : Nat := 0
  gen   : Nat := 0
  deriving DecidableEq, Repr

/-- A key slot (11 R287, R289, R290): its copies, KCV, counter (a count of 2^32 waits for its epoch), the highest reserved
epoch whose write has completed, the epoch write that runs or is tried again with the instant it started, and whether
COUNTER_WAIT has been raised. -/
structure KeySlot where
  active    : Option KeyCopy := none
  shadow    : Option KeyCopy := none
  kcv       : Nat := 0
  n         : Nat := 0
  e         : Nat := 0
  res       : Nat := 0
  write     : Option (Nat × Nat) := none
  exhausted : Bool := false
  waited    : Bool := false
  deriving DecidableEq, Repr

/-- A look-aside job in flight (11 R298): its number, issuer (requester ID, secure attribute, cluster of an engine), its
descriptor, its lane (7: none yet), whether it has ended, the keys, copies and counter it fetched, and its record. -/
structure CJob where
  num     : Nat
  req     : Nat
  secure  : Bool
  cluster : Option Nat := none
  desc    : List Word
  lane    : Nat := 7
  ended   : Bool := false
  keys    : List (List Byte) := []
  refs    : List (Nat × Nat) := []
  salt    : Nat := 0
  c       : Nat := 0
  status  : Nat := 0
  untrusted : Bool := false
  written : Nat := 0
  deriving DecidableEq, Repr

/-- A freshness state of the seal unit (11 R307): every value below `floor` and every value of `marks` has been seen. -/
structure FwState where
  floor : Nat := 0
  marks : List Nat := []
  deriving DecidableEq, Repr

/-- The Darkroom and the cipher engine of a die: key slots, the next copy number, the running command (OP, SLOT, KEK), jobs
in issue order, the next job number, arbiter pointers of the job queue and the light-tight bus, freshness states, the
random generator, the debug challenge (its bytes, level and first read), the self-test ends of MACsec units by port. -/
structure SecState where
  slots    : Tab KeySlot := []
  nextGen  : Nat := 0
  cmd      : Option (Nat × Nat × Nat) := none
  jobs     : List CJob := []
  nextJob  : Nat := 0
  jobPtr   : Nat := 0
  lightPtr : Nat := 0
  fw       : Tab FwState := []
  rng      : Nat := 0
  seeded   : Bool := false
  chal     : Option (List Byte × Nat × Nat) := none
  resp     : Tab Nat := []
  testEnd  : Tab Nat := []
  deriving DecidableEq, Repr

/-! ### PCIe (chapter 13) -/

/-- A DMA channel: its descriptor in progress and the instant its external access began (13 R362). -/
structure DmaChan where
  cur   : Option (List Word) := none
  since : Nat := 0
  deriving DecidableEq, Repr

/-- The PCIe endpoint and the virtual NIC (13 R360 to R365): DMA channels and their turn, bytes written to external memory
(oldest first), the MSI-X table (every vector masked at reset, as PCI Express has it: PRESUMED, log 35), pending vectors, the receive batch (frames and the instant of the first), pending
notifications of owner 0 and of the link. -/
structure PciState where
  dma     : Tab DmaChan := []
  turn    : Nat := 0
  ext     : List (Nat × List Byte) := []
  table   : Memory := (List.range 64).map fun v => (16 * v + 12, 1)
  pba     : List Nat := []
  rxCount : Nat := 0
  rxFirst : Nat := 0
  vnicIrq : Bool := false
  linkIrq : Bool := false
  deriving DecidableEq, Repr

/-! ### Power, update, guard (chapters 15 to 17) -/

/-- What a die's power control holds beside the PWR registers: whether the die runs (its supplies are on and its reset is
released), the instant of a pending Rest request, wakes during an entry, the
halls stopped in Doze, halls that power up, the ROM's progress (the bank, whether the other one has been tried, the first refusal), and a trial that has expired. -/
structure PowState where
  alive    : Bool := true
  pendAt   : Nat := 0
  wakeHit  : Bool := false
  stopped  : List Nat := []
  rising   : List Nat := []
  bootBank : Nat := 0
  tried    : Bool := false
  firstFail : Nat := 0
  expired  : Bool := false
  deriving DecidableEq, Repr

/-- The UPD block (chapter 16): the external flash, the header of the session, the running operation (OP as CTL names it; 16 for
PROG with its address and unit) and the buffer it reads, the bank that READY means, the instant from which the trial timer of a
trial boot counts, rollback fuses blown. -/
structure UpdState where
  flash   : Memory := []
  hdr     : List Byte := []
  op      : Option (Nat × Nat × Nat) := none
  src     : Nat := 0
  ready   : Nat := 0
  trialAt : Option Nat := none
  fuses   : Nat := 0
  deriving DecidableEq, Repr

/-- A quarantine slot's window (17 R433): its count and the start of its window or of its hold. -/
structure QSlot where
  count : Nat := 0
  start : Nat := 0
  deriving DecidableEq, Repr

/-- The guard and perturbation (17 R433, R439 to R441): quarantine slots, the requester half way through the unlock
sequence, CAN channels armed for MODE 1, flits counted for the Stairwell injection and corruptions left of a burst, PLCA
conflict instants by port, whether a RELOCK waits for its commit. -/
structure GuardState where
  qt      : Tab QSlot := []
  half    : Option Nat := none
  armed   : List Nat := []
  flits   : Nat := 0
  burst   : Nat := 0
  beacons : Tab (List Nat) := []
  relock  : Bool := false
  deriving DecidableEq, Repr

/-- The commit machine beside its registers (02 R50): MODE, DRY and CUE of the GO that runs, whether its validation has
passed and the commit instant is awaited, the ports and channels that a BOUNDARY commit has still to switch, and the instant
of the commit. -/
structure CommitState where
  mode    : Nat := 0
  dry     : Bool := false
  cue     : Nat := 0
  passed  : Bool := false
  units   : List Nat := []
  drainAt : Nat := 0
  deriving DecidableEq, Repr

/-! ### The Newel (chapter 14) -/

/-- A command on a Newel link: OP, ARG, its SEQ, the data of an EEPROM page, and when it was sent last (Table 14.2). -/
structure NlCmd where
  op   : Nat
  arg  : Nat
  seq  : Nat := 0
  data : List Byte := []
  at_  : Nat := 0
  deriving DecidableEq, Repr

/-- The die's end of its Newel link (14 R369 to R371): the next SEQ, the commands unanswered, the commands that stall, the word
addresses that the mirror is still to read, the resends of the oldest, and the instants of the last RESYNC and the last
mirror refresh. -/
structure NlState where
  next    : Nat := 1
  sent    : List NlCmd := []
  stalled : List NlCmd := []
  polls   : List Nat := []
  resends : Nat := 0
  resyncAt : Nat := 0
  pollAt  : Nat := 0
  deriving DecidableEq, Repr

/-- The Newel's end of a link: the SEQ it expects, its store of answers (SEQ, answer OP, ARG), the current word address,
words that wait for APPLY, the instant of the last valid frame, whether it counts the link silent or lost or the die has
stopped it for Rest, EVENT frames to send (code, unit, INFO), and the EEPROM page read last with RESULT. -/
structure NwLink where
  expect  : Nat := 1
  answers : List (Nat × Nat × Nat) := []
  addr    : Nat := 0
  words   : Tab Nat := []
  seen    : Nat := 0
  silent  : Bool := false
  lost    : Bool := false
  stopped : Bool := false
  events  : List (Nat × Nat × Nat) := []
  page    : List Byte := []
  eeRes   : Nat := 0
  deriving DecidableEq, Repr

/-- A load channel (14 R372 to R382): commanded state and duty of each die, whether its output is closed, the duty in use,
latches and diagnosis flags with the instants their conditions arose, heat, the wire model's e, SENSE, the warm-up
window, budget, restarts, the trip that waits for a restart, whether a fail-safe or Safelight state is in force and runs at
FS_DUTY, and the start of a disagreement (R374). -/
structure LsChan where
  cmdW    : Bool := false
  cmdE    : Bool := false
  dutyW   : Nat := 0
  dutyE   : Nat := 0
  on      : Bool := false
  duty    : Nat := 0
  therm   : Bool := false
  oc      : Bool := false
  wire    : Bool := false
  openOn  : Bool := false
  openOff : Bool := false
  stb     : Bool := false
  hot     : Bool := false
  e       : Rat := 0
  sense   : Nat := 0
  valid   : Bool := false
  winEnd  : Nat := 0
  budget  : Nat := 0
  retries : Nat := 0
  tripAt  : Option Nat := none
  want    : Bool := false
  force   : Bool := false
  fsPwm   : Bool := false
  split   : Option Nat := none
  splitRaised : Bool := false
  deriving DecidableEq, Repr

/-- A serial watchdog (14 R385 to R387). -/
structure WdState where
  state   : Nat := 0
  chal    : Nat := 1
  cnt     : Nat := 0
  misses  : Nat := 0
  good    : Nat := 0
  last    : Nat := 0
  start   : Nat := 0
  deriving DecidableEq, Repr

/-- A die's supplies (15 R402): how many groups are enabled and good, failed attempts with their instants, whether the die is
left off, the instant a retry may begin, and the reset cause of the running sequence. -/
structure SupplyState where
  on      : Nat := 3
  good    : Nat := 3
  fails   : List Nat := []
  off     : Bool := false
  retryAt : Option Nat := none
  why     : Nat := 0
  deriving DecidableEq, Repr

/-- The Newel. `cfg` holds applied configuration words by word address; `ee` is the EEPROM's user area, `epochs` its epoch
records (KCV, RES) under 256·die + slot (DESIGN CHOICE, log 22), the rest of the EEPROM is in fields of its own. `mode` and
`active` are the pairing mode and the active die; `moved` lists shared channels that a handover has moved; `lone` says
that a Vote pair has degraded to the active die, `rev` that VBAT is negative, `shut` which transceivers have shut down (LIN from 24), `note` which dies have still to hear of a Newel reset. -/
structure NewelState where
  now     : Nat := 0
  mode    : Nat := 0
  active  : Die := .west
  arm     : Vector (Option (Nat × Nat)) 2 := Vector.replicate 2 none
  armed   : Option Nat := none
  lone    : Bool := false
  moved   : List Nat := []
  owner   : Nat := 0xFFF000
  ownReq  : Option (Die × Nat × Nat) := none
  cfg     : Tab Nat := []
  ch      : Tab LsChan := []
  link    : Vector NwLink 2 := Vector.replicate 2 {}
  wd      : Vector WdState 2 := Vector.replicate 2 {}
  wdAuto  : Option Nat := some 0
  slOn    : Bool := false
  slPin   : Bool := true
  slExit  : List Nat := []
  lh      : Nat := 0
  wk      : Nat := 0
  woke    : Nat := 0
  vbat    : Nat := 0
  low     : Bool := false
  ntemp   : Nat := 0
  ee      : Memory := []
  epochs  : Tab (Nat × Nat) := []
  eeJob   : Option (Die × Nat × List Byte) := none
  supply  : Vector SupplyState 2 := Vector.replicate 2 {}
  offline : Bool := false
  free    : Nat := 0
  rev     : Bool := false
  shut    : List Nat := []
  note    : List Nat := []
  deriving DecidableEq, Repr

/-- One logic die. `regs` is its register file (active values of RWS fields, values of all others), `staged` the staged
copies that differ from the active ones (02 R49), `old` the active set that a running drain still serves (R51), `gen`
the number of the active set. `now` counts nanoseconds of the AON clock (02 R462). -/
structure DieState where
  die    : Die
  now    : Nat := 0
  free   : Nat := 0
  regs   : Tab Nat := []
  staged : Tab Nat := []
  old    : Tab Nat := []
  gen    : Nat := 0
  bus    : BusState := {}
  evt    : EvtState := {}
  eng    : EngState := {}
  host   : HostState := {}
  tb     : Vector TBase 8 := Vector.replicate 8 {}
  can    : Tab CanChan := []
  lin    : Tab LinChan := []
  gal    : GalState := {}
  rte    : RouteState := {}
  port   : Tab Port := []
  sw     : SwState := {}
  tbl    : TblState := {}
  tim    : TimState := {}
  stw    : StwState := {}
  sec    : SecState := {}
  pci    : PciState := {}
  pow    : PowState := {}
  upd    : UpdState := {}
  guard  : GuardState := {}
  cm     : CommitState := {}
  nl     : NlState := {}
  fences : List Nat := []
  deriving DecidableEq, Repr

/-- Why a step can stop with a fault. -/
inductive Fault where
  /-- Raised by no meaning: an access to what the spec says does not exist completes with DECODE_ERROR (02 R36), which
  is a next state. Safe. -/
  | offMap
  deriving DecidableEq, Repr

/-- Why a step can refuse a command. -/
inductive Refusal where
  /-- Answered by an arm of `exec` whose command has no meaning yet. Safe: nothing can be proved of that command. -/
  | notModelled (mnemonic : String)
  deriving DecidableEq, Repr

/-- The package: its two logic dies, the Newel, and the commands that wait, first in, first out. -/
structure State where
  west    : DieState
  east    : DieState
  newel   : NewelState
  pending : List Instr
  deriving DecidableEq, Repr

/-- The register file right after reset lists the fields whose reset value depends on the die or the port: `IDENT.DIE`, the
KIND of the internal ports (07 R179) and LEARN of P_27 (09 Table 9.8). -/
def resetRegs (east : Bool) : Tab Nat :=
  Tab.insert (Tab.insert (Tab.insert (Tab.insert (if east then [(sysIdentDie.key 0 0 0, 1)] else [])
    (fwtPortALearn.key 0 27 0) 0) (ethModeKind.key 26 0 0) 7) (ethModeKind.key 27 0 0) 7) (ethModeKind.key 28 0 0) 7

/-- The state of a die right after reset. -/
def DieState.reset (d : Die) : DieState :=
  match d with
  | .west => { die := .west, regs := resetRegs false }
  | .east => { die := .east, regs := resetRegs true }

/-- The package right after reset (00, 15): no command waits. -/
def State.reset : State := 
  { west := DieState.reset .west, east := DieState.reset .east, newel := {}, pending := [] }

end Sys2Proof.Machine
end

