-- ==== Sys2Proof/Machine/Ops.lean ====
section
/-! DEFINITION. Machine/Ops.lean: the operations the meanings share: the register file, halls, responses, time stamps,
queue blocks, events, engine events, and register accesses. -/

namespace Sys2Proof.Machine

/-! ### Dies -/

/-- The die of a name. -/
def State.get (s : State) (d : Die) : DieState :=
  match d with
  | .west => s.west
  | .east => s.east

/-- Puts a die's state back. -/
def State.set (s : State) (d : Die) (x : DieState) : State :=
  match d with
  | .west => { s with west := x }
  | .east => { s with east := x }

/-- Changes one die. -/
def State.on (s : State) (d : Die) (f : DieState → DieState) : State := s.set d (f (s.get d))

/-- A command that runs on one die completes with the die so changed. -/
def State.doOn (s : State) (d : Die) (f : DieState → DieState) : Host.Outcome State Fault Refusal := .next (s.on d f)

/-! ### The register file -/

/-- The value of a field: the active value of an RWS field (02 R48). `ch` is the channel or requester's copy, `i` and `j`
the array indices. -/
def DieState.rd (d : DieState) (f : Fld) (ch : Nat := 0) (i : Nat := 0) (j : Nat := 0) : Nat :=
  Tab.get f.reset d.regs (f.key ch i j)

/-- A one-bit field is 1. -/
def DieState.bit (d : DieState) (f : Fld) (ch : Nat := 0) (i : Nat := 0) (j : Nat := 0) : Bool :=
  decide (d.rd f ch i j = 1)

/-- Sets a field (the active copy of an RWS field). -/
def DieState.wr (d : DieState) (f : Fld) (v : Nat) (ch : Nat := 0) (i : Nat := 0) (j : Nat := 0) : DieState :=
  { d with regs := Tab.put f.reset d.regs (f.key ch i j) (v % 2 ^ f.width) }

/-- Counts `n` more in a counter field, saturating or wrapping as its description says (00 R9). -/
def DieState.cnt (d : DieState) (f : Fld) (ch : Nat := 0) (i : Nat := 0) (j : Nat := 0) (n : Nat := 1) : DieState :=
  d.wr f (f.inc (d.rd f ch i j) n) ch i j

/-- Raises a peak field to `v` if it is higher. -/
def DieState.peak (d : DieState) (f : Fld) (v : Nat) (ch : Nat := 0) (i : Nat := 0) (j : Nat := 0) : DieState :=
  d.wr f (max (d.rd f ch i j) (min v (2 ^ f.width - 1))) ch i j

/-- The staged value of an RWS field (02 R48). -/
def DieState.rdStaged (d : DieState) (f : Fld) (ch : Nat := 0) (i : Nat := 0) (j : Nat := 0) : Nat :=
  (Tab.get? d.staged (f.key ch i j)).getD (d.rd f ch i j)

/-- Stages a value for an RWS field; the staged copies list what differs from the active ones (02 R49). -/
def DieState.stage (d : DieState) (f : Fld) (v : Nat) (ch : Nat := 0) (i : Nat := 0) (j : Nat := 0) : DieState :=
  if v = d.rd f ch i j then { d with staged := Tab.erase d.staged (f.key ch i j) }
  else { d with staged := Tab.insert d.staged (f.key ch i j) v }

/-- The value of an RWS field in the set an item is tagged with (02 R51): the active set, or the set before it while the
drain lasts. -/
def DieState.rdAs (d : DieState) (tag : Nat) (f : Fld) (ch : Nat := 0) (i : Nat := 0) (j : Nat := 0) : Nat :=
  if tag = d.gen then d.rd f ch i j else Tab.get f.reset d.old (f.key ch i j)

/-- A one-bit RWS field is 1 in an item's set. -/
def DieState.bitAs (d : DieState) (tag : Nat) (f : Fld) (ch : Nat := 0) (i : Nat := 0) (j : Nat := 0) : Bool :=
  decide (d.rdAs tag f ch i j = 1)

/-! ### Free values -/

/-- A value the spec leaves open, fresh at each use: the two dies draw from disjoint numbers. -/
def DieState.freshVal (d : DieState) : Word := Config.freeWord (2 * d.free + if d.die = .west then 0 else 1)

/-- The die after it has drawn a free value. -/
def DieState.drawn (d : DieState) : DieState := { d with free := d.free + 1 }

/-! ### Halls -/

/-- Numbers of the halls in PWR.HALL_CTL (15 Table 15.1). -/
inductive Hall where
  | aon
  | host
  | drk
  | engA
  | engB
  | bus
  | swc
  | phy
  | ser
  | stw
  deriving DecidableEq, Repr

/-- The bit of a hall in PWR.HALL_CTL and HALL_STAT. -/
def Hall.num (h : Hall) : Nat :=
  match h with
  | .aon => 0
  | .host => 1
  | .drk => 2
  | .engA => 3
  | .engB => 4
  | .bus => 5
  | .swc => 6
  | .phy => 7
  | .ser => 8
  | .stw => 9

/-- A hall has power, is ready (15 R396) and is not stopped in Doze (R397). -/
def DieState.hallUp (d : DieState) (h : Hall) : Bool := (d.rd pwrHallStatReady).testBit h.num && !d.pow.stopped.contains h.num

/-- The units of a hall work: it is up, and for the Frame hall the switch core is not fenced (01 R15). -/
def DieState.hallOn (d : DieState) (h : Hall) : Bool := d.hallUp h && !(decide (h = .swc) && d.fences.contains 41)

/-- The hall of a register block (02 Table 2.5). -/
def hallOfBlock (blk : Nat) : Hall :=
  match blk with
  | 1 => .aon
  | 2 => .bus
  | 3 => .bus
  | 4 => .swc
  | 5 => .swc
  | 6 => .swc
  | 7 => .engA
  | 8 => .engA
  | 9 => .bus
  | 10 => .aon
  | 11 => .engA
  | 12 => .drk
  | 15 => .stw
  | 16 => .aon
  | _ => .host

/-- The hall of an engine cluster (03 R55). -/
def hallOfCluster (cl : Nat) : Hall := if cl < 2 then .engA else .engB

/-! ### Requesters (02 R43) -/

/-- The requester ID of Table 2.7. -/
def reqId (r : Requester) : Nat :=
  match r with
  | .core c _ => c.val
  | .pcie => 16
  | .remote _ _ => 17
  | .darkroom => 24
  | .debug => 31

/-- The originating ID of a request of the remote die, else 0. -/
def reqOrigin (r : Requester) : Nat :=
  match r with
  | .remote o _ => o.val
  | _ => 0

/-- The number of the requester's own copy of a select register (02 R42). -/
def reqCopy (r : Requester) : Nat :=
  match r with
  | .remote o _ => 32 + o.val
  | r => reqId r

/-- The secure attribute of a requester (02 Table 2.7). Debug is secure while level SECURE is granted (11 R311). -/
def DieState.secure (d : DieState) (r : Requester) : Bool :=
  match r with
  | .core _ m => m
  | .pcie => d.bit sysSecCfgPci
  | .remote _ s => s
  | .darkroom => true
  | .debug => decide (d.rd drkDbgStatGranted = 2)

/-! ### Time bases (10 R257) -/

/-- An angle base. -/
def DieState.isAngle (d : DieState) (n : Nat) : Bool := d.bit timTbCfgKind 0 n

/-- The base. -/
def DieState.base (d : DieState) (n : Nat) : TBase := d.tb.toList.getD n {}

/-- The position T of a base, 64 bits. -/
def DieState.position (d : DieState) (n : Nat) : Nat :=
  let b := d.base n
  if d.isAngle n then (b.count * 2 ^ 32 + b.angle) % 2 ^ 64 else (b.sec * 1000000000 + b.ns) % 2 ^ 64

/-- The 32-bit stamp of a base. -/
def DieState.stamp (d : DieState) (n : Nat) : Nat := d.position n % 2 ^ 32

/-- The signed 32-bit difference of two stamps (10 R257). -/
def stampDiff (a b : Nat) : Int := (BitVec.ofNat 32 a - BitVec.ofNat 32 b).toInt

/-- The signed 64-bit difference of two positions (10 R270). -/
def posDiff (a b : Nat) : Int := (BitVec.ofNat 64 a - BitVec.ofNat 64 b).toInt

/-! ### Hold-offs (02 R462) -/

/-- The key of a hold-off: event code and scope. -/
def holdKey (code scope : Nat) : Nat := code * 16777216 + scope

/-- The hold-off of an event in a scope still runs: its last raise is less than `lim` ns ago. -/
def DieState.held (d : DieState) (code scope lim : Nat) : Bool :=
  match Tab.get? d.evt.holdoff (holdKey code scope) with
  | none => false
  | some t => decide (d.now < t + lim)

/-- Starts a hold-off. -/
def DieState.startHold (d : DieState) (code scope : Nat) : DieState :=
  { d with evt := { d.evt with holdoff := Tab.insert d.evt.holdoff (holdKey code scope) d.now } }

/-! ### Queue blocks (13 R350 to R354) -/

/-- SIZE of a queue block. -/
def DieState.qbSize (d : DieState) (n : Nat) : Nat := 2 ^ d.rd qbkCfgALog2size n

/-- The distance from pointer `q` to pointer `p`, modulo 2·SIZE. -/
def DieState.qbDist (d : DieState) (n p q : Nat) : Nat := (p + 2 * d.qbSize n - q % (2 * d.qbSize n)) % (2 * d.qbSize n)

/-- UNREAD = WP − RP. -/
def DieState.qbUnread (d : DieState) (n : Nat) : Nat := d.qbDist n (d.rd qbkWp n) (d.rd qbkRp n)

/-- HELD = WP − REL. -/
def DieState.qbHeld (d : DieState) (n : Nat) : Nat := d.qbDist n (d.rd qbkWp n) (d.rd qbkRel n)

/-- The queue-RAM word that pointer `p` addresses. -/
def DieState.qbAddr (d : DieState) (n p : Nat) : Nat := d.rd qbkCfgABase n + p % d.qbSize n

/-- The word at RP + i. -/
def DieState.qbWord (d : DieState) (n i : Nat) : Word := Tab.get 0 d.host.qram (d.qbAddr n (d.rd qbkRp n + i))

/-- NOTE (R353): UNREAD ≥ WM, or STALE. A disabled queue block holds no words (R351). -/
def DieState.qbNote (d : DieState) (n : Nat) : Bool :=
  d.bit qbkStatStale n || (d.bit qbkCfgAEn n && decide (d.rd qbkCfgB n ≤ d.qbUnread n))

/-- Writes words from pointer `p` on. -/
def DieState.qbStore (d : DieState) (n p : Nat) (ws : List Word) : DieState :=
  match ws with
  | [] => d
  | w :: r => DieState.qbStore { d with host := { d.host with qram := Tab.put 0 d.host.qram (d.qbAddr n p) w } } n (p + 1) r

/-- A record can enter (R351). -/
def DieState.qbRoom (d : DieState) (n k : Nat) : Bool :=
  d.bit qbkCfgAEn n && decide (k + d.qbHeld n ≤ d.qbSize n)

/-- The record enters: its words, WP, the peak and, when UNREAD rises from 0, the stale timer's start. -/
def DieState.qbEnter (d : DieState) (n : Nat) (ws : List Word) : DieState :=
  let wp := d.rd qbkWp n
  let d1 := (d.qbStore n wp ws).wr qbkWp ((wp + ws.length) % (2 * d.qbSize n)) n
  let d2 := d1.peak qbkPeak (d1.qbHeld n) n
  if d.qbUnread n = 0 ∧ ws ≠ [] then { d2 with host := { d2.host with stale := Tab.insert d2.host.stale n d2.now } } else d2

/-! ### Events (02 R53, R54) and engine events (03 R56, R58) -/

/-- The words of an event record (02 Table 2.14). -/
def EvRec.words (r : EvRec) : List Word :=
  [BitVec.ofNat 32 (r.code + r.id * 65536 + (if r.sec then 2097152 else 0) + r.die * 4194304 + r.addrHi * 16777216),
   BitVec.ofNat 32 r.info, BitVec.ofNat 32 r.stamp, BitVec.ofNat 32 (r.seq + r.unit * 65536)]

/-- What a happening sets off: an event record for the router, or an engine event for a cluster. -/
inductive Eff where
  | ev (r : EvRec)
  | eng (cl : Nat) (e : EngEvent)
  deriving DecidableEq, Repr

/-- The event takes its SEQ and STAMP when it is raised. -/
def DieState.takeSeq (d : DieState) (r : EvRec) : DieState × EvRec :=
  ({ d with evt := { d.evt with seq := (d.evt.seq + 1) % 65536 } },
   { r with die := if d.die = .west then 0 else 1, stamp := d.stamp 0, seq := d.evt.seq })

/-- QB_DROP of a queue block, at most once per millisecond (13 R351). -/
def DieState.qbDropEff (d : DieState) (n k : Nat) : DieState × List Eff :=
  if d.held 0x0E01 n 1000000 then (d, [])
  else
    let (d1, r) := (d.startHold 0x0E01 n).takeSeq { code := 0x0E01, unit := n, info := k }
    (d1, [.ev r])

/-- A vector of the MSI-X table is masked: bit 0 of its control word (13 R365). -/
def DieState.msixMasked (d : DieState) (v : Nat) : Bool := (d.pci.table.byte (16 * v + 12)).getLsbD 0

/-- Sends an MSI-X vector, or keeps it pending while it is masked (13 R365). -/
def DieState.msixSend (d : DieState) (v : Nat) : DieState :=
  if d.msixMasked v then { d with pci := { d.pci with pba := if d.pci.pba.contains v then d.pci.pba else d.pci.pba ++ [v] } }
  else { d with host := { d.host with msix := d.host.msix ++ [v] } }

/-- What the rise of NOTE sets off (13 R353): the engine event here, MSI-X through the vectors sent. -/
def DieState.noteRise (d : DieState) (n : Nat) : DieState × List Eff :=
  let d1 := if d.bit qbkCfgCMsix n then d.msixSend (d.rd qbkCfgCVec n) else d
  if d.bit qbkCfgCEven n then
    (d1, [.eng (d.rd qbkCfgCCluster n)
      { typ := 5, entry := d.rd qbkCfgCEntry n, cls := 14, unit := n, w1 := n, w2 := d.qbUnread n }])
  else (d1, [])

/-- A record offered to a queue block (13 R351): it enters or is refused; what either sets off. -/
def DieState.qbOffer (d : DieState) (n : Nat) (ws : List Word) : Bool × DieState × List Eff :=
  if d.hallOn .host && d.qbRoom n ws.length then
    let d1 := d.qbEnter n ws
    if d.qbNote n then (true, d1, [])
    else if d1.qbNote n then (true, d1.noteRise n)
    else (true, d1, [])
  else (false, (d.cnt qbkDrops n).qbDropEff n ws.length)

/-! ### Outward queues -/

/-- Puts a message on a virtual channel of the Stairwell (12 Table 12.1). -/
def DieState.sendVc (d : DieState) (v : Fin 4) (m : VMsg) : DieState :=
  { d with stw := { d.stw with out := d.stw.out.set v (d.stw.out.get v ++ [m]) } }

/-- Takes the front message of a landing. -/
def DieState.popLanding (d : DieState) (v : Fin 4) : DieState :=
  { d with stw := { d.stw with landing := d.stw.landing.set v (d.stw.landing.get v).tail } }

/-- The Stairwell link is up. -/
def DieState.linkUp (d : DieState) : Bool := d.bit stwLinkUp

/-! ### Host SRAM -/

/-- Stores bytes in host SRAM from an offset on. A write breaks every reservation on a line it touches, but the writer's own
(12 R323); `holder` is the originating ID of a remote writer. -/
def DieState.sramStore (d : DieState) (a : Nat) (bs : List Byte) (holder : Option Nat := none) : DieState :=
  let lo := a / 64
  let hi := (a + bs.length - 1) / 64
  { d with host := { d.host with sram := d.host.sram.setBytes a bs },
           stw := { d.stw with resv := d.stw.resv.filter fun e =>
             bs.isEmpty || decide (some e.1 = holder) || decide (e.2.1 < lo) || decide (hi < e.2.1) } }

/-- The bytes of words one after the other, each little-endian (00 R5). -/
def wordsBytes (ws : List Word) : List Byte := ws.flatMap fun w => leBytes 4 w.toNat

/-! ### The event log (17 R437) -/

/-- Writes the log header: MAGIC, the index of the next record, the records written, LOG_LOST. -/
def DieState.logHeader (d : DieState) : DieState :=
  let a := d.rd evtLogBase * 16
  d.sramStore a (wordsBytes [0x4C474F4C, BitVec.ofNat 32 (d.evt.logCnt % 2 ^ d.rd evtLogCfgLog2n), BitVec.ofNat 32 d.evt.logCnt,
    BitVec.ofNat 32 (d.rd evtLogLost)])

/-- Counts a record against the trigger: the trigger event sets TRIGGERED, and after POST further records the log stops. -/
def DieState.logTrigger (d : DieState) (code : Nat) : DieState :=
  if d.bit evtLogCfgTen then
    if d.bit evtLogStatTriggered then
      if d.evt.logPost ≤ 1 then ({ d with evt := { d.evt with logPost := 0 } }).wr evtLogStatStopped 1
      else { d with evt := { d.evt with logPost := d.evt.logPost - 1 } }
    else if code = d.rd evtLogTrigCode then
      let d1 := ({ d with evt := { d.evt with logPost := d.rd evtLogTrigPost } }).wr evtLogStatTriggered 1
      if d.rd evtLogTrigPost = 0 then d1.wr evtLogStatStopped 1 else d1
    else d
  else d

/-- An event record reaches the log: written before the header that counts it, or dropped at a full ring with STOP. -/
def DieState.logRecord (d : DieState) (r : EvRec) : DieState :=
  if d.bit evtLogCfgEn && !d.bit evtLogStatStopped then
    let n := 2 ^ d.rd evtLogCfgLog2n
    if d.bit evtLogCfgStop && decide (n ≤ d.evt.logCnt) then (d.cnt evtLogLost).logHeader
    else
      let a := d.rd evtLogBase * 16 + 16 + 16 * (d.evt.logCnt % n)
      let d1 := d.sramStore a (wordsBytes r.words)
      (({ d1 with evt := { d1.evt with logCnt := (d.evt.logCnt + 1) % 2 ^ 32 } }).logHeader).logTrigger r.code
  else d

/-! ### Delivery of event records (02 R54) -/

/-- A record goes to each destination of its class's route; a full destination drops it and counts. -/
def DieState.deliver (d : DieState) (r : EvRec) : DieState × List Eff :=
  let k := r.code / 256
  let (d1, es) :=
    if d.bit evtRouteHost 0 k then
      let (ok, d', es) := d.qbOffer (d.rd evtRouteQb 0 k) r.words
      (if ok then d' else d'.cnt evtDrop 0 0, es)
    else (d, [])
  let d2 := if d.bit evtRouteLog 0 k then d1.logRecord r else d1
  let d3 :=
    if d.bit evtRoutePci 0 k then
      if d2.evt.pciq.length < Config.pcieEventDepth then { d2 with evt := { d2.evt with pciq := d2.evt.pciq ++ [r] } }
      else d2.cnt evtDrop 0 1
    else d2
  let d4 :=
    if d.bit evtRouteRemote 0 k && !r.remote then
      if d3.linkUp then d3.sendVc 0 (.event r) else d3.cnt evtDrop 0 2
    else d3
  (d4, es)

/-! ### Frames in the packet buffer (08 R205, R213) -/

/-- ⌈n / k⌉. -/
def ceilDiv (n k : Nat) : Nat := (n + k - 1) / k

/-- Cells a frame of `n` bytes before its FCS takes. -/
def cellsOf (n : Nat) : Nat := ceilDiv (n + 4) 128

/-- Cells that a port holds in a pool. -/
def DieState.portCells (d : DieState) (port pool : Nat) : Nat := Tab.get 0 d.sw.cells (4 * port + pool)

/-- Cells used by a pool. -/
def DieState.poolUsed (d : DieState) (pool : Nat) : Nat :=
  d.sw.cells.foldl (fun a e => if e.1 % 4 = pool then a + e.2 else a) 0

/-- A port. -/
def DieState.portOf (d : DieState) (p : Nat) : Port := Tab.get {} d.port p

/-- Changes a port. -/
def DieState.onPort (d : DieState) (p : Nat) (g : Port → Port) : DieState :=
  { d with port := Tab.put {} d.port p (g (d.portOf p)) }

/-- Cells that a port's ingress holds in all pools. -/
def DieState.ingressCells (d : DieState) (p : Nat) : Nat := ((List.range 4).map fun q => d.portCells p q).foldl (· + ·) 0

/-- Bytes of the port's address (`ETH.MAC`). -/
def DieState.portMac (d : DieState) (p : Nat) : List Byte := leBytes 4 (d.rd ethMacLo p) ++ leBytes 2 (d.rd ethMacHi p)

/-- A PAUSE frame of Annex 31B without FCS. -/
def pauseFrame (mac : List Byte) (quanta : Nat) : List Byte :=
  [0x01, 0x80, 0xC2, 0x00, 0x00, 0x01] ++ mac ++ [0x88, 0x08, 0x00, 0x01] ++ beBytes 2 quanta ++ List.replicate 42 0

/-- A port sends a PAUSE ahead of every queued frame (07 R189). -/
def DieState.sendPause (d : DieState) (p quanta : Nat) : DieState :=
  (d.onPort p fun x => { x with ctl := x.ctl ++ [pauseFrame (d.portMac p) quanta] }).cnt ethCntPauseTx p

/-- The watermarks of compatibility pause after a change of the cells that a port's ingress holds (07 R189). -/
def DieState.pauseCheck (d : DieState) (p : Nat) : DieState :=
  let n := d.ingressCells p
  if 25 < p ∨ !d.bit ethPauseATxen p ∨ d.rd ethPauseBHigh p ≤ d.rd ethPauseBLow p then d
  else if d.bit ethPauseDXoff p then (if n < d.rd ethPauseBLow p then (d.wr ethPauseDXoff 0 p).sendPause p 0 else d)
  else if d.rd ethPauseBHigh p ≤ n then
    ((d.wr ethPauseDXoff 1 p).onPort p fun x => { x with xoffAt := d.now }).sendPause p (d.rd ethPauseAQuanta p)
  else d

/-- Adds cells to a port's share of a pool. -/
def DieState.takeCells (d : DieState) (port pool n : Nat) : DieState :=
  let d1 := { d with sw := { d.sw with cells := Tab.put 0 d.sw.cells (4 * port + pool) (d.portCells port pool + n) } }
  (d1.peak swcPoolC (d1.poolUsed pool) 0 pool).pauseCheck port

/-- Gives cells of a port's share back. -/
def DieState.giveCells (d : DieState) (port pool n : Nat) : DieState :=
  ({ d with sw := { d.sw with cells := Tab.put 0 d.sw.cells (4 * port + pool) (d.portCells port pool - n) } }).pauseCheck port

/-- A frame whose cells are already taken gets its descriptor. -/
def DieState.storeHeld (d : DieState) (f : SFrame) : Nat × DieState :=
  let n := d.sw.nextDesc
  (n, { d with sw := { d.sw with frames := Tab.insert d.sw.frames n f, nextDesc := n + 1, descUsed := d.sw.descUsed + 1 } })

/-- Stores a frame: a descriptor and its cells. -/
def DieState.storeFrame (d : DieState) (f : SFrame) : Nat × DieState := (d.takeCells f.port f.pool f.cells).storeHeld f

/-- Changes a stored frame. -/
def DieState.onFrame (d : DieState) (n : Nat) (g : SFrame → SFrame) : DieState :=
  match Tab.get? d.sw.frames n with
  | some f => { d with sw := { d.sw with frames := Tab.insert d.sw.frames n (g f) } }
  | none => d

/-- Releases one reference to a stored frame; at 0 its cells and descriptor are free (R213). -/
def DieState.releaseFrame (d : DieState) (n : Nat) : DieState :=
  match Tab.get? d.sw.frames n with
  | some f =>
    if f.refs ≤ 1 then
      ({ d with sw := { d.sw with frames := Tab.erase d.sw.frames n, descUsed := d.sw.descUsed - 1 } }).giveCells f.port f.pool f.cells
    else d.onFrame n fun f => { f with refs := f.refs - 1 }
  | none => d

/-- Frees the buffer that an engine frame holds (03 R71). -/
def DieState.freeEFrame (d : DieState) (f : EFrame) : DieState :=
  match f.desc with
  | some n => d.releaseFrame n
  | none => d

/-- A frame enters the lookup FIFO, or is dropped and counted at a full one (08 R207). -/
def DieState.lookupPush (d : DieState) (n : Nat) : DieState :=
  if d.sw.fifo.length < 512 then { d with sw := { d.sw with fifo := d.sw.fifo ++ [n] } }
  else (d.releaseFrame n).cnt swcLkpDrop

/-! ### The engine view of field-bus frames (03 Table 3.5) -/

/-- FMT of a frame. -/
def fmtCode (f : BusFmt) : Nat :=
  match f with
  | .cc => 0
  | .fd => 1
  | .xl => 2
  | .lin => 3

/-- The format of an FMT value; 4 to 255 never appear. -/
def fmtOf (n : Nat) : Option BusFmt :=
  match n with
  | 0 => some .cc
  | 1 => some .fd
  | 2 => some .xl
  | 3 => some .lin
  | _ => none

/-- The payload a frame shows: a classical remote frame shows DLEN zero bytes (06 R152). -/
def shownOf (f : BusFrame) : List Byte :=
  if f.fmt = .cc ∧ f.rtr then List.replicate (min f.dlc 8) 0 else f.data

/-- The 16-byte header of Table 3.5. -/
def headerOf (f : BusFrame) (ch : Nat) : List Byte :=
  leBytes 4 (f.id.toNat + (if f.ide then 536870912 else 0) + (if f.rtr then 1073741824 else 0))
    ++ [BitVec.ofNat 8 (fmtCode f.fmt), f.flags] ++ leBytes 2 (shownOf f).length ++ [f.sdt, f.vcid, BitVec.ofNat 8 ch, 0]
    ++ leBytes 4 f.af.toNat

/-- The engine view of a frame. -/
def imageOf (f : BusFrame) (ch : Nat) : List Byte := headerOf f ch ++ shownOf f

/-- Byte `i` of a frame, 0 beyond its end. -/
def byteAt (bs : List Byte) (i : Nat) : Byte := bs.getD i 0

/-- The little-endian number of bytes `i` to `i + n - 1`. -/
def leAt (bs : List Byte) (i n : Nat) : Nat := leNat ((List.range n).map fun k => byteAt bs (i + k))

/-- The big-endian number of bytes `i` to `i + n - 1`. -/
def beAt (bs : List Byte) (i n : Nat) : Nat := beNat ((List.range n).map fun k => byteAt bs (i + k))

/-- DLEN of a field-bus image. -/
def imageDlen (bs : List Byte) : Nat := leAt bs 6 2

/-- The frame that a field-bus image stands for: bytes that DLEN reaches beyond the image are 0x00 (04 R95). The format
byte must be one of Table 3.5. -/
def frameOfImage (bs : List Byte) (fmt : BusFmt) (n : Nat) : BusFrame :=
  let w := leAt bs 0 4
  let remote := fmt = .cc ∧ w.testBit 30
  { id := BitVec.ofNat 29 w, ide := w.testBit 29, rtr := w.testBit 30, fmt := fmt, flags := byteAt bs 5, dlc := n,
    sdt := byteAt bs 8, vcid := byteAt bs 9, af := BitVec.ofNat 32 (leAt bs 12 4),
    data := if remote then [] else (List.range n).map fun k => byteAt bs (16 + k) }

/-- A frame enters the route pipeline's FIFO, or is dropped and counted at a full one (05 R132). -/
def DieState.routePush (d : DieState) (f : RFrame) : DieState :=
  if d.fences.contains 73 then d.cnt evtResetLoss 0 9 else
  if d.rte.fifo.length < 256 then { d with rte := { d.rte with fifo := d.rte.fifo ++ [f] } } else d.cnt brgPipeDrop

/-! ### Engine events (03 R56, R58) -/

/-- A cluster. -/
def DieState.cluster (d : DieState) (cl : Nat) : Cluster := d.eng.cls.toList.getD cl {}

/-- Changes a cluster. -/
def DieState.onCluster (d : DieState) (cl : Nat) (g : Cluster → Cluster) : DieState :=
  { d with eng := { d.eng with cls := d.eng.cls.setIfInBounds cl (g (d.cluster cl)) } }

/-- A handler-table entry is usable in a set (03 R59). -/
def DieState.usable (d : DieState) (tag cl entry : Nat) : Bool :=
  d.bitAs tag fkeHtAValid cl entry && decide (d.rdAs tag fkeHtALock cl entry ≠ 3)
    && decide (d.rdAs tag fkeHtAEntry cl entry < d.rdAs tag fkeCodeTop cl)

/-- FORWARD sends a frame unchanged to the lookup it would have met with no handler bound (03 R77): the direct-route
lookup for field buses, the forwarding lookup for Ethernet, as it arrived. -/
def DieState.forwardFrame (d : DieState) (f : EFrame) : DieState :=
  match f.kind with
  | .can =>
    let bf := frameOfImage f.orig ((fmtOf (byteAt f.orig 4).toNat).getD .cc) (imageDlen f.orig)
    d.routePush { ch := f.ingress, frame := bf, stamp := f.stamp, pos := f.pos, tag := f.tag, origin := f.origin }
  | .lin =>
    let bf := frameOfImage f.orig .lin (imageDlen f.orig)
    d.routePush { ch := 32 + f.ingress, frame := bf, stamp := f.stamp, pos := f.pos, tag := f.tag, origin := f.origin }
  | .eth =>
    let sf : SFrame :=
      { bytes := f.orig, port := f.ingress, pool := d.rd ethRxcAPool f.ingress 0, cells := cellsOf f.orig.length,
        ingress := f.ingress, refs := 1, rxPos := f.pos, stamp := f.stamp, tag := f.tag, origin := f.origin, noEng := true }
    let p := (d.freeEFrame f).storeFrame sf
    p.2.lookupPush p.1
  | .made => d.freeEFrame f

/-- Disposal of a frame by POLICY: DROP frees it, FORWARD sends it on. -/
def DieState.disposeFrame (d : DieState) (f : EFrame) (forward : Bool) : DieState :=
  if forward then d.forwardFrame f else d.freeEFrame f

/-- An event that cannot be queued is disposed of at once and counted (R58); reasons 1 queue full, 2 not running, 3
fenced, 4 hall off. -/
def DieState.disposeEvent (d : DieState) (cl : Nat) (e : EngEvent) (reason : Nat) : DieState × List Eff :=
  let d1 := if reason = 4 then d.cnt fkeAsleepDrop else d.cnt fkeEvqDrop cl
  let d2 :=
    match e.frame with
    | some f => d1.disposeFrame f (d.bitAs e.tag fkeHtAPolicy cl e.entry)
    | none => d1
  let (d3, r) := d2.takeSeq { code := 0x0710, unit := cl, info := e.entry + reason * 256 + e.unit % 256 * 65536 }
  (d3, [.ev r])

/-- Nanoseconds that an event of a cluster waits before it may be dispatched (17 R441, event delay). -/
def DieState.evDelay (d : DieState) (cl entry : Nat) : Nat :=
  if d.bit prtEvdAll 0 cl || decide (d.rd prtEvdEntry 0 cl = entry) then d.rd prtEvdDelay 0 cl else 0

/-- An event enters its cluster's event queue, or is disposed of (R56, R58). It is tagged with the active set (R59). -/
def DieState.enqueueEvent (d : DieState) (cl : Nat) (e0 : EngEvent) : DieState × List Eff :=
  let e := { e0 with tag := d.gen, readyAt := d.now + d.evDelay cl e0.entry }
  let c := d.cluster cl
  if !d.hallOn (hallOfCluster cl) then d.disposeEvent cl e 4
  else if c.fenced then d.disposeEvent cl e 3
  else if !(d.rd fkeRun).testBit cl || !d.usable d.gen cl e.entry then d.disposeEvent cl e 2
  else if 4096 ≤ c.evq.length then d.disposeEvent cl e 1
  else
    ((d.onCluster cl fun c => { c with evq := c.evq ++ [e] }).peak fkeEvqLevelPeak (c.evq.length + 1) cl, [])

/-! ### What a happening sets off, to its end -/

/-- One effect: an event record is delivered, an engine event enqueued. -/
def DieState.effect (d : DieState) (e : Eff) : DieState × List Eff :=
  match e with
  | .ev r => if d.hallOn .host then d.deliver r else (d, [])
  | .eng cl e => d.enqueueEvent cl e

/-- Effects in order, with what they set off in turn. Hold-offs and the rise of NOTE bound the chain (13 R351, R353). -/
def DieState.settle (fuel : Nat) (d : DieState) (es : List Eff) : DieState :=
  match fuel with
  | 0 => d
  | k + 1 =>
    match es with
    | [] => d
    | e :: r =>
      let p := d.effect e
      DieState.settle k p.1 (r ++ p.2)

/-- Raises an event of the die (02 R53). -/
def DieState.raise (d : DieState) (code : Nat) (info : Nat := 0) (unit : Nat := 0) (id : Nat := 0) (sec : Bool := false)
    (hi : Nat := 0) : DieState :=
  let p := d.takeSeq { code := code, id := id, sec := sec, addrHi := hi, info := info % 2 ^ 32, unit := unit }
  p.1.settle 256 [.ev p.2]

/-- Raises an event at most once per `lim` ns in a scope (02 R462). -/
def DieState.raiseHeld (d : DieState) (code scope lim : Nat) (info : Nat := 0) (unit : Nat := 0) : DieState :=
  if d.held code scope lim then d else (d.startHold code scope).raise code info unit

/-- Power states of a die (15 Table 15.2): it runs, it is stopped in Doze, or it is in Rest. -/
def DieState.inDoze (d : DieState) : Bool := !d.pow.stopped.isEmpty

/-- WAKE is raised once the die runs, with the latched causes (15 R409). -/
def DieState.woken (d : DieState) : DieState := d.raise 0x0101 (d.rd pwrWakeCause)

/-- A wake source fires (15 R397, R399, R409): it is latched; an enabled one ends Doze, abandons an entry to Rest whose HOST
supply still stands, or in Rest is kept for the Newel, which starts the exit. -/
def DieState.wakeDie (d : DieState) (src : Nat) : DieState :=
  let d1 := d.wr pwrWakeCause (Nat.lor (d.rd pwrWakeCause) (2 ^ src))
  if !(d.rd pwrWakeEn).testBit src then d1
  else if d.inDoze then ({ d1 with pow := { d1.pow with stopped := [] } }).woken
  else if d.rd pwrStateCur = 2 ∨ d.rd pwrStateCur = 3 then
    (((d1.wr pwrStateCur 0).wr pwrStateResult 3).cnt pwrCntAborts).raise 0x0103 (d1.rd pwrWakeCause)
  else if d.rd pwrStateCur = 1 ∨ !d.pow.alive then { d1 with pow := { d1.pow with wakeHit := true } }
  else d1

/-- Raises an engine event on a cluster. -/
def DieState.engineEvent (d : DieState) (cl : Nat) (e : EngEvent) : DieState := d.settle 256 [.eng cl e]

/-- A producer writes a record into a queue block, whole or not at all (13 R351). -/
def DieState.qbWrite (d : DieState) (n : Nat) (ws : List Word) : Bool × DieState :=
  let p := d.qbOffer n ws
  (p.1, p.2.1.settle 256 p.2.2)

/-! ### Completions (02 R39) -/

/-- The access completes with a status and a value; every status but OKAY raises the SYS event of its name. -/
def DieState.complete (d : DieState) (req : Requester) (addr : Nat) (st : Status) (v : Nat := 0) : DieState :=
  let d1 := { d with bus := { d.bus with resp := { status := st, value := v } } }
  if st = .okay then d1
  else d1.raise (0x000F + st.code) (addr % 2 ^ 32) 0 (reqId req) (d.secure req) (addr / 2 ^ 32)

/-- An access whose answer is outstanding waits for it (02 R40): its number, and the die with the access listed. -/
def DieState.waitAcc (d : DieState) (req : Requester) (addr : Nat) (write : Bool) : Nat × DieState :=
  let n := d.bus.nextTag
  (n, { d with bus := { d.bus with
    waiting := d.bus.waiting ++ [{ req := req, addr := addr, write := write, since := d.now, tag := n }], nextTag := n + 1 } })

/-- A response after the timeout is discarded: its address and requester are captured and the event raised (02 R40). -/
def DieState.lateCapture (d : DieState) (p : PendAcc) : DieState :=
  let d1 := if d.bit sysLateAddrHiValid then d.wr sysLateAddrHiOvf 1 else d
  (((((d1.wr sysLateAddrLo p.addr).wr sysLateAddrHiAddr (p.addr / 2 ^ 32)).wr sysLateAddrHiId (reqId p.req)).wr sysLateAddrHiOrigin
    (reqOrigin p.req)).wr sysLateAddrHiValid 1).raise 0x0017 (p.addr % 2 ^ 32) 0 (reqId p.req) (d.secure p.req) (p.addr / 2 ^ 32)

/-- The answer of an outstanding access arrives: it completes, or comes too late. -/
def DieState.answerAcc (d : DieState) (tag : Nat) (st : Status) (v : Nat := 0) : DieState :=
  match d.bus.waiting.find? fun p => decide (p.tag = tag) with
  | none => d
  | some p =>
    let d1 := { d with bus := { d.bus with waiting := d.bus.waiting.filter fun q => decide (q.tag ≠ tag) } }
    if p.timedOut then d1.lateCapture p else d1.complete p.req p.addr st v

/-! ### Register accesses (02 R36 to R52, 00 R8) -/

/-- The address of a register. -/
def regAddr (blk off : Nat) : Nat := 0x40000000 + blk * 0x100000 + off

/-- The six windowed blocks (02 Table 2.5). -/
def windowed (blk : Nat) : Bool := blk = 2 || blk = 3 || blk = 4 || blk = 7 || blk = 13 || blk = 14

/-- Secure-only targets (02 R44). -/
def secureOnly (blk ch off : Nat) : Bool :=
  let o := off % 0x80000
  match blk with
  | 0 => decide (0x10 ≤ o) && decide (o ≤ 0xFF)
  | 13 => decide (0x100 ≤ o) && decide (ch < 8)
  | 1 => true
  | 11 => true
  | 12 => true
  | 15 => true
  | 16 => true
  | 17 => true
  | 18 => true
  | 19 => true
  | 20 => true
  | _ => false

/-- The hall that answers for a register (02 Table 2.5 and the text after it; 03 R80; 07 R203; the seal unit of CIP,
chapter 11). -/
def hallOfReg (blk ch off : Nat) : Hall :=
  let o := off % 0x80000
  if blk = 7 ∧ 0x100 ≤ o ∧ 16 ≤ ch then .engB
  else if blk = 11 ∧ 0x1000 ≤ o ∧ o < 0x3000 then .bus
  else if blk = 4 ∧ 0x3C0 ≤ o ∧ o ≤ 0x3D0 then .phy
  else hallOfBlock blk

/-- The fence number of the cluster that a unit of a class belongs to (01 R14, R15): eight CAN channels, eight LIN
channels, the ports of one speed class. -/
def fenceOf (blk ch : Nat) : Nat :=
  match blk with
  | 2 => 16 + ch / 8
  | 3 => 24
  | 4 => if ch ≤ 5 then 32 else if ch ≤ 13 then 33 else if ch ≤ 21 then 34 else if ch ≤ 25 then 35 else 36
  | _ => 0

/-- The channel under which the register file holds a register: the requester's copy, the cluster of an engine, or the
selected channel (02 R41, R42; 03 R80; 13 R355). -/
def regChan (blk ch copy off : Nat) : Nat :=
  let o := off % 0x80000
  if windowed blk then
    if o = 0 then copy
    else if o < 0x100 then 0
    else if blk = 7 ∧ 0x800 ≤ o then ch / 8
    else if blk = 14 ∧ 0x140 ≤ o ∧ o < 0x180 then ch + 64 * copy
    else ch
  else if blk = 8 ∧ 0x200 ≤ o ∧ o ≤ 0x230 then copy
  else if blk = 6 ∧ 0x200 ≤ o ∧ o < 0x228 then copy
  else if blk = 11 ∧ 0x40 ≤ o ∧ o ≤ 0x64 then copy
  else 0

/-- The fields of a register, with their array indices. -/
def fieldsAt (blk off : Nat) : List (Fld × Nat × Nat) :=
  (blockFields blk).filterMap fun f => (f.at? (off % 0x80000)).map fun p => (f, p)

/-- The registers `DRK.DBG_*`, which answer requester 31 whatever its attribute (11 R311). -/
def debugOff (blk off : Nat) : Bool := blk = 12 && decide (0x80 ≤ off) && decide (off < 0x120)

/-- Debug has no grant: every access of requester 31 but to `DRK.DBG_*` completes with SECURE_VIOLATION (11 R311). -/
def DieState.debugShut (d : DieState) (req : Requester) : Bool := decide (req = .debug) && decide (d.rd drkDbgStatGranted = 0)

/-- The status with which a register access of a requester begins: OKAY lets it act. -/
def DieState.regStatus (d : DieState) (req : Requester) (blk ch off : Nat) (write : Bool) : Status :=
  if 20 < blk then .decodeError
  else if d.debugShut req && !debugOff blk off then .secureViolation
  else if secureOnly blk ch off && !d.secure req && !(decide (req = .debug) && debugOff blk off) then .secureViolation
  else if blk = 13 ∧ write ∧ 0x100 ≤ off % 0x80000 ∧ off % 0x80000 < 0x110 ∧ !d.secure req then .secureViolation
  else if !d.hallUp (hallOfReg blk ch off) then .hallAsleep
  else if d.fences.contains (64 + blk) then .clusterFenced
  else if d.fences.contains 41 && decide (blk = 5) then .clusterFenced
  else if d.fences.contains (fenceOf blk ch) && windowed blk && decide (0x100 ≤ off % 0x80000) then .clusterFenced
  else if (fieldsAt blk off).isEmpty || decide (0x100000 ≤ off) then .decodeError
  else if write ∧ 0x80000 ≤ off then .decodeError
  else .okay

/-- The commit machine takes staged writes (02 R51): it is in IDLE, DONE or REFUSED. -/
def DieState.commitOpen (d : DieState) : Bool :=
  let st := d.rd sysCommitStatState
  st = 0 || st = 4 || st = 5

/-- KIND of P_26 to P_28 reads 0x7 and ignores writes (07 Table 7.1). -/
def fixedField (f : Fld) (ch : Nat) : Bool := f.blk = 4 && f.off = 0x100 && f.lo = 0 && decide (26 ≤ ch)

/-- The ARG values that an ACTION of a cue takes (10 Table 10.4, R271). -/
def cueArgOk (action arg : Nat) : Bool :=
  match action with
  | 0 => arg = 0
  | 1 => decide (arg < 1024)
  | 2 => decide (arg % 32 ≤ 25) && decide (arg < 256)
  | 3 => decide (arg ≤ 25)
  | 4 => decide (arg < 1024)
  | 5 => decide (arg < 512)
  | 6 => decide (arg < 32)
  | _ => decide (arg < 4)

/-- ARG of a cue under a value outside the ranges of the ACTION written with it (10 R271). -/
def cueArgBad (f : Fld) (v : Word) : Bool :=
  f.blk = 10 && f.off = 0x10000 && f.lo = 16 && !cueArgOk (v.toNat / 8 % 8) (f.ofWord v)

/-- One field under a write of its register (00 R8): a reserved or out-of-range value leaves it unchanged. -/
def DieState.writeField (d : DieState) (f : Fld) (ch i j : Nat) (v : Word) : DieState :=
  let x := f.ofWord v
  if fixedField f ch || cueArgBad f v then d else
  match f.acs with
  | .rw => if f.accepts x then d.wr f x ch i j else d
  | .w1c => d.wr f (d.rd f ch i j - (d.rd f ch i j &&& x)) ch i j
  | .rws => if d.commitOpen && f.accepts x then d.stage f x ch i j else d
  | .ro => d
  | .wo => d
  | .rc => d

/-- A perturbation register is closed to writes (17 R439, R440). -/
def DieState.prtShut (d : DieState) (blk off : Nat) : Bool := blk = 19 && decide (0x100 ≤ off) && !d.bit prtStatOpen

/-- A write that the closed PRT block refuses (17 R439). -/
def DieState.prtDenied (d : DieState) (off : Nat) : DieState := (d.cnt prtStatDenied).raiseHeld 0x1311 0 1000000 off

/-- All fields of a register under a write; a register with RWS fields written while the commit machine is busy counts in
LATE_WR and raises COMMIT_LATE_WRITE once (02 R51). A closed perturbation register takes nothing. -/
def DieState.writeFields (d : DieState) (blk ch off : Nat) (v : Word) : DieState :=
  let d0 := if blk = 19 ∧ off ≠ 4 then { d with guard := { d.guard with half := none } } else d
  if d.prtShut blk off then d0.prtDenied off else
  let fs := fieldsAt blk off
  let d1 := fs.foldl (fun d p => d.writeField p.1 ch p.2.1 p.2.2 v) d0
  if !d.commitOpen && fs.any (fun p => decide (p.1.acs = .rws)) then
    (d1.cnt sysCommitSeqLateWr).raise 0x0004 (regAddr blk off)
  else d1

/-- A register write (02 R38, R39): refused with its status, or its fields take the value by their types and then the
register acts on the written value. `blocked` is a further refusal with DECODE_ERROR that the register's chapter gives. -/
def DieState.writeReg (d : DieState) (req : Requester) (blk ch off : Nat) (v : Word) (act : DieState → DieState)
    (blocked : Bool := false) : DieState :=
  match d.regStatus req blk ch off true with
  | .okay =>
    if blocked then d.complete req (regAddr blk off) .decodeError
    else act ((d.complete req (regAddr blk off) .okay).writeFields blk (regChan blk ch (reqCopy req) off) off v)
  | st => d.complete req (regAddr blk off) st

/-- A register read with a value and an effect of its own (02 R36, R39): refused with its status and the value 0, or it
returns the value and has the effect. -/
def DieState.readReg (d : DieState) (req : Requester) (blk ch off : Nat) (value : DieState → Nat) (act : DieState → DieState) :
    DieState :=
  match d.regStatus req blk ch off false with
  | .okay => act (d.complete req (regAddr blk off) .okay (value d))
  | st => d.complete req (regAddr blk off) st

end Sys2Proof.Machine
end

