-- ==== Sys2Proof/Machine/Bus.lean ====
section
/-! DEFINITION. Machine/Bus.lean: bus timeouts and late responses, hardware semaphores, and event records that arrive from
the other die (02 R40, R45 to R47, R54). -/

namespace Sys2Proof.Machine

/-- An access to a register whose write or read has a meaning of its own in place of its fields' types: refused with its
status, or performed. -/
def DieState.actReg (d : DieState) (req : Requester) (blk ch off : Nat) (write : Bool) (value : Nat) (act : DieState → DieState) :
    DieState :=
  match d.regStatus req blk ch off write with
  | .okay => act (d.complete req (regAddr blk off) .okay value)
  | st => d.complete req (regAddr blk off) st

/-! ### Semaphores -/

/-- Owner ID + 1 of a semaphore, 0 when it is free. -/
def DieState.sem (d : DieState) (n : Nat) : Nat := d.rd sysSemPeekValue 0 n

/-- The requester owns the semaphore: an owner of the remote die by ID 17 and its originating ID. -/
def DieState.ownsSem (d : DieState) (r : Requester) (n : Nat) : Bool :=
  decide (d.sem n = reqId r + 1) && decide (d.rd sysSemPeekOrigin 0 n = reqOrigin r)

/-- A free semaphore is granted; the arbiter's pointer moves behind the winner (R46, 01 R14). -/
def DieState.semGrant (d : DieState) (r : Requester) (n : Nat) : DieState :=
  let d1 := (d.wr sysSemPeekValue (reqId r + 1) 0 n).wr sysSemPeekOrigin (reqOrigin r) 0 n
  { d1 with bus := { d1.bus with semPtr := (reqId r + 1) % 32 } }

/-- A semaphore becomes free. -/
def DieState.semFree (d : DieState) (n : Nat) : DieState := (d.wr sysSemPeekValue 0 0 n).wr sysSemPeekOrigin 0 0 n

/-- A write to SEM_n (R45). -/
def DieState.semWrite (d : DieState) (r : Requester) (n : Nat) (v : Word) : DieState :=
  if v = 0 ∧ d.ownsSem r n then d.semFree n else d.raise 0x0021 (n + v.toNat % 2 ^ 24 * 256) 0 (reqId r) (d.secure r)

/-- A read of SEM_n (R45): the owner + 1, or 0 and the grant. -/
def DieState.semRead (d : DieState) (req : Requester) (n : Nat) : DieState :=
  d.readReg req 0 0 (0x100 + 4 * n) (fun d => d.sem n) fun d' => if d.sem n = 0 then d'.semGrant req n else d'

/-- A held semaphore is released without its owner's write, with SEM_FORCED (R47). -/
def DieState.semForced (d : DieState) (n : Nat) : DieState :=
  if d.sem n = 0 then d
  else (d.semFree n).raise 0x0020 (n + (d.sem n - 1) * 256 + d.rd sysSemPeekOrigin 0 n * 65536)

/-- Loss of the Stairwell link releases every semaphore of the remote die (R47). -/
def DieState.semLinkLost (d : DieState) : DieState :=
  (List.range 64).foldl (fun d n => if d.sem n = 18 then d.semForced n else d) d

/-- SEM_CLAIM. -/
def execSemClaim (a : Acc) (n : Fin 64) (s : State) : Host.Outcome State Fault Refusal := s.doOn a.die fun d => d.semRead a.req n

/-- SEM_RELEASE. -/
def execSemRelease (a : Acc) (n : Fin 64) (v : Word) (s : State) : Host.Outcome State Fault Refusal :=
  s.doOn a.die fun d => d.actReg a.req 0 0 (0x100 + 4 * n) true 0 fun d => d.semWrite a.req n v

/-- SEM_FORCE. -/
def execSemForce (a : Acc) (n : Fin 64) (s : State) : Host.Outcome State Fault Refusal :=
  s.doOn a.die fun d => d.writeReg a.req 0 0 0xFC (BitVec.ofNat 32 n) fun d => d.semForced n

/-! ### Timeouts (R40) -/

/-- The oldest access of a requester that waits, timed out or not. -/
def DieState.oldestAcc (d : DieState) (r : Requester) (late : Bool) : Option PendAcc :=
  d.bus.waiting.find? fun p => decide (p.req = r) && decide (p.timedOut = late)

/-- BUS_TIMEOUT: the oldest access of a host core, PCIe or debug that has waited LIMIT completes with TIMEOUT; its response,
should it still come, will be late. -/
def execBusTimeout (a : Acc) (s : State) : Host.Outcome State Fault Refusal :=
  s.doOn a.die fun d =>
    match d.oldestAcc a.req false with
    | none => d
    | some p =>
      if p.since + 1000 * d.rd sysBusTmo ≤ d.now then
        ({ d with bus := { d.bus with
            waiting := d.bus.waiting.map fun (q : PendAcc) => if q.tag = p.tag then { q with timedOut := true } else q } }).complete p.req p.addr .timeout
      else d

/-- LATE_RESPONSE: the response of the requester's oldest timed-out access arrives and is discarded. -/
def execLateResponse (a : Acc) (s : State) : Host.Outcome State Fault Refusal :=
  s.doOn a.die fun d =>
    match d.oldestAcc a.req true with
    | none => d
    | some p => ({ d with bus := { d.bus with waiting := d.bus.waiting.filter fun q => decide (q.tag ≠ p.tag) } }).lateCapture p

/-! ### Records from the other die (R54) -/

/-- EVENT_REMOTE_ARRIVE: the record at the front of the VC_0 landing is delivered under this die's own route. -/
def execEventRemoteArrive (d : Die) (s : State) : Host.Outcome State Fault Refusal :=
  s.doOn d fun d =>
    match d.stw.landing.get (0 : Fin 4) with
    | .event r :: _ => (d.popLanding 0).settle 256 [.ev { r with remote := true }]
    | _ => d

end Sys2Proof.Machine
end

