-- ==== Sys2Proof/Machine/Operands.lean ====
section
/-! DEFINITION. Machine/Operands.lean: the operand forms of the Forrek instructions (chapter 4): general registers,
immediates, data-memory addresses, bit fields of frames and registers, CRCs. -/

namespace Sys2Proof.Machine

/-! ### CRCs (04 R96) -/

/-- Eight shifts of a CRC that works most significant bit first. -/
def crcShiftMsb (top mask poly : Nat) (n c : Nat) : Nat :=
  match n with
  | 0 => c
  | n + 1 => crcShiftMsb top mask poly n (if Nat.land c top = 0 then Nat.land (2 * c) mask else Nat.land (Nat.xor (2 * c) poly) mask)

/-- One byte of `crc8` (polynomial 0x2F). -/
def crc8Byte (c : Nat) (b : Byte) : Nat := crcShiftMsb 0x80 0xFF 0x2F 8 (Nat.xor c b.toNat)

/-- `crc8` over bytes. -/
def crc8Of (seed : Nat) (bs : List Byte) : Nat := bs.foldl crc8Byte seed

/-- One byte of `crc16` (polynomial 0x1021). -/
def crc16Byte (c : Nat) (b : Byte) : Nat := crcShiftMsb 0x8000 0xFFFF 0x1021 8 (Nat.xor c (b.toNat * 256))

/-- `crc16` over bytes. -/
def crc16Of (seed : Nat) (bs : List Byte) : Nat := bs.foldl crc16Byte seed

/-- Shifts of the reflected Castagnoli CRC. -/
def crc32cShift (n c : Nat) : Nat :=
  match n with
  | 0 => c
  | n + 1 => crc32cShift n (if c % 2 = 1 then Nat.xor (c / 2) 0x82F63B78 else c / 2)

/-- `crc32c` over bytes (polynomial 0x1EDC6F41, reflected), without final inversion. -/
def crc32cOf (seed : Nat) (bs : List Byte) : Nat :=
  bs.foldl (fun c b => crc32cShift 8 (Nat.xor c b.toNat)) seed

/-- CRC-32C with seed 0xFFFF_FFFF and no final inversion: the form of 09 R235 and 12 Table 12.4. -/
def crc32c (bs : List Byte) : Nat := crc32cOf 0xFFFFFFFF bs

/-- CRC-32C in its standard form, with final inversion: the flow-lock hash (03 R60; DEDUCED, log 14). -/
def crc32cStd (bs : List Byte) : Nat := 0xFFFFFFFF - crc32c bs

/-! ### Contexts and general registers (04 R82) -/

/-- The number of a context on its die: 4·engine + context. -/
def ctxNum (c : Ctx) : Nat := 4 * c.eng.val + c.ctx.val

/-- The context of a number. -/
def DieState.ctx (d : DieState) (n : Nat) : Context := Tab.get {} d.eng.ctxs n

/-- Puts a context back. -/
def DieState.setCtx (d : DieState) (n : Nat) (x : Context) : DieState :=
  { d with eng := { d.eng with ctxs := Tab.insert d.eng.ctxs n x } }

/-- A general register: w0 reads as 0. -/
def Context.gr (x : Context) (r : Nat) : Word := if r = 0 then 0 else x.w.toList.getD r 0

/-- Writes a general register: a write to w0 is discarded. -/
def Context.setGr (x : Context) (r : Nat) (v : Word) : Context := if r = 0 then x else { x with w := x.w.setIfInBounds r v }

/-- The group of `n` registers from `r` on. -/
def Context.group (x : Context) (r n : Nat) : List Word := (List.range n).map fun i => x.gr (r + i)

/-- Writes a group of registers from `r` on. -/
def Context.setGroup (x : Context) (r : Nat) (vs : List Word) : Context :=
  match vs with
  | [] => x
  | v :: t => (x.setGr r v).setGroup (r + 1) t

/-- A register group stays within w15 (04 R82). -/
def groupOk (r n : Nat) : Bool := decide (r + n ≤ 16)

/-- A 16-bit immediate, sign-extended. -/
def sext16 (imm : BitVec 16) : Word := imm.signExtend 32

/-- A 16-bit immediate, zero-extended. -/
def zext16 (imm : BitVec 16) : Word := imm.zeroExtend 32

/-- The target of a branch: (pc + sext(OFF)) mod 32,768 (04 R106). -/
def branchTarget (pc off : BitVec 15) : BitVec 15 := pc + off

/-! ### Data memory (04 R91, 03 Table 3.4) -/

/-- The data-memory address of a load or store, or none when it is out of bounds or not aligned. -/
def dataAddr (base : Word) (imm : BitVec 16) (width : Nat) : Option Nat :=
  let ea := (base + sext16 imm).toNat
  if ea < 0x3400 ∧ ea % width = 0 then some ea else none

/-- Where an engine address of a context lies in the engine's 16 KB (03 Table 3.4). -/
def dataOffset (ctx ea : Nat) : Nat := if 0x3000 ≤ ea then ea + 0x400 * ctx else ea

/-- Bytes of a context's data memory from an engine address on. -/
def DieState.dataBytes (d : DieState) (c : Ctx) (ea n : Nat) : List Byte :=
  (List.range n).map fun i => d.eng.data.byte (16384 * c.eng.val + dataOffset c.ctx.val (ea + i))

/-- Writes bytes of a context's data memory; the range lies in one part of Table 3.4. -/
def DieState.setData (d : DieState) (c : Ctx) (ea : Nat) (bs : List Byte) : DieState :=
  { d with eng := { d.eng with data := d.eng.data.setBytes (16384 * c.eng.val + dataOffset c.ctx.val ea) bs } }

/-! ### Bit fields (04 R92, R93) -/

/-- Stream bit `k` of bytes: `be` numbers each byte from its most significant bit. -/
def streamBit (bs : List Byte) (o : BitOrder) (k : Nat) : Bool :=
  let b := (byteAt bs (k / 8)).toNat
  match o with
  | .le => b.testBit (k % 8)
  | .be => b.testBit (7 - k % 8)

/-- The field of width `w` at `pos`: for `le` bit `pos` is its least significant bit, for `be` its most significant. -/
def fieldOf (bs : List Byte) (o : BitOrder) (pos w : Nat) : Nat :=
  match o with
  | .le => (List.range w).foldr (fun i a => 2 * a + (if streamBit bs o (pos + i) then 1 else 0)) 0
  | .be => (List.range w).foldl (fun a i => 2 * a + (if streamBit bs o (pos + i) then 1 else 0)) 0

/-- Sets stream bit `k`. -/
def setStreamBit (bs : List Byte) (o : BitOrder) (k : Nat) (v : Bool) : List Byte :=
  let n := match o with
    | .le => k % 8
    | .be => 7 - k % 8
  let b := (byteAt bs (k / 8)).toNat
  let b' := b - (if b.testBit n then 2 ^ n else 0) + (if v then 2 ^ n else 0)
  bs.set (k / 8) (BitVec.ofNat 8 b')

/-- Writes the field of width `w` at `pos`; all other bits stay. -/
def setFieldOf (bs : List Byte) (o : BitOrder) (pos w : Nat) (v : Nat) : List Byte :=
  (List.range w).foldl (fun bs i =>
    setStreamBit bs o (pos + i) (match o with
      | .le => v.testBit i
      | .be => v.testBit (w - 1 - i))) bs

/-- A register as four bytes, byte 0 = bits [7:0]. -/
def regBytes (v : Word) : List Byte := leBytes 4 v.toNat

/-- The frame in fd. -/
def Context.frame (x : Context) : Option EFrame :=
  match x.fd with
  | some n => (x.held.find? fun p => p.1 = n).map Prod.snd
  | none => none

/-- Changes the frame in fd. -/
def Context.onFd (x : Context) (g : EFrame → EFrame) : Context :=
  match x.fd with
  | some n => { x with held := x.held.map fun p => if p.1 = n then (n, g p.2) else p }
  | none => x

/-- Takes the frame in fd out of the list of held frames. -/
def Context.dropFd (x : Context) : Context :=
  match x.fd with
  | some n =>
    { x with held := x.held.filter (fun p => decide (p.1 ≠ n)), fd := none,
             arrived := if x.arrived = some n then none else x.arrived }
  | none => x

/-- The 32-bit value of a frame register: a descriptor, or 0xFFFF_FFFF (04 Table 4.1). -/
def fdWord (n : Option Nat) : Word :=
  match n with
  | some n => Config.descriptor n
  | none => 0xFFFFFFFF

/-- The bytes that a field at `pos` of width `w` from the cursor touches lie within the frame (R93). -/
def fieldFits (f : EFrame) (cur pos w : Nat) : Bool := decide (cur + (pos + w - 1) / 8 < f.bytes.length)

end Sys2Proof.Machine
end

