-- ==== Sys2Proof/Machine/Phase.lean ====
section
/-! DEFINITION. Machine/Phase.lean: phase inputs and their trackers (chapter 10, R263 to R267). -/

namespace Sys2Proof.Machine

/-- A phase input. -/
def DieState.phase (d : DieState) (k : Nat) : Phase := d.tim.ph.toList.getD k {}

/-- Changes a phase input. -/
def DieState.onPhase (d : DieState) (k : Nat) (g : Phase → Phase) : DieState :=
  { d with tim := { d.tim with ph := d.tim.ph.setIfInBounds k (g (d.phase k)) } }

/-- Changes a base. -/
def DieState.onBase (d : DieState) (n : Nat) (g : TBase → TBase) : DieState :=
  { d with tb := d.tb.setIfInBounds n (g (d.base n)) }

/-- θ in whole angle units: its state keeps units of 2^-32. -/
def Phase.units (x : Phase) : Int := x.theta / 2 ^ 32

/-- θ + AOFS of a base, in whole angle units (R267). -/
def DieState.baseAngle (d : DieState) (n : Nat) (x : Phase) : Int := x.units + d.rd timTbAofs 0 n

/-- A base that an input drives follows a movement of θ: ANGLE, and COUNT by the carries and borrows (R258, R267). A base
that follows the other die is driven by it alone (R281). -/
def DieState.follow (d : DieState) (k : Nat) (x y : Phase) (n : Nat) : DieState :=
  if d.isAngle n ∧ d.rd timTbCfgSrc 0 n = k ∧ !d.bit timStatFollowing then
    let a := d.baseAngle n x
    let b := d.baseAngle n y
    d.onBase n fun t =>
      { t with count := (t.count + (b / 2 ^ 32 - a / 2 ^ 32)) % 2 ^ 32 |>.toNat, angle := (b % 2 ^ 32).toNat }
  else d

/-- The phase input takes a new state, and every base it drives follows. -/
def DieState.setPhase (d : DieState) (k : Nat) (y : Phase) : DieState :=
  let x := d.phase k
  (List.range 8).foldl (fun d n => d.follow k x y n) (d.onPhase k fun _ => y)

/-- A phase input is enabled. -/
def DieState.phaseEn (d : DieState) (k : Nat) : Bool := d.bit timPhCfgEn 0 k

/-- The signed 32-bit difference of an angle and a position. -/
def angleDiff (m : Nat) (u : Int) : Int := (BitVec.ofNat 32 m - BitVec.ofInt 32 u).toInt

/-- The measurement rate in hertz from the measurement stamps, newest first (R265). -/
def measRate (ts : List Nat) : Rat :=
  match ts with
  | [] => 0
  | t :: r => (r.length * 1000000000 : Rat) / ((max 1 (t - r.getLastD t) : Nat) : Rat)

/-- BW_EFF of a phase input (R265). -/
def DieState.bwEff (d : DieState) (k : Nat) (ts : List Nat) : Rat := min (d.rd timPhBwBw 0 k : Rat) (measRate ts / 20)

/-- BWLIM and BW_EFF as the registers show them; entry into the limit raises PH_BWLIMIT (R265). -/
def DieState.noteBw (d : DieState) (k : Nat) (bw : Rat) : DieState :=
  let hz := bw.floor.toNat
  let lim : Bool := decide (bw < (d.rd timPhBwBw 0 k : Rat))
  let d1 := (d.wr timPhStatBwEff hz 0 k).wr timPhStatBwlim (if lim then 1 else 0) 0 k
  if lim && !d.bit timPhStatBwlim 0 k then d1.raise 0x0A05 hz k else d1

/-- The first measurement after OFF or LOST: θ moves to the nearest position of angle `m`, the rate is 0 (R266). -/
def DieState.acquire (d : DieState) (k m te : Nat) : DieState :=
  let x := d.phase k
  let u := x.units
  (d.setPhase k { x with theta := (u + angleDiff m u) * 2 ^ 32, omega := 0, lastM := m, lastT := te, stamps := [te], since := 1 }).wr
    timPhStatState 1 0 k

/-- The second measurement: ω from the two measurements and their stamps; a PULSE input has moved one period in the
direction of the last ω (R266). Two measurements with one stamp leave ω open. -/
def DieState.acquireRate (d : DieState) (k m te : Nat) : DieState :=
  let x := d.phase k
  let dm : Int := if d.rd timPhCfgMode 0 k = 2 then (if x.back then -(2 ^ 32) else 2 ^ 32) else angleDiff m x.lastM
  let w := if te = x.lastT then d.freshVal.toInt else dm * 2 ^ 32 / ((te : Int) - x.lastT)
  let d1 := if te = x.lastT then d.drawn else d
  d1.setPhase k { x with omega := w, back := decide (w < 0), lastM := m, lastT := te, stamps := te :: x.stamps, since := 2 }

/-- A measurement in TRACK: the loop of R265. -/
def DieState.track (d : DieState) (k m te : Nat) : DieState :=
  let x := d.phase k
  let ts := (te :: x.stamps).take 17
  let bw := d.bwEff k ts
  let e := angleDiff m ((x.theta - x.omega * ((d.now : Int) - te)) / 2 ^ 32)
  let dt := te - x.lastT
  let w := x.omega + Config.trackOmega e bw dt
  (d.setPhase k { x with theta := x.theta + Config.trackTheta e bw dt, omega := w, back := decide (w < 0), lastM := m, lastT := te,
                         stamps := ts, since := x.since + 1 }).noteBw k bw

/-- A measurement `m` stamped `te` (R265, R266). -/
def DieState.measure (d : DieState) (k m te : Nat) : DieState :=
  if d.rd timPhStatState 0 k = 2 then d.track k m te
  else if d.rd timPhStatState 0 k = 1 then
    if (d.phase k).since = 1 then d.acquireRate k m te
    else ((d.wr timPhStatState 2 0 k).raise 0x0A04 0 k).track k m te
  else d.acquire k m te

/-- The tracker goes to OFF with θ held; the QUAD count restarts, not aligned (R263, R266). -/
def DieState.phaseOff (d : DieState) (k : Nat) : DieState :=
  let x := d.phase k
  (((d.setPhase k { x with omega := 0, back := false, qcount := 0, stamps := [], since := 0 }).wr timPhStatState 0 0 k).wr
    timPhStatAligned 0 0 k).wr timPhStatBwlim 0 0 k

/-- The step of the QUAD count for a change of (A, B): A leading B counts +1; 0 when both have changed (R263). -/
def quadStep (a b a' b' : Bool) : Int :=
  if a ≠ a' ∧ b ≠ b' then 0
  else if a ≠ a' then (if a' = b then -1 else 1)
  else if b ≠ b' then (if b' = a then 1 else -1)
  else 0

/-- A quadrature edge (R263, R264): a skipped state counts in EDGE_OVR. -/
def DieState.quadEdge (d : DieState) (k : Nat) (a' b' : Bool) (age : Nat) : DieState :=
  let x := d.phase k
  let y : Phase := { x with a := a', b := b' }
  if x.a = a' ∧ x.b = b' then d
  else if x.a ≠ a' ∧ x.b ≠ b' then (d.onPhase k fun _ => y).cnt timPhEdgeOvr 0 k
  else
    let st := quadStep x.a x.b a' b'
    let c := x.qcount + if d.bit timPhCfgInv 0 k then -st else st
    let m := c * 2 ^ 32 / (d.rd timPhCpr 0 k : Int) % 2 ^ 32
    ((d.onPhase k fun _ => { y with qcount := c }).cnt timPhEdges 0 k).measure k m.toNat (d.now - age)

/-- A rising index edge (R263): the first aligns the count, each later one is judged; the count is 0. -/
def DieState.indexEdge (d : DieState) (k : Nat) : DieState :=
  let x := d.phase k
  let r := x.qcount % (d.rd timPhCpr 0 k : Int)
  let bad : Bool := decide (1 < r) && decide (r < (d.rd timPhCpr 0 k : Int) - 1)
  let d1 := if d.bit timPhStatAligned 0 k then (if bad then d.cnt timPhZErr 0 k else d) else d.wr timPhStatAligned 1 0 k
  d1.onPhase k fun x => { x with qcount := 0 }

/-- The sixth of the period that a Hall state begins (R263): none for 000 and 111. -/
def hallState (u v w : Bool) : Option Nat :=
  match u, v, w with
  | true, false, false => some 0
  | true, true, false => some 1
  | false, true, false => some 2
  | false, true, true => some 3
  | false, false, true => some 4
  | true, false, true => some 5
  | _, _, _ => none

/-- A change of the Hall sensors (R263). -/
def DieState.hallChange (d : DieState) (k : Nat) (u v w : Bool) (age : Nat) : DieState :=
  match hallState u v w with
  | none => d.cnt timPhHallBad 0 k
  | some s =>
    let x := d.phase k
    if x.a = u ∧ x.b = v ∧ x.z = w then d
    else
      let s' := if d.bit timPhCfgInv 0 k then (6 - s) % 6 else s
      ((d.onPhase k fun x => { x with a := u, b := v, z := w }).cnt timPhEdges 0 k).measure k (s' * 2 ^ 32 / 6) (d.now - age)

/-- The phase inputs in MSG mode that an applied update of a Gallery slot measures (R263). -/
def DieState.phaseUpdate (d : DieState) (h value stamp : Nat) : DieState :=
  (List.range 4).foldl (fun d k =>
    if d.phaseEn k ∧ d.rd timPhCfgMode 0 k = 3 ∧ d.rd timPhMsgHandle 0 k = h then
      d.measure k value ((d.now : Int) - stampDiff (d.stamp (d.rd timPhMsgReftb 0 k)) stamp).toNat
    else d) d

/-! ### The commands -/

/-- A command of a phase input in a mode: the input is enabled and runs in that mode. -/
def DieState.inMode (d : DieState) (k mode : Nat) : Bool := d.phaseEn k && decide (d.rd timPhCfgMode 0 k = mode)

/-- PHASE_QUAD_EDGE: the filtered levels of A and B, the edge stamped `age` ns ago. -/
def execPhaseQuadEdge (d : Die) (k : Fin 4) (levelA levelB : Bool) (age : Nat) (s : State) : Host.Outcome State Fault Refusal :=
  s.doOn d fun d => if d.inMode k 0 then d.quadEdge k levelA levelB age else d

/-- PHASE_INDEX_EDGE. -/
def execPhaseIndexEdge (d : Die) (k : Fin 4) (s : State) : Host.Outcome State Fault Refusal :=
  s.doOn d fun d => if d.inMode k 0 then d.indexEdge k else d

/-- PHASE_HALL_CHANGE. -/
def execPhaseHallChange (d : Die) (k : Fin 4) (u v w : Bool) (age : Nat) (s : State) : Host.Outcome State Fault Refusal :=
  s.doOn d fun d => if d.inMode k 1 then d.hallChange k u v w age else d

/-- PHASE_PULSE_EDGE. -/
def execPhasePulseEdge (d : Die) (k : Fin 4) (age : Nat) (s : State) : Host.Outcome State Fault Refusal :=
  s.doOn d fun d => if d.inMode k 2 then (d.cnt timPhEdges 0 k).measure k 0 (d.now - age) else d

/-- PHASE_LOSS_TIMEOUT (R266): no measurement for LOSS µs. -/
def execPhaseLossTimeout (d : Die) (k : Fin 4) (s : State) : Host.Outcome State Fault Refusal :=
  s.doOn d fun d =>
    let st := d.rd timPhStatState 0 k
    if d.phaseEn k ∧ (st = 1 ∨ st = 2) ∧ (d.phase k).lastT + 1000 * d.rd timPhBwLoss 0 k ≤ d.now then
      (((d.setPhase k { d.phase k with omega := 0 }).wr timPhStatState 3 0 k).cnt timPhLosses 0 k).raise 0x0A03 0 k
    else d

end Sys2Proof.Machine
end

