-- ==== Sys2Proof/Machine/Engine.lean ====
section
/-! DEFINITION. Machine/Engine.lean: the engines around their instructions (chapter 3): dispatch, flow locks, the end of an
invocation, aborts, timers, cluster reset. -/

namespace Sys2Proof.Machine

/-- The cluster of a context number. -/
def ctxCluster (n : Nat) : Nat := n / 32

/-- The engine of a context number. -/
def ctxEngine (n : Nat) : Nat := n / 4

/-- Causes of an abort (03 Table 3.8). -/
inductive Cause where
  | exposure
  | residence
  | memBound
  | cursorEnd
  | badOpcode
  | galProtect
  | trap (code : Nat)
  | allocFail
  | badEmit
  deriving DecidableEq, Repr

/-- The CAUSE number. -/
def Cause.num (c : Cause) : Nat :=
  match c with
  | .exposure => 1
  | .residence => 2
  | .memBound => 3
  | .cursorEnd => 4
  | .badOpcode => 5
  | .galProtect => 6
  | .trap _ => 7
  | .allocFail => 8
  | .badEmit => 9

/-- TRAPCODE of a cause. -/
def Cause.code (c : Cause) : Nat :=
  match c with
  | .trap k => k
  | _ => 0

/-! ### Flow locks (R60 to R62) -/

/-- The lock that an event takes under the set it is tagged with (R60). -/
def DieState.lockOf (d : DieState) (cl : Nat) (e : EngEvent) : Option Nat :=
  match d.rdAs e.tag fkeHtALock cl e.entry with
  | 1 =>
    let key := if e.typ = 0 then e.key else BitVec.ofNat 8 e.cls :: leBytes 4 e.w1
    some (crc32cStd key % 1024)
  | 2 => some (d.rdAs e.tag fkeHtALockidx cl e.entry)
  | _ => none

/-- A lock of a cluster is free. -/
def Cluster.lockFree (c : Cluster) (l : Option Nat) : Bool :=
  match l with
  | none => true
  | some k => (Tab.get? c.locks k).isNone

/-- The lock that an invocation holds is free again. -/
def DieState.unlock (d : DieState) (n : Nat) : DieState :=
  match (d.ctx n).lock with
  | some k =>
    (d.onCluster (ctxCluster n) fun c => { c with locks := Tab.erase c.locks k }).setCtx n
      { d.ctx n with lock := none, relReq := false }
  | none => d.setCtx n { d.ctx n with relReq := false }

/-! ### Ordering points (R61, R69) -/

/-- Frames emitted through the lookup by a context that have not been looked up yet; `early` takes those before `rel` only. -/
def DieState.emitsOpen (d : DieState) (n : Nat) (early : Bool) : Bool :=
  d.sw.frames.any fun e => decide (e.2.inv = some (2 * n)) || (!early && decide (e.2.inv = some (2 * n + 1)))

/-- Gallery writes of a context that the Gallery has not applied. -/
def DieState.putsOpen (d : DieState) (n : Nat) : Bool :=
  (d.gal.req ++ d.gal.pipe).any fun r => decide (r.ctx = some n)

/-- The frames and Gallery writes of an invocation that is gone no longer name its context. -/
def DieState.disown (d : DieState) (n : Nat) : DieState :=
  { d with
    sw := { d.sw with
      frames := d.sw.frames.map fun e =>
        if e.2.inv = some (2 * n) ∨ e.2.inv = some (2 * n + 1) then (e.1, { e.2 with inv := none }) else e }
    gal := { d.gal with
      req := d.gal.req.map fun r => if r.ctx = some n then { r with ctx := none } else r
      pipe := d.gal.pipe.map fun r => if r.ctx = some n then { r with ctx := none } else r } }

/-! ### The end of an invocation -/

/-- The context is free; PEAK of its engine keeps the highest instruction count (Table 3.10). -/
def DieState.freeCtx (d : DieState) (n : Nat) : DieState :=
  let d1 := ((d.unlock n).peak fkePeak (d.ctx n).count (ctxEngine n)).disown n
  { d1 with eng := { d1.eng with ctxs := Tab.erase d1.eng.ctxs n } }

/-- A held frame is freed and counted in the consumed counter of P_27 (R71). -/
def DieState.consume (d : DieState) (f : EFrame) : DieState :=
  let d1 := d.freeEFrame f
  { d1 with eng := { d1.eng with consumed := d1.eng.consumed + 1 } }

/-- Frees frames. -/
def DieState.freeFrames (d : DieState) (fs : List EFrame) : DieState := fs.foldl (fun d f => d.freeEFrame f) d

/-- The abort counter of a cause (Table 3.11). -/
def DieState.countAbort (d : DieState) (cl : Nat) (cause : Cause) : DieState :=
  if cause.num = 1 then d.cnt fkeAbortsExposure cl else d.cnt fkeAbortsOther cl

/-- EXC_INFO and EXC_PC capture an abort, and its event is raised (R77, Table 3.12). -/
def DieState.captureAbort (d : DieState) (n : Nat) (cause : Cause) : DieState :=
  let x := d.ctx n
  let cl := ctxCluster n
  let e := ctxEngine n % 8
  let k := n % 4
  ((((((((d.countAbort cl cause).wr fkeExcInfoCause cause.num cl).wr fkeExcInfoEngine e cl).wr fkeExcInfoContext k cl).wr
    fkeExcInfoEntry x.entry cl).wr fkeExcInfoValid 1 cl).wr fkeExcPcPc x.pc.toNat cl).wr fkeExcPcTrapcode cause.code cl).raise
    (0x0700 + cause.num) (x.pc.toNat + e * 2 ^ 15 + k * 2 ^ 18 + x.entry * 2 ^ 20) cl

/-- An invocation ends with a cause other than a normal end (R77, R78): its lock and context are free once its emits are in order. -/
def DieState.abort (d : DieState) (n : Nat) (cause : Cause) : DieState :=
  let x := d.ctx n
  let cl := ctxCluster n
  let others := x.held.filter fun p => decide (x.arrived ≠ some p.1)
  let arrived := x.held.filter fun p => decide (x.arrived = some p.1)
  let d1 := d.freeFrames (others.map Prod.snd)
  let fwd := d.bitAs x.tag fkeHtAPolicy cl x.entry && !x.released
  let d2 := arrived.foldl (fun d p => if fwd then d.forwardFrame p.2 else d.consume p.2) d1
  let d3 := d2.captureAbort n cause
  if d3.emitsOpen n false then
    d3.setCtx n { d3.ctx n with held := [], fd := none, arrived := none, tags := Vector.replicate 4 .free, state := .ending }
  else d3.freeCtx n

/-- `end`: held frames are freed and counted, tags are freed; the lock and the context wait for R61. -/
def DieState.endInv (d : DieState) (n : Nat) : DieState :=
  let x := d.ctx n
  let d1 := x.held.foldl (fun d p => d.consume p.2) d
  d1.setCtx n { x with held := [], fd := none, arrived := none, tags := Vector.replicate 4 .free, state := .ending }

/-- LOCK_RELEASE: the lock of a context that has executed `rel` or `end`, once every earlier emit is in order (R61). -/
def DieState.lockRelease (d : DieState) (n : Nat) : DieState :=
  let x := d.ctx n
  if x.state = .ending then (if d.emitsOpen n false then d else d.freeCtx n)
  else if x.relReq then (if d.emitsOpen n true then d else d.unlock n)
  else d

/-! ### Dispatch (R56, R57) -/

/-- The lowest free context of an engine. -/
def DieState.freeContext (d : DieState) (eng : Nat) : Option Nat :=
  ([0, 1, 2, 3].map fun k => 4 * eng + k).find? fun n => decide ((d.ctx n).state = .free)

/-- The position of a round-robin arbiter with `m` positions that wins: the first that requests from the pointer on (01 R14). -/
def arbiter (m ptr : Nat) (req : Nat → Bool) : Option Nat :=
  ((List.range m).map fun i => (ptr + i) % m).find? req

/-- The oldest event that may be dispatched, with its lock; a lock that an older waiting event names keeps later ones. -/
def DieState.pickEvent (d : DieState) (cl : Nat) (es : List EngEvent) (seen : List Nat) : Option (EngEvent × Option Nat) :=
  match es with
  | [] => none
  | e :: r =>
    let l := d.lockOf cl e
    let kept := match l with
      | some k => seen.contains k
      | none => false
    if (d.cluster cl).lockFree l && !kept && decide (e.readyAt ≤ d.now) then some (e, l)
    else DieState.pickEvent d cl r (match l with
      | some k => k :: seen
      | none => seen)

/-- ev at dispatch (Table 3.2). -/
def EngEvent.word (e : EngEvent) : Word := BitVec.ofNat 32 (e.typ + e.entry * 256 + e.unit % 256 * 65536 + e.cls * 2 ^ 24)

/-- The registers of a context at dispatch (Table 3.2). -/
def DieState.bind (d : DieState) (cl : Nat) (e : EngEvent) (lock : Option Nat) (fd : Nat) : Context :=
  { state := .ready,
    w := ((Vector.replicate 16 (0 : Word)).set 1 (BitVec.ofNat 32 e.w1)).set 2 (BitVec.ofNat 32 e.w2),
    pc := BitVec.ofNat 15 (d.rdAs e.tag fkeHtAEntry cl e.entry),
    fd := e.frame.map fun _ => fd,
    ev := e.word,
    fl := match lock with
      | some k => BitVec.ofNat 16 (k + 2 ^ 15)
      | none => 0,
    held := match e.frame with
      | some f => [(fd, f)]
      | none => [],
    arrived := e.frame.map fun _ => fd,
    entry := e.entry, tag := e.tag, since := d.now, lock := lock, cls := e.cls, unit := e.unit, origin := e.origin }

/-- EVENT_DISPATCH. -/
def DieState.dispatch (d : DieState) (cl : Nat) : DieState :=
  let c := d.cluster cl
  if !d.hallOn (hallOfCluster cl) || c.fenced then d
  else
    match d.pickEvent cl c.evq [], arbiter 8 c.ptr fun e => (d.freeContext (8 * cl + e)).isSome with
    | some (e, lock), some g =>
      match d.freeContext (8 * cl + g) with
      | some n =>
        let fd := d.eng.nextFd
        let x := d.bind cl e lock fd
        let d1 := d.onCluster cl fun c =>
          { c with evq := c.evq.erase e, ptr := (g + 1) % 8,
                   locks := match lock with
                     | some k => Tab.insert c.locks k n
                     | none => c.locks }
        (({ d1 with eng := { d1.eng with nextFd := fd + 1 } }).setCtx n x).cnt fkeInvoked (8 * cl + g)
      | none => d
    | _, _ => d

/-! ### Timers (R73) -/

/-- A timer fires: one event of TYPE 3, and it disarms. -/
def DieState.timerFire (d : DieState) (t : Nat) : DieState :=
  match Tab.get? d.eng.timers t with
  | none => d
  | some x =>
    if 0 ≤ stampDiff (d.stamp (d.rd fkeEtRangeTb x.cluster)) x.deadline.toNat then
      let d1 := { d with eng := { d.eng with timers := Tab.erase d.eng.timers t } }
      d1.engineEvent x.cluster
        { typ := 3, entry := x.entry, cls := 7, unit := t, w1 := t, w2 := x.deadline.toNat,
          origin := 0x81 * 2 ^ 56 + t * 2 ^ 32 + x.deadline.toNat }
    else d

/-! ### Unit resets and cluster resets (01 R13, R80; 17 R428) -/

/-- A unit reset has lost `n` items. -/
def DieState.unitReset (d : DieState) (cls unit n : Nat) : DieState :=
  (d.cnt evtResetLoss 0 cls 0 n).raise 0x1403 (cls + unit * 256 + min n 65535 * 65536) unit

/-- The bound contexts of a cluster. -/
def DieState.boundCtxs (d : DieState) (cl : Nat) : List Nat :=
  ((List.range 32).map fun i => 32 * cl + i).filter fun n => decide ((d.ctx n).state ≠ .free)

/-- A bound context ends without disposal: its frames are freed and counted. -/
def DieState.wipeCtx (d : DieState) (n : Nat) : DieState :=
  let d1 := (d.ctx n).held.foldl (fun d p => d.consume p.2) d
  let d2 := (d1.unlock n).disown n
  { d2 with eng := { d2.eng with ctxs := Tab.erase d2.eng.ctxs n } }

/-- The counters of a cluster and its engines are 0. -/
def DieState.clearClusterCounters (d : DieState) (cl : Nat) : DieState :=
  let d1 := ((((d.wr fkeEvqLevelPeak 0 cl).wr fkeEvqDrop 0 cl).wr fkeAbortsExposure 0 cl).wr fkeAbortsOther 0 cl)
  (List.range 8).foldl (fun d e => ((d.wr fkeIssued 0 (8 * cl + e)).wr fkeInvoked 0 (8 * cl + e)).wr fkePeak 0 (8 * cl + e)) d1

/-- A cluster is reset (R80): contexts end, queued events are disposed of as for a cluster that does not run, locks, tags and
counters clear, the fence is left. -/
def DieState.clusterReset (d : DieState) (cl : Nat) : DieState :=
  let cs := d.boundCtxs cl
  let es := (d.cluster cl).evq
  let d1 := (cs.foldl (fun d n => d.wipeCtx n) d).clearClusterCounters cl
  let d2 := (d1.onCluster cl fun c => { c with evq := [], locks := [], fenced := false }).wr fkeClStatFenced
    (d1.rd fkeClStatFenced - (if d1.rd fkeClStatFenced |>.testBit cl then 2 ^ cl else 0))
  let d3 := es.foldl (fun d e => let p := d.disposeEvent cl e 2; p.1.settle 256 p.2) d2
  d3.unitReset 7 cl (cs.length + es.length)

/-! ### The commands -/

/-- EVENT_DISPATCH (R56). -/
def execEventDispatch (d : Die) (cl : Fin 4) (s : State) : Host.Outcome State Fault Refusal :=
  s.doOn d fun d => d.dispatch cl

/-- RESIDENCE_EXPIRY (R76). -/
def execResidenceExpiry (c : Ctx) (s : State) : Host.Outcome State Fault Refusal :=
  s.doOn c.die fun d =>
    let n := ctxNum c
    let x := d.ctx n
    if x.state ≠ .free ∧ x.state ≠ .ending ∧ x.since + 1000 * d.rdAs x.tag fkeReside (ctxCluster n) ≤ d.now then d.abort n .residence
    else d

/-- LOCK_RELEASE (R61). -/
def execLockRelease (c : Ctx) (s : State) : Host.Outcome State Fault Refusal :=
  s.doOn c.die fun d => d.lockRelease (ctxNum c)

/-- CONTEXT_WAIT_END (04 R108). -/
def execContextWaitEnd (c : Ctx) (s : State) : Host.Outcome State Fault Refusal :=
  s.doOn c.die fun d =>
    let n := ctxNum c
    let x := d.ctx n
    match x.state with
    | .waitPost => if d.emitsOpen n false || d.putsOpen n then d else d.setCtx n { x with state := .ready }
    | .waitTime t =>
      if 0 ≤ stampDiff (d.stamp (d.rdAs x.tag fkeEtRangeTb (ctxCluster n))) t.toNat then d.setCtx n { x with state := .ready } else d
    | _ => d

/-- ENGINE_TIMER_FIRE (R73). -/
def execEngineTimerFire (d : Die) (t : Fin 256) (s : State) : Host.Outcome State Fault Refusal :=
  s.doOn d fun d => d.timerFire t

/-- The address of a word in the engine code window (02 Table 2.1). -/
def codeAddr (cl index : Nat) : Nat := 0x30000000 + 0x20000 * cl + 4 * index

/-- ENGINE_CODE_WRITE (R65): the word takes effect for every fetch after it. -/
def execEngineCodeWrite (a : Acc) (cl : Fin 4) (index : BitVec 15) (w : Word) (s : State) : Host.Outcome State Fault Refusal :=
  s.doOn a.die fun d =>
    let ad := codeAddr cl index.toNat
    if d.debugShut a.req then d.complete a.req ad .secureViolation
    else if !d.hallOn (hallOfCluster cl) then d.complete a.req ad .hallAsleep
    else
      let d1 := d.complete a.req ad .okay
      { d1 with eng := { d1.eng with code := Tab.put 0 d1.eng.code (32768 * cl.val + index.toNat) w } }

/-- CLUSTER_RESET: a write of FKE.CL_RESET (R80). -/
def execClusterReset (a : Acc) (v : Word) (s : State) : Host.Outcome State Fault Refusal :=
  s.doOn a.die fun d => d.writeReg a.req 7 0 0x8 v fun d =>
    [0, 1, 2, 3].foldl (fun d cl => if v.getLsbD cl then d.clusterReset cl else d) d

end Sys2Proof.Machine
end

