-- ==== Sys2Proof/Machine/Flags.lean ====
section
/-! DEFINITION. Machine/Flags.lean: the flag computations of chapter 4 (Table 4.2) and the clamps that set SAT. -/

namespace Sys2Proof.Machine

/-- Bits of st (04 Table 4.2). -/
inductive StBit where
  | z
  | n
  | c
  | v
  | sat
  | hit
  | casok
  | fail
  | busy
  deriving DecidableEq, Repr

/-- The bit number. -/
def StBit.num (b : StBit) : Nat :=
  match b with
  | .z => 0
  | .n => 1
  | .c => 2
  | .v => 3
  | .sat => 4
  | .hit => 5
  | .casok => 6
  | .fail => 7
  | .busy => 8

/-- The mask of a bit of st. -/
def StBit.mask (b : StBit) : BitVec 16 := BitVec.ofNat 16 (2 ^ b.num)

/-- Sets or clears a bit of st. -/
def setSt (st : BitVec 16) (b : StBit) (v : Bool) : BitVec 16 := if v then st ||| b.mask else st &&& ~~~ b.mask

/-- Z and N of a result. -/
def flagsZN (st : BitVec 16) (r : Word) : BitVec 16 := setSt (setSt st .z (decide (r = 0))) .n r.msb

/-- Z, N, and the carry and overflow of `add` and `addi`. -/
def flagsAdd (st : BitVec 16) (a b : Word) : BitVec 16 :=
  let r := a + b
  setSt (setSt (flagsZN st r) .c (decide (2 ^ 32 ≤ a.toNat + b.toNat))) .v (decide (r.toInt ≠ a.toInt + b.toInt))

/-- Z, N, and the borrow and overflow of `sub`. -/
def flagsSub (st : BitVec 16) (a b : Word) : BitVec 16 :=
  let r := a - b
  setSt (setSt (flagsZN st r) .c (decide (a.toNat < b.toNat))) .v (decide (r.toInt ≠ a.toInt - b.toInt))

/-- SAT is sticky: set by a clamp that changed its operand, never cleared here. -/
def flagsSat (st : BitVec 16) (clamped : Bool) : BitVec 16 := if clamped then setSt st .sat true else st

/-- `sat_s(w, x)`. -/
def satS (w : Nat) (x : Int) : Int := max (-(2 ^ (w - 1))) (min x (2 ^ (w - 1) - 1))

/-- `sat_u(w, x)`. -/
def satU (w : Nat) (x : Int) : Int := max 0 (min x (2 ^ w - 1))

/-- The low 32 bits of an integer. -/
def lowWord (x : Int) : Word := BitVec.ofInt 32 x

/-- Lane 0 ([15:0]) and lane 1 ([31:16]) of a register, signed (R88). -/
def lane (v : Word) (i : Nat) : Int := ((v >>> (16 * i)).truncate 16 : BitVec 16).toInt

/-- A register of two lanes. -/
def lanes (l0 l1 : Int) : Word := (BitVec.ofInt 16 l1 : BitVec 16) ++ (BitVec.ofInt 16 l0 : BitVec 16)

end Sys2Proof.Machine
end

