-- ==== Sys2Proof/Machine/Gallery.lean ====
section
/-! DEFINITION. Machine/Gallery.lean: the Gallery (chapter 5, R112 to R126): slots, bindings, the write pipeline, the stamp
rule, watches, freshness marks, host puts and groups. -/

namespace Sys2Proof.Machine

/-! ### Slots -/

/-- A slot. -/
def DieState.galSlot (d : DieState) (h : Nat) : Slot := Tab.get {} d.gal.slots h

/-- Puts a slot back. -/
def DieState.setGalSlot (d : DieState) (h : Nat) (x : Slot) : DieState :=
  { d with gal := { d.gal with slots := Tab.put {} d.gal.slots h x } }

/-- The Gallery answers: its hall is on, it is not clearing (R113) and not fenced (01 R15). -/
def DieState.galOpen (d : DieState) : Bool := d.hallOn .engA && !d.bit galStat && !d.fences.contains 40

/-- The status of an access to the Gallery that it does not take. -/
def DieState.galShut (d : DieState) : Option Status :=
  if !d.hallOn .engA || d.bit galStat then some .hallAsleep
  else if d.fences.contains 40 then some .clusterFenced
  else none

/-- The bit of WR that a writer has, by its SOURCE (R115). -/
def writerBit (source : Nat) : Nat :=
  if source < 4 ∨ source = 31 then 0
  else if source = 16 then 1
  else if source = 17 then 2
  else if 8 ≤ source ∧ source ≤ 11 then source - 5
  else 7

/-- The arbiter position of a writer (04 R98). -/
def writerPos (source : Nat) : Nat :=
  if source < 4 ∨ source = 31 then 4
  else if source = 16 then 5
  else if source = 17 then 6
  else if 8 ≤ source ∧ source ≤ 11 then source - 8
  else 7

/-- The slots that a write writes, with what it puts into each. -/
def GalReq.handles (r : GalReq) : List Nat :=
  match r.op with
  | .put vals _ _ => (List.range vals.length).map fun i => r.handle + i
  | .add _ _ => [r.handle]
  | .cas _ _ _ => [r.handle]

/-- Write permission under the bindings and profiles of the instant (R116). -/
def DieState.galMay (d : DieState) (r : GalReq) : Bool :=
  r.handles.all fun h => (d.rd galProfB 0 (d.galSlot h).prof).testBit (writerBit r.source)

/-! ### Outcomes of host puts (R119, R121) -/

/-- RESULT values of HP_STAT and HG_STAT. -/
inductive PutRes where
  | done
  | stamp
  | denied
  | range
  deriving DecidableEq, Repr

/-- The RESULT number. -/
def PutRes.num (r : PutRes) : Nat :=
  match r with
  | .done => 1
  | .stamp => 2
  | .denied => 3
  | .range => 4

/-- The copy of HP_STAT and HG_STAT that a host write reports in. -/
def HostPut.copy (p : HostPut) : Nat := reqCopy p.req

/-- A host put or group has its outcome. A single put completes: OKAY when applied, DECODE_ERROR otherwise. -/
def DieState.hostOutcome (d : DieState) (r : GalReq) (res : PutRes) : DieState :=
  match r.host with
  | none => d
  | some p =>
    if r.group then (d.wr galHgStatResult res.num p.copy).wr galHgStatBusy 0 p.copy
    else
      let d1 := d.wr galHpStat res.num p.copy
      let st : Status := if res = .done then .okay else .decodeError
      if p.posted then d1
      else d1.answerAcc p.tag st

/-! ### The write pipeline (R116, 04 R98) -/

/-- The write has taken an entry: a put of a context lets it go on, an atomic holds it until its result is there. -/
def DieState.galResume (d : DieState) (r : GalReq) : DieState :=
  match r.ctx, r.op with
  | some n, .put _ _ _ => let x := d.ctx n; d.setCtx n { x with state := .ready, pc := x.pc + 1 }
  | _, _ => d

/-- A write takes an entry of the pipeline and is checked there (R116). A refused write of an engine ends its invocation. -/
def DieState.galEnter (d : DieState) (r : GalReq) : DieState :=
  if d.galMay r then
    let d1 := { d with gal := { d.gal with pipe := d.gal.pipe ++ [r] } }
    let d2 := (d1.peak galWpipePeak d1.gal.pipe.length).galResume r
    match r.host, r.group with
    | some p, true => d2.wr galHgStatBusy 0 p.copy
    | _, _ => d2
  else
    let d1 := d.cnt galDenied
    match r.ctx with
    | some n => d1.abort n .galProtect
    | none => d1.hostOutcome r .denied

/-- A write reaches the Gallery: into the pipeline, or to its arbiter position while all 32 entries are occupied. -/
def DieState.galIssue (d : DieState) (r : GalReq) : DieState :=
  if d.gal.pipe.length < 32 ∧ d.gal.req.isEmpty then d.galEnter r
  else
    let d1 := { d with gal := { d.gal with req := d.gal.req ++ [r] } }
    match r.host, r.group with
    | some p, true => d1.wr galHgStatBusy 1 p.copy
    | _, _ => d1

/-- The round-robin arbiter gives a free entry to the oldest request of the winning position (04 R98). -/
def DieState.galGrant (d : DieState) : DieState :=
  if 32 ≤ d.gal.pipe.length then d
  else
    match arbiter 8 d.gal.ptr fun p => d.gal.req.any fun r => decide (r.pos = p) with
    | none => d
    | some p =>
      match d.gal.req.find? fun r => decide (r.pos = p) with
      | none => d
      | some r => ({ d with gal := { d.gal with req := d.gal.req.erase r, ptr := (p + 1) % 8 } }).galEnter r

/-! ### Watches (R125, R126) -/

/-- The indices at which a one-dimensional field that resets to 0 is not 0, ascending. -/
def DieState.setIdx (d : DieState) (f : Fld) : List Nat :=
  d.regs.filterMap fun e =>
    if keyChan e.1 = 0 ∧ keyBlk e.1 = f.blk ∧ e.1 % 32 = f.lo then (f.at? (keyOff e.1)).map Prod.fst else none

/-- A value as a signed 32-bit number. -/
def int32 (v : Nat) : Int := (BitVec.ofNat 32 v).toInt

/-- ABOVE of a watch after a value: with the hysteresis of HYS below THR. -/
def DieState.aboveOf (d : DieState) (n : Nat) (v : Word) : Bool :=
  let thr := int32 (d.rd galGwB 0 n)
  if thr ≤ v.toInt then true else if v.toInt < thr - d.rd galGwCHys 0 n then false else d.bit galGwD 0 n

/-- A status change that MODE 3 reports: between FRESH and STALE or SUBST. -/
def statusTurn (a b : Nat) : Bool := (a = 1 && (b = 2 || b = 3)) || ((a = 2 || a = 3) && b = 1)

/-- A watch sees a change of its slot. -/
def DieState.watchOne (d : DieState) (n h : Nat) (old new : Slot) (update : Bool) (origin : Nat) : DieState :=
  let was := d.bit galGwD 0 n
  let is := d.aboveOf n new.value
  let d1 := d.wr galGwD (if is then 1 else 0) 0 n
  let edge := d.rd galGwCEdge 0 n
  let fire : Bool :=
    match d.rd galGwAMode 0 n with
    | 0 => update
    | 1 => update && decide (old.value ≠ new.value)
    | 2 => (!was && is && edge.testBit 0) || (was && !is && edge.testBit 1)
    | _ => statusTurn old.status new.status
  if fire then
    d1.engineEvent (d.rd galGwACluster 0 n)
      { typ := 1, entry := d.rd galGwAEntry 0 n, cls := 8, unit := n, w1 := h, w2 := new.value.toNat, origin := origin }
  else d1

/-- The enabled watches of a slot, ascending. -/
def DieState.watchesOf (d : DieState) (h : Nat) : List Nat :=
  (d.setIdx galGwAEn).filter fun n => decide (d.rd galGwAHandle 0 n = h)

/-- The watches of a slot see its change, in ascending index. -/
def DieState.watchSlot (d : DieState) (h : Nat) (old new : Slot) (update : Bool) (origin : Nat) : DieState :=
  (d.watchesOf h).foldl (fun d n => d.watchOne n h old new update origin) d

/-! ### Applying a write (R117, R118, R122) -/

/-- A slot passes the stamp rule. -/
def Slot.passes (x : Slot) (stamp : Word) : Bool := x.status = 0 || decide (0 ≤ (stamp - x.stamp).toInt)

/-- The deadline that an applied update sets (R122). -/
def DieState.setDeadline (d : DieState) (h : Nat) : DieState :=
  let t := d.rd galProfATmo 0 (d.galSlot h).prof
  { d with gal := { d.gal with
    deadline := if t = 0 then Tab.erase d.gal.deadline h else Tab.insert d.gal.deadline h (d.now + 1000 * t) } }

/-- One slot takes an update. -/
def DieState.galUpdate (d : DieState) (h : Nat) (v stamp : Word) (status source : Nat) : DieState :=
  let x := d.galSlot h
  (d.setGalSlot h { x with value := v, stamp := stamp, seq := (x.seq + 1) % 65536, status := status, source := source }).setDeadline h

/-- What follows an update of a slot: its watches, and the phase inputs in MSG mode (10 R263). -/
def DieState.galUpdated (d : DieState) (h : Nat) (old : Slot) (origin : Nat) : DieState :=
  let new := d.galSlot h
  (d.watchSlot h old new true origin).phaseUpdate h new.value.toNat new.stamp.toNat

/-- A put or group passes or is refused as a whole. -/
def DieState.galPut (d : DieState) (r : GalReq) (vals : List Word) (stamp : Word) (status : Nat) : DieState :=
  match r.handles.find? fun h => !(d.galSlot h).passes stamp with
  | some h =>
    let d1 := ((d.cnt galOldStamp).wr galOldLastHandle h).wr galOldLastWriter r.source
    (d1.raiseHeld 0x0801 0 1000000 (h + r.source * 65536)).hostOutcome r .stamp
  | none =>
    let olds := r.handles.map fun h => (h, d.galSlot h)
    let d1 := (r.handles.zip vals).foldl (fun d p => d.galUpdate p.1 p.2 stamp status r.source) d
    (olds.foldl (fun d p => d.galUpdated p.1 p.2 r.origin) d1).hostOutcome r .done

/-- The context of an atomic gets the old value and goes on; `ok` is CASOK of a compare-and-swap. -/
def DieState.galReturn (d : DieState) (r : GalReq) (rd : Nat) (old : Word) (ok : Option Bool) : DieState :=
  match r.ctx with
  | none => d
  | some n =>
    let x := d.ctx n
    let st := match ok with
      | some b => setSt x.st .casok b
      | none => x.st
    d.setCtx n { (x.setGr rd old) with state := .ready, pc := x.pc + 1, st := st }

/-- An atomic's write: STAMP stays. -/
def DieState.galAtomic (d : DieState) (r : GalReq) (v : Word) : DieState :=
  let old := d.galSlot r.handle
  (d.galUpdate r.handle v old.stamp 1 r.source).galUpdated r.handle old r.origin

/-- A write at the head of the pipeline is applied or refused. -/
def DieState.galApplyReq (d : DieState) (r : GalReq) : DieState :=
  match r.op with
  | .put vals stamp status => d.galPut r vals stamp status
  | .add rd a => let old := (d.galSlot r.handle).value; (d.galAtomic r (old + a)).galReturn r rd old none
  | .cas rd x y =>
    let old := (d.galSlot r.handle).value
    if old = x then (d.galAtomic r y).galReturn r rd old (some true) else d.galReturn r rd old (some false)

/-- GALLERY_WRITE_APPLY: the oldest write of the pipeline. -/
def DieState.galApply (d : DieState) : DieState :=
  if !d.galOpen then d
  else
    match d.gal.pipe with
    | [] => d
    | r :: t => ({ d with gal := { d.gal with pipe := t } }).galApplyReq r

/-! ### Freshness (R122 to R124) -/

/-- A slot whose deadline has passed is marked by the SUBST of its profile (Table 5.4). -/
def DieState.galMark (d : DieState) (h deadline : Nat) : DieState :=
  let x := d.galSlot h
  let sub := d.rd galProfASubst 0 x.prof
  let y : Slot :=
    { x with value := if sub = 1 then (d.galSlot x.subh).value else x.value, seq := (x.seq + 1) % 65536,
             status := if sub = 0 then 2 else 3, source := if sub = 0 then x.source else 0xFE }
  let d1 := ({ (d.setGalSlot h y) with gal := { (d.setGalSlot h y).gal with deadline := Tab.erase d.gal.deadline h } }).cnt galStaleCnt
  let late := ceilDiv (d.now - (deadline + 2000)) 1000
  let d2 := if late = 0 then d1 else (d1.peak galStaleLag late).raise 0x0802 late
  d2.watchSlot h x y false 0

/-- The deadline of a slot is the first one due: in deadline order, then handle order (R123). -/
def DieState.firstDue (d : DieState) (h t : Nat) : Bool :=
  d.gal.deadline.all fun e => decide (t < e.2) || (decide (t = e.2) && decide (h ≤ e.1))

/-! ### Bindings (R114) -/

/-- A binding is staged; a second one for the slot takes the place of the later write. -/
def DieState.stageBinding (d : DieState) (h v : Nat) : DieState :=
  { d with gal := { d.gal with bind := (d.gal.bind.filter fun e => decide (e.1 ≠ h)) ++ [(h, v % 2 ^ 24)] } }

/-- The staged bindings become active, in staging order. -/
def DieState.applyBindings (d : DieState) : DieState :=
  d.gal.bind.foldl (fun d e => d.setGalSlot e.1 { d.galSlot e.1 with subh := e.2 % 65536, prof := e.2 / 65536 % 256 }) d

/-- Address of a slot. -/
def slotAddr (h : Nat) : Nat := 0x20000000 + 16 * h

/-- A staged binding write of a requester (R114, R51): the status it completes with. -/
def DieState.bindingWrite (d : DieState) (req : Requester) (h v : Nat) : DieState :=
  let ad := slotAddr h + 12
  if d.debugShut req then d.complete req ad .secureViolation
  else if !d.secure req then d.complete req ad .secureViolation
  else
    match d.galShut with
    | some st => d.complete req ad st
    | none =>
      if !d.commitOpen then ((d.complete req ad .okay).cnt sysCommitSeqLateWr).raise 0x0004 ad
      else if 4096 ≤ d.gal.bind.length ∧ !(d.gal.bind.any fun e => decide (e.1 = h)) then
        (d.cnt galBindStatRefused).complete req ad .decodeError
      else (d.complete req ad .okay).stageBinding h v

/-! ### Host puts and groups (R119, R121) -/

/-- A host put that the Gallery takes: it completes when it has its outcome. -/
def DieState.hostPut (d : DieState) (req : Requester) (h : Nat) (v stamp : Word) (posted : Bool) (tag : Nat) : DieState :=
  let src := reqId req
  d.galIssue { pos := writerPos src, source := src, handle := h, op := .put [v] stamp 1,
               host := some { req := req, addr := slotAddr h, tag := tag, posted := posted } }

/-- A host put of a requester at its die. -/
def DieState.hostPutReq (d : DieState) (req : Requester) (h : Nat) (v stamp : Word) : DieState :=
  if d.debugShut req then d.complete req (slotAddr h) .secureViolation
  else
    match d.galShut with
    | some st => d.complete req (slotAddr h) st
    | none => let w := d.waitAcc req (slotAddr h) true; w.2.hostPut req h v stamp false w.1

/-- GO = 1 in HG_CTL. -/
def DieState.hostGroup (d : DieState) (req : Requester) : DieState :=
  let c := reqCopy req
  if d.bit galHgStatBusy c then d
  else
    let base := d.rd galHgCtlBase c
    let n := d.rd galHgCtlCount c + 1
    if 65536 < base + n then d.wr galHgStatResult PutRes.range.num c
    else
      let src := reqId req
      d.galIssue { pos := writerPos src, source := src, handle := base, group := true, host := some { req := req },
                   op := .put ((List.range n).map fun k => BitVec.ofNat 32 (d.rd galHgVal c k)) (BitVec.ofNat 32 (d.rd galHgStamp c)) 1 }

/-! ### The commands -/

/-- GALLERY_CLEAR_DONE (R113): 300 µs after the reset at the latest the slots are clear. -/
def execGalleryClearDone (d : Die) (s : State) : Host.Outcome State Fault Refusal :=
  s.doOn d fun d => if d.hallOn .engA then d.wr galStat 0 else d

/-- BINDING_WRITE (R114). -/
def execBindingWrite (a : Acc) (handle : BitVec 16) (v : Word) (s : State) : Host.Outcome State Fault Refusal :=
  s.doOn a.die fun d => d.bindingWrite a.req handle.toNat v.toNat

/-- GALLERY_PIPELINE_ENTRY (R116). -/
def execGalleryPipelineEntry (d : Die) (s : State) : Host.Outcome State Fault Refusal :=
  s.doOn d fun d => if d.galOpen then d.galGrant else d

/-- GALLERY_WRITE_APPLY (R117). -/
def execGalleryWriteApply (d : Die) (s : State) : Host.Outcome State Fault Refusal :=
  s.doOn d fun d => d.galApply

/-- HOST_PUT (R119). -/
def execHostPut (a : Acc) (handle : BitVec 16) (v stamp : Word) (s : State) : Host.Outcome State Fault Refusal :=
  s.doOn a.die fun d => d.hostPutReq a.req handle.toNat v stamp

/-- HOST_GROUP_WRITE: a write of GAL.HG_CTL (R121). -/
def execHostGroupWrite (a : Acc) (v : Word) (s : State) : Host.Outcome State Fault Refusal :=
  s.doOn a.die fun d => d.writeReg a.req 8 0 0x200 v fun d => if v.msb && d.galOpen then d.hostGroup a.req else d

/-- FRESHNESS_MARK (R122). -/
def execFreshnessMark (d : Die) (handle : BitVec 16) (s : State) : Host.Outcome State Fault Refusal :=
  s.doOn d fun d =>
    let h := handle.toNat
    match Tab.get? d.gal.deadline h with
    | some t => if d.galOpen ∧ t ≤ d.now ∧ d.firstDue h t then d.galMark h t else d
    | none => d

end Sys2Proof.Machine
end

