-- ==== Sys2Proof/Machine/Pair.lean ====
section
/-! DEFINITION. Machine/Pair.lean: what the pairing mode asks of an output or an input (chapter 12, R328 to R338):
suppression on a standby, notices, origin tags, the vote stage. -/

namespace Sys2Proof.Machine

/-- The pairing mode of the die: 0 Split, 1 Mirror, 2 Vote. -/
def DieState.pairMode (d : DieState) : Nat := d.rd stwPairMode

/-- ROLE: 0 none, 1 ACTIVE, 2 STANDBY, 3 VOTER, 4 JOINING. -/
def DieState.role (d : DieState) : Nat := d.rd stwPairStatRole

/-- The die drives no shared output: standby or joining (R326, R329), silent (R338), or its mode is not the Newel's
(R327). -/
def DieState.suppressed (d : DieState) : Bool :=
  d.role = 2 || d.role = 4 || d.bit stwPairStatSilent || (decide (d.pairMode ≠ d.rd stwPairStatMode))

/-- A handover has passed its cue and has not moved a shared channel yet (R332): 64 + a CAN channel, 128 + a LIN channel. -/
def DieState.heldBack (d : DieState) (u : Nat) : Bool := d.stw.hoAt.isSome && !d.stw.hoMoved.contains u

/-- A CAN channel on the shared transceivers (06 Table 6.1), in Mirror and Vote mode. -/
def DieState.sharedCan (d : DieState) (ch : Nat) : Bool := decide (d.pairMode ≠ 0) && decide (ch < 24)

/-- A LIN channel on the shared transceivers (06 R172). -/
def DieState.sharedLin (d : DieState) : Bool := decide (d.pairMode ≠ 0)

/-- The die votes its outputs: Vote mode, not degraded to a lone active die (R338). -/
def DieState.votes (d : DieState) : Bool := decide (d.pairMode = 2) && !d.bit stwPairStatDegraded

/-- The origin tag of an input (R328): the next sequence number of its origin. -/
def DieState.newOrigin (d : DieState) (origin unit : Nat) : Nat × DieState :=
  let k := origin * 65536 + unit
  let n := Tab.get 0 d.stw.iseq k
  (origin * 2 ^ 56 + unit % 65536 * 2 ^ 32 + n,
    { d with stw := { d.stw with iseq := Tab.insert d.stw.iseq k ((n + 1) % 2 ^ 32) } })

/-- The origin tag of an output: EIDX set. -/
def withEidx (origin eidx : Nat) : Nat := origin - origin / 2 ^ 48 % 256 * 2 ^ 48 + eidx % 256 * 2 ^ 48

/-- A completion notice of the active die (R330). -/
def DieState.notice (d : DieState) (lin : Bool) (ch origin status : Nat) : DieState :=
  if d.pairMode = 1 ∧ d.role = 1 ∧ d.linkUp then d.sendVc 0 (.notice lin ch origin status) else d

/-- The digests of two items are equal (R335, R336). -/
def VoteItem.agrees (a b : VoteItem) : Bool := a.tc = b.tc && a.len = b.len && a.crc = b.crc

/-- A mismatch: counted, raised with ISEQ; SILENT_LIMIT mismatches within 1 s silence the package (R338). -/
def DieState.voteMismatch (d : DieState) (origin : Nat) : DieState :=
  let d1 := (d.cnt stwCntVoteMismatch).raise 0x0F08 (origin % 2 ^ 32)
  let ms := d.now :: d1.stw.mismatch.filter fun t => decide (d.now < t + 1000000000)
  let d2 := { d1 with stw := { d1.stw with mismatch := ms } }
  let lim := d2.rd stwVoteSilentLimit
  if lim ≠ 0 ∧ lim ≤ ms.length ∧ !d2.bit stwPairStatSilent then
    (d2.wr stwPairStatSilent 1).raise 0x0F09 ms.length
  else d2

/-- What becomes of an output offered to the vote: dropped, waiting for its partner's digest, or matched from an instant. -/
inductive VoteRes where
  | drop
  | wait
  | match_ (at_ : Nat)
  deriving DecidableEq, Repr

/-- An output enters the vote (R335, R336): its digest goes to the other die; a digest that came before decides at once;
a full stage drops it. -/
def DieState.voteSubmit (d : DieState) (it : VoteItem) : VoteRes × DieState :=
  let d1 := if d.linkUp then d.sendVc 3 (.digest it.origin it.egress it.tc it.len it.crc it.stamp) else d
  match d1.stw.early.find? fun e => e.origin = it.origin ∧ e.egress = it.egress with
  | some e =>
    let d2 := { d1 with stw := { d1.stw with early := d1.stw.early.filter fun x => !(x.origin = it.origin && x.egress = it.egress) } }
    if it.agrees e then (.match_ (max it.stamp e.stamp + 2000), d2.cnt stwCntVoteMatch)
    else (.drop, d2.voteMismatch it.origin)
  | none =>
    if 4096 ≤ d1.stw.stage.length then (.drop, d1.cnt stwCntVoteFull)
    else
      let n := d1.stw.stage.length + 1
      (.wait, ({ d1 with stw := { d1.stw with stage := d1.stw.stage ++ [it] } }).peak stwVstagePeak n)

/-- The digest of a field-bus frame: the CRC-32C of its engine view with byte 10 set to 0 (12 Table 12.4). -/
def busDigest (f : BusFrame) : Word := BitVec.ofNat 32 (crc32c (imageOf f 0))

end Sys2Proof.Machine
end

