-- ==== Sys2Proof/Machine/Can.lean ====
section
/-! DEFINITION. Machine/Can.lean: the CAN controllers (chapter 6, R144 to R170): reception, filters and steering, the
transmit queue, retries and expiry, error states, sleep and wake, the time master. -/

namespace Sys2Proof.Machine

/-! ### Channels and their queues -/

/-- A channel. -/
def DieState.canCh (d : DieState) (ch : Nat) : CanChan := Tab.get {} d.can ch

/-- Changes a channel. -/
def DieState.onCan (d : DieState) (ch : Nat) (g : CanChan → CanChan) : DieState :=
  { d with can := Tab.insert d.can ch (g (d.canCh ch)) }

/-- STATE: 0 error active, 1 error passive, 2 bus-off, 3 asleep. -/
def DieState.canState (d : DieState) (ch : Nat) : Nat := d.rd canStatState ch

/-- The channel takes part on its bus: its hall is on, it is enabled, not fenced and not asleep. -/
def DieState.canLive (d : DieState) (ch : Nat) : Bool :=
  d.hallOn .bus && d.bit canCtrlEn ch && !d.fences.contains (fenceOf 2 ch) && decide (d.canState ch ≠ 3)

/-- Frame storage an entry takes (R156). -/
def txBytes (f : BusFrame) : Nat := 16 + 16 * ceilDiv f.data.length 16

/-- Frame storage in use. -/
def CanChan.bytes (c : CanChan) : Nat := c.q.foldl (fun a e => a + txBytes e.frame) 0

/-- Valid FD payload lengths (ISO 11898-1; R72, R130, R156). -/
def fdLengths : List Nat := [0, 1, 2, 3, 4, 5, 6, 7, 8, 12, 16, 20, 24, 32, 48, 64]

/-- Pads a payload with zeros to the next valid FD length. -/
def padFd (bs : List Byte) : List Byte :=
  match fdLengths.find? fun n => bs.length ≤ n with
  | some n => bs ++ List.replicate (n - bs.length) 0
  | none => bs

/-- The channel's OPMODE allows the format (R144). -/
def DieState.canAllows (d : DieState) (tag ch : Nat) (f : BusFmt) : Bool :=
  match f with
  | .cc => true
  | .fd => decide (1 ≤ d.rdAs tag canCtrlOpmode ch)
  | .xl => decide (d.rdAs tag canCtrlOpmode ch = 2)
  | .lin => false

/-- The queue has room for a frame: 64 entries, 8 KB; a channel asleep or going to sleep is found full (R156, R165). -/
def DieState.canRoom (d : DieState) (ch : Nat) (f : BusFrame) : Bool :=
  let c := d.canCh ch
  decide (c.q.length < 64) && decide (c.bytes + txBytes f ≤ 8192) && !c.sleepReq && decide (d.canState ch ≠ 3)

/-- The arbitration key (R157). -/
def canKey (f : BusFrame) : Nat :=
  if f.ide then f.id.toNat / 262144 * 524288 + 262144 + f.id.toNat % 262144 else f.id.toNat % 2048 * 524288

/-- Puts an entry into the queue; in Vote mode an entry of a shared channel waits for its partner's digest (12 R335). -/
def DieState.canAppend (d : DieState) (ch : Nat) (e0 : TxEntry) : DieState :=
  let e := { e0 with entered := d.now, wire := false, tries := 0 }
  if d.votes ∧ ch < 24 then
    let it : VoteItem :=
      { origin := e.origin, egress := 0x40 + ch, tc := 0, len := e.frame.data.length, crc := busDigest e.frame,
        until_ := d.now + 1000 * d.rd stwVoteWin, stamp := d.position 0 }
    let p := d.voteSubmit it
    match p.1 with
    | .drop => p.2
    | .wait => p.2.onCan ch fun c => { c with q := c.q ++ [{ e with eligible := none }] }
    | .match_ t => p.2.onCan ch fun c => { c with q := c.q ++ [{ e with eligible := some t }] }
  else d.onCan ch fun c => { c with q := c.q ++ [{ e with eligible := some 0 }] }

/-- A frame of a route, engine, message buffer or time master enters the queue (R156): a format the channel does not allow
is discarded and counted in TX_BAD, a full queue counts in TXQ_FULL. True when it entered. -/
def DieState.canEnqueue (d : DieState) (ch : Nat) (e : TxEntry) : Bool × DieState :=
  let f := if e.frame.fmt = .fd then { e.frame with data := padFd e.frame.data } else e.frame
  if !d.hallOn .bus || d.fences.contains (fenceOf 2 ch) then (false, d)
  else if !d.canAllows e.tag ch f.fmt then (false, d.cnt canCntTxBad ch)
  else if !d.canRoom ch f then (false, d.cnt canCntTxqFull ch)
  else (true, d.canAppend ch { e with frame := f })

/-- The completion record of a host frame (R161). -/
def DieState.canCompletion (d : DieState) (ch : Nat) (tag : Word) (status stamp : Nat) : DieState :=
  if d.bit canQcfgTxcEn ch then
    let p := d.qbWrite (d.rd canQcfgTxc ch) [tag, BitVec.ofNat 32 status, BitVec.ofNat 32 stamp]
    if p.1 then p.2 else p.2.cnt canCntTxcDrop ch
  else d

/-- An entry leaves the queue with a completion status: its record, its notice (12 R330), PEND of its message buffer, and
TM_SYNC_LOST of a Sync that was not sent (R167). -/
def DieState.canRetire (d : DieState) (ch : Nat) (e : TxEntry) (status stamp : Nat) : DieState :=
  let d1 := d.onCan ch fun c => { c with q := c.q.erase e }
  let d2 := if e.src = 4 then d1.canCompletion ch e.hostTag status stamp else d1
  let d3 := if e.src = 2 then d2.wr canCmbCtrlPend 0 ch e.buf else d2
  let d4 := if d3.sharedCan ch then d3.notice false ch e.origin status else d3
  if e.role = 1 ∧ (status = 1 ∨ status = 2) then d4.raise 0x0207 ((byteAt e.frame.data 1).toNat / 16) ch else d4

/-! ### Error states (R163) -/

/-- Every entry is removed, counted in TX_FLUSHED and reported with status 3. -/
def DieState.canFlush (d : DieState) (ch : Nat) (es : List TxEntry) : DieState :=
  match es with
  | [] => d
  | e :: r => DieState.canFlush ((d.canRetire ch e 3 0).cnt canCntTxFlushed ch) ch r

/-- The fault-confinement state that TEC and REC give (ISO 11898-1; PRESUMED, log 15), with its event on entry. -/
def DieState.canFault (d : DieState) (ch : Nat) : DieState :=
  let tec := d.rd canStatTec ch
  let rec_ := d.rd canStatRec ch
  let st := d.canState ch
  if st = 2 ∨ st = 3 then d
  else if 256 ≤ tec then
    let d1 := ((d.wr canStatState 2 ch).cnt canCntBusOff ch).raise 0x0201 tec ch
    let d2 := d1.onCan ch fun c => { c with boffAt := d.now, recovering := false, q := c.q.map fun e => { e with wire := false } }
    if d2.bit canCtrlBoffFlush ch then d2.canFlush ch (d2.canCh ch).q else d2
  else if 128 ≤ tec ∨ 128 ≤ rec_ then
    if st = 1 then d else (d.wr canStatState 1 ch).raise 0x0202 (tec + rec_ * 65536) ch
  else if st = 0 then d else (d.wr canStatState 0 ch).raise 0x0203 (tec + rec_ * 65536) ch

/-- Adds to TEC, up to 511 (its field's width). -/
def DieState.tecAdd (d : DieState) (ch n : Nat) : DieState := d.wr canStatTec (min 511 (d.rd canStatTec ch + n)) ch

/-- What an error in a frame sent adds to TEC: 8, but nothing for a missing acknowledge of an error-passive channel, which no node
hears (ISO 11898-1; PRESUMED, log 15). -/
def DieState.tecErr (d : DieState) (ch : Nat) (e : CanError) : DieState :=
  if e = .ack ∧ d.canState ch = 1 then d else d.tecAdd ch 8

/-- Adds to REC, up to 255. -/
def DieState.recAdd (d : DieState) (ch n : Nat) : DieState := d.wr canStatRec (min 255 (d.rd canStatRec ch + n)) ch

/-- Counts a detected error in the counter of its category. -/
def DieState.canErrCount (d : DieState) (ch : Nat) (e : CanError) : DieState :=
  match e with
  | .bit => d.cnt canCntErrABit ch
  | .stuff => d.cnt canCntErrAStuff ch
  | .form => d.cnt canCntErrBForm ch
  | .crc => d.cnt canCntErrBCrc ch
  | .ack => d.cnt canCntErrC ch

/-! ### Reception -/

/-- The words of a list of bytes, little-endian, the last filled with zeros. -/
def wordsOf (bs : List Byte) : List Word :=
  (List.range (ceilDiv bs.length 4)).map fun i => BitVec.ofNat 32 (leAt bs (4 * i) 4)

/-- A receive record (R152): header, stamp, payload. -/
def rxRecord (f : BusFrame) (ch stamp : Nat) : List Word :=
  wordsOf (headerOf f ch) ++ [BitVec.ofNat 32 stamp] ++ wordsOf (shownOf f)

/-- FMTS bit of a format. -/
def fmtsBit (f : BusFmt) : Nat := fmtCode f

/-- A frame matches filter pair `k` (R150). -/
def DieState.fltMatches (d : DieState) (ch k : Nat) (f : BusFrame) : Bool :=
  let id := if f.ide then f.id.toNat else f.id.toNat % 2048
  let m := d.rd canFltBMask ch k
  d.bit canFltCEn ch k && decide (Nat.land id m = Nat.land (d.rd canFltAMatch ch k) m)
    && (!d.bit canFltBMide ch k || decide (f.ide = d.bit canFltAIde ch k))
    && (d.rd canFltCFmts ch k).testBit (fmtsBit f.fmt)

/-- The lowest-numbered matching pair. -/
def DieState.fltFind (d : DieState) (ch : Nat) (f : BusFrame) : Option Nat :=
  (List.range 128).find? fun k => d.fltMatches ch k f

/-- Writes words into consecutive words of a message-buffer array. -/
def DieState.wrWords (d : DieState) (fld : Fld) (ch i : Nat) (ws : List Word) (j : Nat := 0) : DieState :=
  match ws with
  | [] => d
  | w :: r => DieState.wrWords (d.wr fld w.toNat ch i j) fld ch i r (j + 1)

/-- A frame steered to a message buffer (R154). -/
def DieState.cmbReceive (d : DieState) (ch k : Nat) (f : BusFrame) (stamp : Nat) : DieState :=
  if d.bit canCmbCtrlDir ch k || decide (64 < (shownOf f).length) then d.cnt canCntBufSize ch
  else
    let d1 := if d.bit canCmbCtrlNew ch k then (d.wr canCmbCtrlLost 1 ch k).cnt canCntBufLost ch else d
    let pay := shownOf f ++ List.replicate (64 - (shownOf f).length) 0
    (((d1.wrWords canCmbHdr ch k (wordsOf (headerOf f ch))).wr canCmbStamp stamp ch k).wrWords canCmbData ch k
      (wordsOf pay)).wr canCmbCtrlNew 1 ch k

/-- A frame for a receive queue: a record, or a count in its overflow counter (R152, Table 6.6). -/
def DieState.rxQueue (d : DieState) (ch : Nat) (en qb ovf : Fld) (rec_ : List Word) : DieState :=
  if d.bit en ch then
    let p := d.qbWrite (d.rd qb ch) rec_
    if p.1 then p.2 else p.2.cnt ovf ch
  else d.cnt ovf ch

/-- The flow key of a CAN frame (03 R60). -/
def canFlowKey (ch : Nat) (f : BusFrame) : List Byte := BitVec.ofNat 8 (0x40 + ch) :: leBytes 4 f.id.toNat

/-- The frame goes to the destinations of its filter pair, in their order (R150, R151). -/
def DieState.canSteer (d : DieState) (ch k : Nat) (f : BusFrame) (stamp origin : Nat) : DieState :=
  let dest := d.rd canFltCDest ch k
  let rec_ := rxRecord f ch stamp
  let d1 := if dest.testBit 0 then d.cmbReceive ch (d.rd canFltCBuf ch k) f stamp else d
  let d2 := if dest.testBit 1 then d1.rxQueue ch canQcfgRxq0En canQcfgRxq0 canCntRxq0Ovf rec_ else d1
  let d3 := if dest.testBit 2 then d2.rxQueue ch canQcfgRxq1En canQcfgRxq1 canCntRxq1Ovf rec_ else d2
  if dest.testBit 4 then
    let img := imageOf f ch
    let fr : EFrame := { bytes := img, kind := .can, ingress := ch, stamp := stamp, orig := img, tag := d.gen, origin := origin }
    d3.engineEvent (d.rd canFltCCluster ch k)
      { typ := 0, entry := d.rd canFltCEntry ch k, cls := 2, unit := ch, w1 := img.length, w2 := stamp, frame := some fr,
        key := canFlowKey ch f, origin := origin }
  else if dest.testBit 3 then
    d3.routePush { ch := ch, frame := f, stamp := stamp, tag := d.gen, origin := origin }
  else d3

/-- A J1939 address claim is copied to the claim queue block (05 R139). -/
def DieState.claimCapture (d : DieState) (ch : Nat) (f : BusFrame) (stamp : Nat) : DieState :=
  if (d.rd brgClaimCh).testBit ch ∧ f.ide ∧ Nat.land f.id.toNat 0x03FF0000 = 0x00EE0000 then
    let p := d.qbWrite (d.rd brgClaim)
      [BitVec.ofNat 32 f.id.toNat, BitVec.ofNat 32 ch, BitVec.ofNat 32 (leAt (shownOf f) 0 4),
       BitVec.ofNat 32 (leAt (shownOf f) 4 4), BitVec.ofNat 32 stamp]
    if p.1 then p.2 else p.2.cnt brgCntClaimDrop 0 ch
  else d

/-- A frame whose format the channel's mode does not take: a form error, or with PEX a protocol exception, which ends
reception without an error (R144). -/
def DieState.canForeign (d : DieState) (ch : Nat) : DieState :=
  if d.bit canCtrlPex ch then d
  else if d.bit canCtrlListen ch then d
  else ((d.canErrCount ch .form).recAdd ch 1).canFault ch

/-- A frame received without error on a live channel (R150 to R154, 05 R139). -/
def DieState.canReceive (d : DieState) (ch : Nat) (f : BusFrame) (stamp : Nat) : DieState :=
  if !d.canLive ch || decide (d.canState ch = 2) then d
  else if !d.canAllows d.gen ch f.fmt then d.canForeign ch
  else
    let d1 := d.cnt canCntRxOk ch
    let d2 := (if d1.bit canCtrlListen ch then d1
      else d1.wr canStatRec (let r := d1.rd canStatRec ch; if 127 < r then 127 else r - 1) ch).canFault ch
    let p := d2.newOrigin (0x40 + ch) 0
    let d3 := p.2.claimCapture ch f stamp
    match d3.fltFind ch f with
    | some k => d3.canSteer ch k f stamp p.1
    | none => d3.cnt canCntNomatch ch

/-! ### Transmission -/

/-- The entry on the wire. -/
def CanChan.onWire (c : CanChan) : Option TxEntry := c.q.find? fun e => e.wire

/-- The entry that the queue offers: lowest key, then entry order (R157); in Vote mode only eligible entries (12 R337). -/
def DieState.canOffer (d : DieState) (ch : Nat) : Option TxEntry :=
  let es := (d.canCh ch).q.filter fun e =>
    match e.eligible with
    | some t => decide (t = 0) || decide (0 ≤ posDiff (d.position 0) t)
    | none => false
  es.foldl (fun best e =>
    match best with
    | none => some e
    | some b => if canKey e.frame < canKey b.frame then some e else some b) none

/-- Replaces an entry of the queue. -/
def CanChan.replace (c : CanChan) (e e' : TxEntry) : CanChan := { c with q := c.q.map fun x => if x = e then e' else x }

/-- The Sync carries the seconds of its own start of frame, most significant byte first (R167). -/
def syncData (bs : List Byte) (secs : Nat) : List Byte := bs.take 2 ++ beBytes 6 secs

/-- The channel starts sending the entry its queue offers: its start-of-frame stamp is taken, a Sync takes its seconds. -/
def DieState.canStart (d : DieState) (ch : Nat) : DieState :=
  let c := d.canCh ch
  if !d.canLive ch || d.bit canCtrlListen ch || decide (d.canState ch = 2) || c.onWire.isSome || c.sleepReq
    || (d.sharedCan ch && (d.suppressed || d.heldBack (64 + ch))) then d
  else
    match d.canOffer ch with
    | none => d
    | some e =>
      let tb := if e.role = 0 then d.rd canCtrlTb ch else d.rd canTmBTb ch
      let pos := d.position tb
      let f := if e.role = 1 then { e.frame with data := syncData e.frame.data (pos / 1000000000) } else e.frame
      let esi : Bool := decide (d.canState ch = 1)
      let f' := if f.fmt = .fd ∧ esi then { f with flags := f.flags ||| 2 } else f
      d.onCan ch fun c => c.replace e
        { e with frame := f', wire := true, firstSof := some (e.firstSof.getD d.now), sofStamp := pos % 2 ^ 32, sofPos := pos }

/-- The time-reference frame of a channel (Tables 6.3, 6.4). -/
def DieState.tmFrame (d : DieState) (ch : Nat) (data : List Byte) : BusFrame :=
  { id := BitVec.ofNat 29 (d.rd canTmAId ch), ide := d.bit canTmAIde ch, rtr := false,
    fmt := if d.bit canTmAFmt ch then .fd else .cc, flags := 0, dlc := 8, sdt := 0, vcid := 0, af := 0, data := data }

/-- The Follow-up of a Sync sent (R167, Table 6.4). -/
def DieState.followUp (d : DieState) (ch : Nat) (e : TxEntry) : DieState :=
  let sync := e.frame.data
  let b0 : Byte := BitVec.ofNat 8 (0x20 + (byteAt sync 0).toNat % 16)
  let ns := beBytes 4 (e.sofPos % 1000000000)
  let crc := crc8Of 0xFF (sync ++ [b0, byteAt sync 1, 0] ++ ns)
  (d.canEnqueue ch { frame := d.tmFrame ch ([b0, byteAt sync 1, 0, BitVec.ofNat 8 crc] ++ ns), src := 3, role := 2, tag := d.gen,
                     origin := withEidx e.origin 1 }).2

/-- The frame on the wire is sent successfully (R161, R163, R167). -/
def DieState.canSent (d : DieState) (ch : Nat) : DieState :=
  match (d.canCh ch).onWire with
  | none => d
  | some e =>
    let d1 := (d.cnt canCntTxOk ch).wr canStatTec (d.rd canStatTec ch - 1) ch
    let d2 := (d1.canRetire ch e 0 e.sofStamp).canFault ch
    let d3 := if e.src = 2 then d2.wr canCmbStamp e.sofStamp ch e.buf else d2
    if e.role = 1 then d3.followUp ch e
    else if e.role = 2 then d3.cnt canTmCSent ch
    else d3

/-- TIME has passed since the first start of frame of an entry; TIME = 0 sets no limit (R158). -/
def DieState.retryTimeOut (d : DieState) (ch : Nat) (e : TxEntry) : Bool :=
  let t := d.rdAs e.tag canRetryTime ch
  decide (t ≠ 0) && decide (e.firstSof.getD d.now + t * 10000 ≤ d.now)

/-- The retry budget of an entry on the wire is spent: COUNT retransmissions made, or TIME passed (R158). -/
def DieState.retrySpent (d : DieState) (ch : Nat) (e : TxEntry) : Bool :=
  decide (d.rdAs e.tag canRetryCount ch ≤ e.tries) || d.retryTimeOut ch e

/-- The queue residence limit of an entry has run out (R159). -/
def DieState.residenceOut (d : DieState) (ch : Nat) (e : TxEntry) : Bool :=
  let t := d.rdAs e.tag canTxtmo ch
  decide (t ≠ 0) && decide (e.entered + t * 10000 ≤ d.now)

/-- A frame is abandoned: removed, counted, raised, reported with status 1 (R158). -/
def DieState.canAbandon (d : DieState) (ch : Nat) (e : TxEntry) : DieState :=
  ((d.canRetire ch e 1 0).cnt canCntTxAbandon ch).raiseHeld 0x0204 ch 1000000 e.frame.id.toNat ch

/-- An entry expires: removed, counted, reported with status 2; one SUPERSEDED in place of TX_EXPIRED when a retry budget
was still running (R159, 17 R431). -/
def DieState.canExpire (d : DieState) (ch : Nat) (e : TxEntry) : DieState :=
  let d1 := (d.canRetire ch e 2 0).cnt canCntTxExpired ch
  if 0 < e.tries ∧ !d.retryTimeOut ch e then d1.raise 0x1401 (3 + ch * 256 + min (e.tries - 1) 255 * 65536) 0
  else d1.raiseHeld 0x0205 ch 1000000 e.frame.id.toNat ch

/-- An error in the frame on the wire (R158, R163, 05 R138): counted, a suspected collision noted, then a retry, or the
frame is abandoned or expires. -/
def DieState.canTxErr (d : DieState) (ch : Nat) (err : CanError) (fld : CanField) : DieState :=
  match (d.canCh ch).onWire with
  | none => d
  | some e =>
    let d1 := (d.canErrCount ch err).tecErr ch err
    let coll : Bool := decide (err = .bit) && (decide (fld = .control) || decide (fld = .data) || decide (fld = .crc))
    let d2 := if coll then (d1.cnt brgCntColl 0 ch).raiseHeld 0x0902 ch 1000000 e.frame.id.toNat ch else d1
    let e' := { e with wire := false, tries := e.tries + 1 }
    let d3 := d2.onCan ch fun c => c.replace e e'
    let d4 :=
      if d2.retrySpent ch e then d3.canAbandon ch e'
      else if d2.residenceOut ch e then d3.canExpire ch e'
      else d3
    d4.canFault ch

/-! ### Injected errors (17 R441) -/

/-- A lower bound of the bits of a frame, stuff bits left out. -/
def canMinBits (f : BusFrame) : Nat := (if f.ide then 64 else 44) + (if f.rtr then 0 else 8 * f.data.length)

/-- The perturbation of the channel meets a frame: MODE 1 the next one after ARM, 2 every one, 3 those of its identifier. -/
def DieState.canInject (d : DieState) (ch : Nat) (f : BusFrame) : Bool :=
  match d.rd prtCanAMode 0 ch with
  | 1 => d.guard.armed.contains ch
  | 2 => true
  | 3 => decide (d.rd prtCanBId 0 ch = f.id.toNat) && decide (d.bit prtCanBIde 0 ch = f.ide)
  | _ => false

/-- The injected error has met its frame: counted, MODE 1 is spent. -/
def DieState.canInjected (d : DieState) (ch : Nat) : DieState :=
  { d.cnt prtCanC 0 ch with guard := { d.guard with armed := d.guard.armed.erase ch } }

/-- A frame that the channel sends ends at the bit that the perturbation names, when the frame reaches it. -/
def DieState.canCut (d : DieState) (ch : Nat) : Bool :=
  match (d.canCh ch).onWire with
  | some e => d.canInject ch e.frame && decide (d.rd prtCanABit 0 ch < canMinBits e.frame)
  | none => false

/-- The frame on the wire may meet an injected error. -/
def DieState.canMeets (d : DieState) (ch : Nat) : Bool :=
  match (d.canCh ch).onWire with
  | some e => d.canInject ch e.frame
  | none => false

/-! ### The host transmit queue block (R156) -/

/-- The words of the record at the head of a host transmit queue block, when all are present. -/
def DieState.htxRecord (d : DieState) (n : Nat) : Option (List Word) :=
  let u := d.qbUnread n
  if u < 5 then none
  else
    let dlen := (d.qbWord n 1).toNat / 65536
    let k := if dlen ≤ 2048 then 5 + ceilDiv dlen 4 else 5
    if u < k then none else some ((List.range k).map fun i => d.qbWord n i)

/-- Reads and releases words of a queue block, as `qget` does (13 Table 13.1). -/
def DieState.qbTake (d : DieState) (n k : Nat) : DieState :=
  let p := (d.rd qbkRp n + k) % (2 * d.qbSize n)
  let d1 := (((d.wr qbkRp p n).wr qbkMark p n).wr qbkRel p n).wr qbkStatStale 0 n
  if d1.qbUnread n = 0 then { d1 with host := { d1.host with stale := Tab.erase d1.host.stale n } }
  else { d1 with host := { d1.host with stale := Tab.insert d1.host.stale n d1.now } }

/-- A host record that cannot be sent on the channel (R156). -/
def DieState.htxBad (d : DieState) (ch : Nat) (dlen : Nat) (fmt : Option BusFmt) : Bool :=
  match fmt with
  | some .cc => decide (8 < dlen)
  | some .fd => decide (64 < dlen) || !d.canAllows d.gen ch .fd
  | some .xl => decide (dlen = 0) || decide (2048 < dlen) || !d.canAllows d.gen ch .xl
  | _ => true

/-- The bytes of a list of words. -/
def bytesOf (ws : List Word) : List Byte := ws.flatMap fun w => leBytes 4 w.toNat

/-- The channel takes a host record: a bad one is discarded and reported, a good one waits in its queue block until room is
free (R156). -/
def DieState.htxTake (d : DieState) (ch : Nat) : DieState :=
  if !d.canLive ch || !d.bit canQcfgHtxEn ch || !d.hallOn .host || (d.canCh ch).sleepReq then d
  else
    let n := d.rd canQcfgHtx ch
    match d.htxRecord n with
    | none => d
    | some ws =>
      let img := bytesOf (ws.take 4) ++ bytesOf (ws.drop 5)
      let dlen := imageDlen img
      let fmt := fmtOf (byteAt img 4).toNat
      let tag := ws.getD 4 0
      if d.htxBad ch dlen fmt then ((d.qbTake n ws.length).cnt canCntTxBad ch).canCompletion ch tag 3 0
      else
        let f0 := frameOfImage img (fmt.getD .cc) dlen
        let f := if f0.fmt = .fd then { f0 with data := padFd f0.data } else f0
        if d.canRoom ch f then
          let p := (d.qbTake n ws.length).newOrigin 0x82 n
          p.2.canAppend ch { frame := f, src := 4, hostTag := tag, tag := d.gen, origin := p.1 }
        else d

/-! ### Message buffers (R160) -/

/-- The image of a transmit buffer; a DLEN above 64 is sent as 64 (Table 6.7). -/
def DieState.cmbImage (d : DieState) (ch k : Nat) : List Byte :=
  bytesOf ((List.range 4).map fun j => BitVec.ofNat 32 (d.rd canCmbHdr ch k j))
    ++ bytesOf ((List.range 16).map fun j => BitVec.ofNat 32 (d.rd canCmbData ch k j))

/-- A trigger of a message buffer: its image is queued; a copy still queued makes it a skip; a receive buffer is not
triggered. A header whose FMT no CAN frame has is discarded and counted in TX_BAD. -/
def DieState.cmbTrigger (d : DieState) (tag ch k origin : Nat) : DieState :=
  if !d.hallOn .bus then d
  else if !d.bitAs tag canCmbCtrlDir ch k then d
  else if d.bit canCmbCtrlPend ch k then d.cnt canCmbCtrlSkip ch k
  else
    let img := d.cmbImage ch k
    match fmtOf (byteAt img 4).toNat with
    | some .lin => d.cnt canCntTxBad ch
    | none => d.cnt canCntTxBad ch
    | some fmt =>
      let lim := if fmt = .cc then 8 else 64
      let p := d.canEnqueue ch
        { frame := frameOfImage img fmt (min (imageDlen img) lim), src := 2, buf := k, tag := tag, origin := origin }
      if p.1 then p.2.wr canCmbCtrlPend 1 ch k else p.2

/-! ### The commands -/

/-- CAN_FRAME_RECEIVE; under an injected error the frame ends with a stuff error. -/
def execCanFrameReceive (d : Die) (ch : Fin 32) (f : BusFrame) (stamp : Word) (s : State) : Host.Outcome State Fault Refusal :=
  s.doOn d fun d =>
    if d.canLive ch && d.canInject ch f && decide (d.rd prtCanABit 0 ch < canMinBits f) then
      let d1 := d.canInjected ch
      if decide (d1.canState ch = 2) || d1.bit canCtrlListen ch then d1 else ((d1.canErrCount ch .stuff).recAdd ch 1).canFault ch
    else d.canReceive ch.val f stamp.toNat

/-- CAN_RX_ERROR (R163): a received frame meets an error; a listening channel counts none. -/
def execCanRxError (d : Die) (ch : Fin 32) (e : CanError) (s : State) : Host.Outcome State Fault Refusal :=
  s.doOn d fun d =>
    if !d.canLive ch || decide (d.canState ch = 2) || d.bit canCtrlListen ch then d
    else ((d.canErrCount ch e).recAdd ch 1).canFault ch

/-- CAN_HOST_RECORD_TAKE (R156). -/
def execCanHostRecordTake (d : Die) (ch : Fin 32) (s : State) : Host.Outcome State Fault Refusal :=
  s.doOn d fun d => d.htxTake ch

/-- CAN_TX_ATTEMPT (R157). -/
def execCanTxAttempt (d : Die) (ch : Fin 32) (s : State) : Host.Outcome State Fault Refusal :=
  s.doOn d fun d => d.canStart ch

/-- CAN_TX_COMPLETE (R161); a frame that the perturbation cuts ends with a bit error, which never counts in COLL. -/
def execCanTxComplete (d : Die) (ch : Fin 32) (s : State) : Host.Outcome State Fault Refusal :=
  s.doOn d fun d =>
    if !d.canLive ch then d
    else if d.canCut ch then (d.canInjected ch).canTxErr ch .bit .arbitration
    else d.canSent ch

/-- CAN_TX_ERROR (R158). A bit error of a frame under perturbation is the injected one (log 43). -/
def execCanTxError (d : Die) (ch : Fin 32) (e : CanError) (fld : CanField) (s : State) : Host.Outcome State Fault Refusal :=
  s.doOn d fun d =>
    if !d.canLive ch then d
    else if d.canMeets ch && decide (e = .bit) then (d.canInjected ch).canTxErr ch .bit .arbitration
    else d.canTxErr ch e fld

/-- CAN_RETRY_TIME_EXPIRY (R158): the oldest entry off the wire whose retry time is spent is abandoned. -/
def execCanRetryTimeExpiry (d : Die) (ch : Fin 32) (s : State) : Host.Outcome State Fault Refusal :=
  s.doOn d fun d =>
    match (d.canCh ch).q.find? fun e => !e.wire && decide (0 < e.tries) && d.retryTimeOut ch e with
    | some e => d.canAbandon ch e
    | none => d

/-- CAN_TXTMO_EXPIRY (R159): the oldest entry off the wire whose residence limit has run out is removed. -/
def execCanTxtmoExpiry (d : Die) (ch : Fin 32) (s : State) : Host.Outcome State Fault Refusal :=
  s.doOn d fun d =>
    match (d.canCh ch).q.find? fun e => !e.wire && d.residenceOut ch e with
    | some e => d.canExpire ch e
    | none => d

/-- CMB_TRIG: a write of CMB_k_CTRL, whose TRIG bit triggers the buffer (R160). -/
def execCmbTrig (a : Acc) (ch k : Fin 32) (v : Word) (s : State) : Host.Outcome State Fault Refusal :=
  s.doOn a.die fun d => d.writeReg a.req 2 ch (0x1000 + 0x80 * k) v fun d =>
    if v.getLsbD 4 then d.cmbTrigger d.gen ch k 0 else d

/-- CAN_BOFF_HOLD_EXPIRY (R163): with AUTOREC = 1, recovery starts HOLD ms after entry into bus-off. -/
def execCanBoffHoldExpiry (d : Die) (ch : Fin 32) (s : State) : Host.Outcome State Fault Refusal :=
  s.doOn d fun d =>
    if d.canState ch = 2 ∧ d.bit canCtrlAutorec ch ∧ !(d.canCh ch).recovering
        ∧ (d.canCh ch).boffAt + 1000000 * d.rd canBoffHold ch ≤ d.now then
      d.onCan ch fun c => { c with recovering := true }
    else d

/-- What RECOVER = 1 does: recovery starts in bus-off, unless it runs already (R163). -/
def DieState.canRecoverNow (d : DieState) (ch : Nat) : DieState :=
  if d.canState ch = 2 then d.onCan ch fun c => { c with recovering := true } else d

/-- CAN_RECOVER: a write of CAN.BOFF. -/
def execCanRecover (a : Acc) (ch : Fin 32) (v : Word) (s : State) : Host.Outcome State Fault Refusal :=
  s.doOn a.die fun d => d.writeReg a.req 2 ch 0x124 v fun d => if v.msb then d.canRecoverNow ch else d

/-- CAN_BUSOFF_RECOVERED (R163): 128 sequences of 11 recessive bits have been seen since recovery started. -/
def execCanBusoffRecovered (d : Die) (ch : Fin 32) (s : State) : Host.Outcome State Fault Refusal :=
  s.doOn d fun d =>
    if d.canState ch = 2 ∧ (d.canCh ch).recovering then
      ((((d.onCan ch fun c => { c with recovering := false }).wr canStatTec 0 ch).wr canStatRec 0 ch).wr canStatState 0 ch).raise
        0x0203 0 ch
    else d

/-- What REQ = 1 does (R165): the channel will sleep at the next bus idle; without effect while asleep. -/
def DieState.canSleepNow (d : DieState) (ch : Nat) : DieState :=
  if d.canState ch = 3 then d else d.onCan ch fun c => { c with sleepReq := true }

/-- CAN_SLEEP_REQ: a write of CAN.SLEEP. -/
def execCanSleepReq (a : Acc) (ch : Fin 32) (v : Word) (s : State) : Host.Outcome State Fault Refusal :=
  s.doOn a.die fun d => d.writeReg a.req 2 ch 0x130 v fun d => if v.getLsbD 0 then d.canSleepNow ch else d

/-- CAN_SLEEP_ENTER (R165): the first bus idle after the request. -/
def execCanSleepEnter (d : Die) (ch : Fin 32) (s : State) : Host.Outcome State Fault Refusal :=
  s.doOn d fun d =>
    if (d.canCh ch).sleepReq ∧ (d.canCh ch).onWire.isNone then
      (d.onCan ch fun c => { c with sleepReq := false }).wr canStatState 3 ch
    else d

/-- A wake frame matches WF_ID, WF_MASK, WF_CFG and WF_DATA: identifier bits under the mask, format, DLC, and, for a DLC
above 0, some data bit set in both (ISO 11898-2 selective wake; PRESUMED, log 15). -/
def DieState.wakeMatches (d : DieState) (ch : Nat) (id : Nat) (ide : Bool) (dlc : Nat) (data : List Byte) : Bool :=
  let m := d.rd canWfMask ch
  let mask := d.rd canWfDataLo ch + d.rd canWfDataHi ch * 2 ^ 32
  decide (Nat.land id m = Nat.land (d.rd canWfIdId ch) m) && decide (ide = d.bit canWfIdIde ch)
    && decide (dlc = d.rd canWfCfg ch) && (decide (dlc = 0) || decide (Nat.land (leAt data 0 8) mask ≠ 0))

/-- The fault state that the error counters stand for. -/
def DieState.canCounted (d : DieState) (ch : Nat) : Nat :=
  if 256 ≤ d.rd canStatTec ch then 2 else if 128 ≤ d.rd canStatTec ch ∨ 128 ≤ d.rd canStatRec ch then 1 else 0

/-- A commit that clears EN takes the channel off the bus: its entries stay, and sleep ends (R166, Table 6.6). -/
def DieState.canEnable (d : DieState) (ch : Nat) : DieState :=
  if d.bit canCtrlEn ch then d
  else
    let d1 := d.onCan ch fun c => { c with sleepReq := false, q := c.q.map fun e => { e with wire := false } }
    if d.canState ch = 3 then d1.wr canStatState (d.canCounted ch) ch else d1

/-- The channel wakes (R166): normal operation, its bit in CAN.WAKE, the event; it wakes the die (15 R409). -/
def DieState.canWakeUp (d : DieState) (ch info : Nat) : DieState :=
  (((d.wr canStatState (d.canCounted ch) ch).wr canWake (Nat.lor (d.rd canWake) (2 ^ ch))).wakeDie 0).raise 0x0206 info ch

/-- CAN_WAKE (R165, R166): a dominant pattern with WAKE = 1, or a matching wake frame with WAKE = 2. -/
def execCanWake (d : Die) (ch : Fin 32) (w : WakeKind) (s : State) : Host.Outcome State Fault Refusal :=
  s.doOn d fun d =>
    if d.canState ch = 3 then
      match w with
      | .dominant => if d.rd canSleepWake ch = 1 then d.canWakeUp ch 1 else d
      | .frame id ide dlc data =>
        if d.rd canSleepWake ch = 2 ∧ d.wakeMatches ch id.toNat ide dlc data then d.canWakeUp ch (2 + id.toNat * 8) else d
    else d

/-- The Sync of a channel (Table 6.3); bytes 2 to 7 take the seconds at each start of frame. -/
def DieState.syncFrame (d : DieState) (ch seq : Nat) : BusFrame :=
  d.tmFrame ch ([BitVec.ofNat 8 (0x10 + d.rd canTmBDomain ch),
    BitVec.ofNat 8 (seq * 16 + if d.bit timTbStat 0 (d.rd canTmBTb ch) then 1 else 0)] ++ List.replicate 6 0)

/-- CAN_TM_SYNC_QUEUE (R167): the time base has reached a multiple of PERIOD ms; once per multiple. -/
def execCanTmSyncQueue (d : Die) (ch : Fin 32) (s : State) : Host.Outcome State Fault Refusal :=
  s.doOn d fun d =>
    let ms := d.position (d.rd canTmBTb ch) / 1000000
    if d.canLive ch ∧ d.bit canTmAEn ch ∧ ms % d.rd canTmBPeriod ch = 0 ∧ (d.canCh ch).lastSync ≠ ms + 1 then
      let seq := d.rd canTmCSeq ch
      let p := ((d.onCan ch fun c => { c with lastSync := ms + 1 }).cnt canTmCSeq ch).newOrigin 0x81 (0x1000 + ch)
      (p.2.canEnqueue ch { frame := d.syncFrame ch seq, src := 3, role := 1, tag := d.gen, origin := p.1 }).2
    else d

end Sys2Proof.Machine
end

