-- ==== Sys2Proof/Machine/Lin.lean ====
section
/-! DEFINITION. Machine/Lin.lean: the LIN controllers (chapter 6, R171 to R178): schedule, headers, responses, response
buffers, sleep and wake. -/

namespace Sys2Proof.Machine

/-- A channel. -/
def DieState.linCh (d : DieState) (ch : Nat) : LinChan := Tab.get {} d.lin ch

/-- Changes a channel. -/
def DieState.onLin (d : DieState) (ch : Nat) (g : LinChan → LinChan) : DieState :=
  { d with lin := Tab.insert d.lin ch (g (d.linCh ch)) }

/-- The channel's hall is on, the channel is enabled and not fenced. -/
def DieState.linUp (d : DieState) (ch : Nat) : Bool :=
  d.hallOn .bus && d.bit linCtrlEn ch && !d.fences.contains (fenceOf 3 ch)

/-- The channel takes part on its bus: it is up and not asleep. -/
def DieState.linLive (d : DieState) (ch : Nat) : Bool := d.linUp ch && decide (d.rd linStatState ch ≠ 2)

/-- A master (R175). -/
def DieState.linMaster (d : DieState) (ch : Nat) : Bool := !d.bit linCtrlRole ch

/-- Length of the response of an identifier in a set. -/
def DieState.linLen (d : DieState) (tag ch i : Nat) : Nat := d.rdAs tag linIdcfgLen ch i + 1

/-! ### Response buffers (R174) -/

/-- A change of a live buffer: the bytes written stand first, the rest stays (log 21); a response not yet sent that it
replaces counts in RESP_OVW. In Vote mode the response waits for its partner's digest (12 R335). True when it entered. -/
def DieState.linStore (d : DieState) (ch i : Nat) (bs : List Byte) (origin : Nat) : Bool × DieState :=
  if !d.hallOn .bus || d.fences.contains (fenceOf 3 ch) then (false, d)
  else
    let c := d.linCh ch
    let d1 := if d.bit linRespCtlValid ch i && c.unsent.contains i then d.cnt linCntRespOvw ch else d
    let old := Tab.get (List.replicate 8 0) c.live i
    let d2 := ((d1.onLin ch fun c =>
      { c with live := Tab.insert c.live i (bs.take 8 ++ old.drop bs.length), unsent := i :: c.unsent.erase i,
               tags := Tab.insert c.tags i origin, waits := Tab.erase c.waits i }).cnt linRespCtlUpd ch i).wr linRespCtlValid 1 ch i
    if d2.votes ∧ d2.sharedLin then
      let img := imageOf { id := BitVec.ofNat 29 i, ide := false, rtr := false, fmt := .lin,
                           flags := BitVec.ofNat 8 (d2.rd linIdcfgCsum ch i), dlc := bs.length, sdt := 0, vcid := 0, af := 0,
                           data := bs } 0
      let p := d2.voteSubmit
        { origin := origin, egress := 0x60 + ch, tc := 0, len := bs.length, crc := BitVec.ofNat 32 (crc32c img),
          until_ := d2.now + 1000 * d2.rd stwVoteWin, stamp := d2.position 0 }
      match p.1 with
      | .drop => (true, p.2.wr linRespCtlValid 0 ch i)
      | .wait => (true, p.2.onLin ch fun c => { c with waits := Tab.insert c.waits i 0 })
      | .match_ t => (true, p.2.onLin ch fun c => { c with waits := Tab.insert c.waits i (t + 1) })
    else (true, d2)

/-- The response of a published identifier is there to send (R174; 12 R337). -/
def DieState.linReady (d : DieState) (ch i : Nat) : Bool :=
  d.bit linRespCtlValid ch i &&
    match Tab.get? (d.linCh ch).waits i with
    | none => true
    | some t => decide (t ≠ 0) && decide (0 ≤ posDiff (d.position 0) (t - 1))

/-- The response that the break takes from the live buffer. -/
def DieState.linResponse (d : DieState) (ch i : Nat) : List Byte :=
  if d.linReady ch i then (Tab.get (List.replicate 8 0) (d.linCh ch).live i).take (d.linLen d.gen ch i) else []

/-! ### Headers -/

/-- The channel is idle again; a go-to-sleep command that waited starts at this frame slot boundary (R177). -/
def DieState.linIdle (d : DieState) (ch : Nat) : DieState :=
  let d1 := (d.onLin ch fun c => { c with cur := none, active := d.now }).wr linStatState 0 ch
  if (d1.linCh ch).gts then
    ((d1.onLin ch fun c =>
      { c with gts := false,
               cur := some { id := 0x3C, pub := true, data := 0 :: List.replicate 7 0xFF, tag := d.gen, gts := true } }).wr
      linStatState 1 ch).wr linStatLastId 0x3C ch
  else d1

/-- A header of an identifier stands on the bus: the response is published, awaited, or not handled (R173, R176). A
channel that drives nothing (12 R329) publishes none. -/
def DieState.linHeader (d : DieState) (ch i : Nat) : DieState :=
  let d1 := d.wr linStatLastId i ch
  let dir := d.rd linIdcfgDir ch i
  let start (cur : LinCur) : DieState := (d1.onLin ch fun c => { c with cur := some cur, active := d.now }).wr linStatState 1 ch
  if dir = 1 then
    if d.sharedLin && (d.suppressed || d.heldBack (128 + ch)) then d1.onLin ch fun c => { c with active := d.now }
    else
      let data := d.linResponse ch i
      if d.linMaster ch ∨ data ≠ [] then
        (start { id := i, pub := true, data := data, tag := d.gen, origin := Tab.get 0 (d.linCh ch).tags i }).onLin ch fun c =>
          { c with unsent := if data = [] then c.unsent else c.unsent.erase i }
      else d1.onLin ch fun c => { c with active := d.now }
  else if dir = 2 ∨ d.linMaster ch then start { id := i, pub := false, tag := d.gen }
  else d1.onLin ch fun c => { c with active := d.now }

/-- A schedule slot is triggered (R175): without effect for a slave, a sleeping channel or a disabled slot; an overrun while
a frame is in progress. -/
def DieState.linTrigger (d : DieState) (tag ch slot : Nat) : DieState :=
  if !d.linLive ch || !d.linMaster ch || !d.bitAs tag linSlotEn ch slot then d
  else if (d.linCh ch).cur.isSome then (d.cnt linCntOverrun ch).raise 0x0304 slot ch
  else d.linHeader ch (d.rdAs tag linSlotId ch slot)

/-! ### The end of a response -/

/-- No response, or one short of its length: counted in NO_RESP, not delivered (R173, R174; log 21). -/
def DieState.linShort (d : DieState) (ch i : Nat) : DieState := (d.cnt linCntNoResp ch).raise 0x0301 i ch

/-- A subscribed response goes to the destinations of DEST (R173). -/
def DieState.linDeliver (d : DieState) (ch i tag : Nat) (data : List Byte) (stamp origin : Nat) : DieState :=
  let dest := d.rdAs tag linIdcfgDest ch i
  let f : BusFrame :=
    { id := BitVec.ofNat 29 i, ide := false, rtr := false, fmt := .lin, flags := BitVec.ofNat 8 (d.rdAs tag linIdcfgCsum ch i),
      dlc := data.length, sdt := 0, vcid := 0, af := 0, data := data }
  let rec_ := rxRecord f ch stamp
  let d1 := if dest.testBit 0 then d.rxQueue ch linQcfgRxq0En linQcfgRxq0 linCntRxqOvf rec_ else d
  let d2 := if dest.testBit 1 then d1.rxQueue ch linQcfgRxq1En linQcfgRxq1 linCntRxqOvf rec_ else d1
  if dest.testBit 3 then
    let img := imageOf f ch
    let fr : EFrame := { bytes := img, kind := .lin, ingress := ch, stamp := stamp, orig := img, tag := d.gen, origin := origin }
    d2.engineEvent (d.rdAs tag linIdcfgCluster ch i)
      { typ := 0, entry := d.rdAs tag linIdcfgEntry ch i, cls := 3, unit := ch, w1 := img.length, w2 := stamp, frame := some fr,
        key := [BitVec.ofNat 8 (0x60 + ch), BitVec.ofNat 8 i], origin := origin }
  else if dest.testBit 2 then
    d2.routePush { ch := 32 + ch, frame := f, stamp := stamp, tag := d.gen, origin := origin }
  else d2

/-- A response ends on the bus (R173, R175): delivered, or counted as failed. -/
def DieState.linReceive (d : DieState) (ch : Nat) (data : List Byte) (ok collision : Bool) (stamp : Nat) : DieState :=
  match (d.linCh ch).cur with
  | none => d
  | some c =>
    if c.pub then d
    else
      let d1 := d.linIdle ch
      if d.rdAs c.tag linIdcfgDir ch c.id ≠ 2 then d1
      else if !ok then
        let d2 := (d1.cnt linCntCsum ch).raise 0x0302 c.id ch
        if collision then d2.raise 0x0303 c.id ch else d2
      else if data.length < d.linLen c.tag ch c.id then d1.linShort ch c.id
      else
        let p := (d1.cnt linCntRxOk ch).newOrigin (0x60 + ch) 0
        p.2.linDeliver ch c.id c.tag (data.take (d.linLen c.tag ch c.id)) stamp p.1

/-- The response time of the standard ends (R173, R174): a subscribed response was not whole, or a master published
nothing. -/
def DieState.linTimeout (d : DieState) (ch : Nat) : DieState :=
  match (d.linCh ch).cur with
  | none => d
  | some c =>
    if c.pub ∧ c.data ≠ [] then d
    else if c.pub ∨ d.rdAs c.tag linIdcfgDir ch c.id = 2 then (d.linIdle ch).linShort ch c.id
    else d.linIdle ch

/-- A published response has been sent (R174, R177; 12 R330). -/
def DieState.linSent (d : DieState) (ch : Nat) : DieState :=
  match (d.linCh ch).cur with
  | none => d
  | some c =>
    if !c.pub || decide (c.data = []) then d
    else
      let d1 := (d.linIdle ch).cnt linCntTxOk ch
      if c.gts then (d1.onLin ch fun x => { x with cur := none }).wr linStatState 2 ch
      else if d1.sharedLin then d1.notice true ch c.origin 0 else d1

/-! ### What writes of the registers do -/

/-- PUB = 1 (R174): the host copy becomes the live response. -/
def DieState.linPublish (d : DieState) (ch i : Nat) : DieState :=
  let bs := leBytes 4 (d.rd linRespLo ch i) ++ leBytes 4 (d.rd linRespHi ch i)
  let p := d.newOrigin 0x82 (0x4000 + 64 * ch + i)
  (p.2.linStore ch i bs p.1).2

/-- CLR = 1: VALID is cleared. -/
def DieState.linClear (d : DieState) (ch i : Nat) : DieState :=
  (d.wr linRespCtlValid 0 ch i).onLin ch fun c => { c with unsent := c.unsent.erase i, waits := Tab.erase c.waits i }

/-- GTS = 1 (R177): a master sends the go-to-sleep command at the next frame slot boundary. -/
def DieState.linSleepNow (d : DieState) (ch : Nat) : DieState :=
  if !d.linLive ch || !d.linMaster ch then d
  else
    let d1 := d.onLin ch fun c => { c with gts := true }
    if (d.linCh ch).cur.isNone then d1.linIdle ch else d1

/-- WAKEUP = 1 (R177): a dominant pulse of 1 ms. -/
def DieState.linPulse (d : DieState) (ch : Nat) : DieState :=
  if d.linUp ch then d.onLin ch fun c => { c with pulseEnd := d.now + 1000000 } else d

/-- What a write of LIN.SLEEP does beyond its IDLE field. -/
def DieState.linSleepAct (d : DieState) (ch : Nat) (v : Word) : DieState :=
  let d1 := if v.getLsbD 0 then d.linSleepNow ch else d
  if v.getLsbD 1 then d1.linPulse ch else d1

/-- What a write of RESP_i_CTL does. -/
def DieState.linRespAct (d : DieState) (ch i : Nat) (v : Word) : DieState :=
  let d1 := if v.getLsbD 0 then d.linPublish ch i else d
  if v.getLsbD 2 then d1.linClear ch i else d1

/-- The word that a command which only sets one bit of LIN.SLEEP writes: IDLE keeps its staged value. -/
def DieState.linSleepWord (d : DieState) (ch bit : Nat) : Word :=
  BitVec.ofNat 32 (2 ^ bit + 4 * d.rdStaged linSleepIdle ch)

/-! ### The commands -/

/-- LIN_TRIG: a write of LIN.TRIG (R175). -/
def execLinTrig (a : Acc) (ch : Fin 8) (v : Word) (s : State) : Host.Outcome State Fault Refusal :=
  s.doOn a.die fun d => d.writeReg a.req 3 ch 0x104 v fun d => if v.msb then d.linTrigger d.gen ch (v.toNat % 64) else d

/-- LIN_HEADER_RECEIVE (R176): a slave meets a header; one with an error counts in SYNC and is ignored. A header that comes
before the last response was whole ends it as short (log 21). -/
def execLinHeaderReceive (d : Die) (ch : Fin 8) (id : BitVec 6) (ok : Bool) (s : State) : Host.Outcome State Fault Refusal :=
  s.doOn d fun d =>
    if !d.linLive ch || d.linMaster ch then d
    else
      let d1 := if (d.linCh ch).cur.isSome then d.linTimeout ch else d
      if !ok then (d1.cnt linCntSync ch).onLin ch fun c => { c with active := d.now }
      else d1.linHeader ch id.toNat

/-- LIN_RESPONSE_RECEIVE (R173). -/
def execLinResponseReceive (d : Die) (ch : Fin 8) (data : List Byte) (csumOk collision : Bool) (stamp : Word) (s : State) :
    Host.Outcome State Fault Refusal :=
  s.doOn d fun d => if d.linLive ch then d.linReceive ch data csumOk collision stamp.toNat else d

/-- LIN_RESPONSE_TIMEOUT (R173). The number of bytes that came is observed on the bus only. -/
def execLinResponseTimeout (d : Die) (ch : Fin 8) (_got : Nat) (s : State) : Host.Outcome State Fault Refusal :=
  s.doOn d fun d => if d.linLive ch then d.linTimeout ch else d

/-- LIN_PUB: a write of PUB = 1 (R174). -/
def execLinPub (a : Acc) (ch : Fin 8) (i : BitVec 6) (s : State) : Host.Outcome State Fault Refusal :=
  s.doOn a.die fun d => d.writeReg a.req 3 ch (0x408 + 16 * i.toNat) 1 fun d => d.linRespAct ch i.toNat 1

/-- LIN_RESP_CLR: a write of CLR = 1 (R174). -/
def execLinRespClr (a : Acc) (ch : Fin 8) (i : BitVec 6) (s : State) : Host.Outcome State Fault Refusal :=
  s.doOn a.die fun d => d.writeReg a.req 3 ch (0x408 + 16 * i.toNat) 4 fun d => d.linRespAct ch i.toNat 4

/-- LIN_GTS: a write of GTS = 1 (R177). -/
def execLinGts (a : Acc) (ch : Fin 8) (s : State) : Host.Outcome State Fault Refusal :=
  s.doOn a.die fun d => d.writeReg a.req 3 ch 0x108 (d.linSleepWord ch 0) fun d => d.linSleepAct ch 1

/-- LIN_WAKEUP: a write of WAKEUP = 1 (R177). -/
def execLinWakeup (a : Acc) (ch : Fin 8) (s : State) : Host.Outcome State Fault Refusal :=
  s.doOn a.die fun d => d.writeReg a.req 3 ch 0x108 (d.linSleepWord ch 1) fun d => d.linSleepAct ch 2

/-- LIN_WAKE (R177; 15 R409): a wake pulse is detected while the channel sleeps; it wakes the die. -/
def execLinWake (d : Die) (ch : Fin 8) (s : State) : Host.Outcome State Fault Refusal :=
  s.doOn d fun d =>
    if d.bit linCtrlEn ch ∧ d.rd linStatState ch = 2 ∧ (d.linCh ch).wakeAt = none then
      ((d.onLin ch fun c => { c with wakeAt := some (d.now + 100000000), active := d.now }).wakeDie 1).raise 0x0305 0 ch
    else d

/-- LIN_WAKE_READY (R177): headers are accepted again 100 ms after the wake. -/
def execLinWakeReady (d : Die) (ch : Fin 8) (s : State) : Host.Outcome State Fault Refusal :=
  s.doOn d fun d =>
    match (d.linCh ch).wakeAt with
    | some t => if t ≤ d.now then (d.onLin ch fun c => { c with wakeAt := none, active := d.now }).wr linStatState 0 ch else d
    | none => d

/-- LIN_IDLE_SLEEP (R176): 4 s of bus inactivity. -/
def execLinIdleSleep (d : Die) (ch : Fin 8) (s : State) : Host.Outcome State Fault Refusal :=
  s.doOn d fun d =>
    if d.linLive ch ∧ !d.linMaster ch ∧ d.bit linSleepIdle ch ∧ (d.linCh ch).cur = none
        ∧ (d.linCh ch).active + 4000000000 ≤ d.now then d.wr linStatState 2 ch
    else d

/-- LIN_RESPONSE_SENT (R174; 12 R330). -/
def execLinResponseSent (d : Die) (ch : Fin 8) (s : State) : Host.Outcome State Fault Refusal :=
  s.doOn d fun d => if d.linLive ch then d.linSent ch else d

end Sys2Proof.Machine
end

