-- ==== Sys2Proof/Machine/Keys.lean ====
section
/-! DEFINITION. Machine/Keys.lean: the key store (chapter 11, R286 to R297): slots, counters, key fetches of the consumers,
shadows, zeroizing; and the seal and freshness of CAN frames (R306, R307). -/

namespace Sys2Proof.Machine

/-- Usage bits of ATTR_A (11 Table 11.1). -/
inductive Usage where
  | macsecTx
  | macsecRx
  | enc
  | dec
  | mac
  | seal
  | verify
  | xts
  | kek
  deriving DecidableEq, Repr

/-- The bit of a usage. -/
def Usage.bit (u : Usage) : Nat :=
  match u with
  | .macsecTx => 0
  | .macsecRx => 1
  | .enc => 2
  | .dec => 3
  | .mac => 4
  | .seal => 5
  | .verify => 6
  | .xts => 7
  | .kek => 8

/-- The number of the die in Config. -/
def DieState.num (d : DieState) : Nat := if d.die = .west then 0 else 1

/-- A slot. -/
def DieState.slot (d : DieState) (k : Nat) : KeySlot := Tab.get {} d.sec.slots k

/-- Puts a slot back. -/
def DieState.setSlot (d : DieState) (k : Nat) (x : KeySlot) : DieState :=
  { d with sec := { d.sec with slots := Tab.put {} d.sec.slots k x } }

/-! ### Counters (R289 to R291) -/

/-- C of a slot. -/
def KeySlot.c (x : KeySlot) : Nat := x.e * 2 ^ 32 + x.n

/-- The slot is exhausted (R291): marked, and the event raised once. -/
def DieState.exhaust (d : DieState) (k : Nat) : DieState :=
  let x := d.slot k
  if x.exhausted then d else (d.setSlot k { x with exhausted := true }).raise 0x0B05 k k

/-- N after an increment (R290): the write of the next epoch starts at half the count, and the wrap needs its completion. -/
def KeySlot.advance (x : KeySlot) (now : Nat) : KeySlot :=
  let n := x.n + 1
  if n = 2 ^ 31 ∧ x.e + 2 < 2 ^ 32 then { x with n := n, write := some (x.e + 2, now) }
  else if n = 2 ^ 32 ∧ x.e + 2 ≤ x.res then { x with n := 0, e := x.e + 1 }
  else { x with n := n }

/-- Takes C for an operation that needs one: the status of Table 11.5 and C. -/
def DieState.takeC (d : DieState) (k : Nat) (nonXpn : Bool) : Nat × Nat × DieState :=
  let x := d.slot k
  if x.exhausted then (5, 0, d)
  else if (nonXpn && decide (x.e ≠ 0)) || (decide (x.n = 2 ^ 32) && decide (2 ^ 32 ≤ x.e + 2)) then (5, 0, d.exhaust k)
  else if x.res ≤ x.e ∨ x.n = 2 ^ 32 then
    let d1 := d.cnt cipCntCounterWait
    (6, 0, if x.waited then d1 else (d1.setSlot k { x with waited := true }).raise 0x0B04 k k)
  else (0, x.c, d.setSlot k (x.advance d.now))

/-! ### Key fetches (R286, R293, R294) -/

/-- Who issued a look-aside job: the secure attribute and the cluster of an engine. -/
structure Issuer where
  secure  : Bool
  cluster : Option Nat
  deriving DecidableEq, Repr

/-- What a fetch returns: its status, and with status 0 the key, the copy's number, the salt and the C taken. -/
structure Fetch where
  status : Nat := 0
  key    : List Byte := []
  gen    : Nat := 0
  salt   : Nat := 0
  c      : Nat := 0
  deriving DecidableEq, Repr

/-- R286: the slot's attributes allow the operation to the issuer; a consumer of the data path has none. -/
def usageOk (a : Nat) (u : Usage) (i : Option Issuer) : Bool :=
  a.testBit u.bit &&
    match i with
    | none => true
    | some i => (!a.testBit 9 || i.secure) &&
      match i.cluster with
      | some c => a.testBit (12 + c)
      | none => a.testBit 16

/-- A consumer at position `pos` of the light-tight bus fetches the key of a slot (R293). -/
def DieState.fetchKey (d : DieState) (pos k : Nat) (u : Usage) (needC : Bool) (i : Option Issuer) (nonXpn : Bool := false) :
    Fetch × DieState :=
  let d0 := { d with sec := { d.sec with lightPtr := (pos + 1) % 7 } }
  match (d0.slot k).active with
  | none => ({ status := 3 }, d0)
  | some a =>
    if !usageOk a.attrA u i then ({ status := 2 }, d0)
    else
      let (st, c, d1) := if needC then d0.takeC k nonXpn else (0, 0, d0)
      if st ≠ 0 then ({ status := st }, d1)
      else
        ({ key := a.key, gen := a.gen, salt := a.attrB, c := c },
          d1.setSlot k { d1.slot k with active := some { a with refs := a.refs + 1 } })

/-- A job releases the copy it fetched (R294); a shadow is wiped when its count reaches 0 (R295). -/
def DieState.releaseKey (d : DieState) (k gen : Nat) : DieState :=
  let x := d.slot k
  match x.active with
  | some a =>
    if a.gen = gen then d.setSlot k { x with active := some { a with refs := a.refs - 1 } }
    else
      match x.shadow with
      | some b =>
        if b.gen = gen then d.setSlot k { x with shadow := if b.refs ≤ 1 then none else some { b with refs := b.refs - 1 } } else d
      | none => d
  | none =>
    match x.shadow with
    | some b =>
      if b.gen = gen then d.setSlot k { x with shadow := if b.refs ≤ 1 then none else some { b with refs := b.refs - 1 } } else d
    | none => d

/-- The copy is still held: it has not been zeroized (R296). -/
def DieState.keyHeld (d : DieState) (k gen : Nat) : Bool :=
  let x := d.slot k
  (x.active.any fun a => decide (a.gen = gen)) || (x.shadow.any fun a => decide (a.gen = gen))

/-- The 96-bit initialisation vector: SALT, then C, most significant byte first (R300). -/
def gcmIv (salt c : Nat) : List Byte := beBytes 4 salt ++ beBytes 8 c

/-! ### Sealed CAN frames (R306, R307) -/

/-- The MAC input of Table 11.6. -/
def sealInput (id : Nat) (ide : Bool) (data : List Byte) (c : Nat) : List Byte :=
  beBytes 4 (id + if ide then 2 ^ 29 else 0) ++ beBytes 2 data.length ++ data ++ beBytes 8 c

/-- The first 8 bytes of the AES-CMAC of a frame. -/
def sealMac (key : List Byte) (id : Nat) (ide : Bool) (data : List Byte) (c : Nat) : List Byte :=
  (Config.cmac key (sealInput id ide data c)).take 8

/-- A frame is sealed under a slot: the data field with its trailer, or none when no key serves it. -/
def DieState.sealFrame (d : DieState) (k id : Nat) (ide : Bool) (data : List Byte) : Option (List Byte) × DieState :=
  let (f, d1) := d.fetchKey 5 k .seal true none
  if f.status ≠ 0 then (none, d1)
  else (some (data ++ beBytes 4 (f.c % 2 ^ 32) ++ sealMac f.key id ide data f.c), d1.releaseKey k f.gen)

/-- A freshness state. -/
def DieState.fwState (d : DieState) (k : Nat) : FwState := Tab.get {} d.sec.fw k

/-- LAST of a freshness state. -/
def DieState.fwLast (d : DieState) (k : Nat) : Nat := d.rd cipFwLastLo 0 k + 2 ^ 32 * d.rd cipFwLastHi 0 k

/-- Sets LAST. -/
def DieState.setFwLast (d : DieState) (k v : Nat) : DieState := (d.wr cipFwLastLo v 0 k).wr cipFwLastHi (v / 2 ^ 32) 0 k

/-- A value has been seen. -/
def FwState.marked (x : FwState) (f : Nat) : Bool := decide (f < x.floor) || x.marks.contains f

/-- SET (R307): LAST takes the value, and every value at or below it counts as seen. -/
def DieState.fwSet (d : DieState) (k : Nat) : DieState :=
  let v := d.rd cipFwSetLo 0 k + 2 ^ 32 * d.rd cipFwSetHi 0 k
  let d1 := d.setFwLast k v
  { d1 with sec := { d1.sec with fw := Tab.insert d1.sec.fw k { floor := v + 1, marks := [] } } }

/-- The verdict on a sealed frame. -/
inductive SealRes where
  | accept
  | badMac
  | replay
  deriving DecidableEq, Repr

/-- The freshness decision (R307) on value `f`: LAST moves on, the value is marked, or the frame is a replay. -/
def DieState.fwDecide (d : DieState) (k f : Nat) : SealRes × DieState :=
  let last := d.fwLast k
  let x := d.fwState k
  let w := d.rd cipFwA 0 k
  if last < f then
    let d1 := d.setFwLast k f
    let ms := f :: x.marks.filter fun m => decide (f < m + w)
    (.accept, { d1 with sec := { d1.sec with fw := Tab.insert d1.sec.fw k { x with marks := ms } } })
  else if !x.marked f then
    (.accept, { d with sec := { d.sec with fw := Tab.insert d.sec.fw k { x with marks := f :: x.marks } } })
  else (.replay, d)

/-- A sealed frame is verified under a slot (R307): its trailer, two candidates of the freshness value, the decision. -/
def DieState.verifyFrame (d : DieState) (k id : Nat) (ide : Bool) (data : List Byte) : SealRes × DieState :=
  if data.length < 12 then (.badMac, d.cnt cipFwCntMacFails 0 k)
  else
    let (fe, d1) := d.fetchKey 5 k .verify false none
    if fe.status ≠ 0 then (.badMac, d1.cnt cipFwCntMacFails 0 k)
    else
      let d2 := d1.releaseKey k fe.gen
      let p := data.length - 12
      let n := beAt data p 4
      let mac := data.drop (p + 4)
      let base := (d2.fwLast k + 2 ^ 64 - d2.rd cipFwA 0 k + 1) % 2 ^ 64
      let f0 := (base + (n + 2 ^ 32 - base % 2 ^ 32) % 2 ^ 32) % 2 ^ 64
      let f1 := (f0 + 2 ^ 32) % 2 ^ 64
      let ok (c : Nat) : Bool := decide (sealMac fe.key id ide (data.take p) c = mac)
      let r := if ok f0 then d2.fwDecide k f0 else if ok f1 then d2.fwDecide k f1 else (.badMac, d2)
      match r.1 with
      | .accept => r
      | .badMac => (.badMac, r.2.cnt cipFwCntMacFails 0 k)
      | .replay => (.replay, r.2.cnt cipFwCntReplays 0 k)

/-! ### Look-aside jobs in flight (R298, R301) -/

/-- The completion record of Table 11.4. -/
def CJob.record (j : CJob) : List Word :=
  [BitVec.ofNat 32 ((j.desc.headD 0).toNat / 2 ^ 24 + j.num * 256 + j.status * 65536
      + (if j.untrusted then 2 ^ 20 else 0) + j.lane * 2 ^ 21),
   BitVec.ofNat 32 j.c, BitVec.ofNat 32 (j.c / 2 ^ 32), BitVec.ofNat 32 j.written]

/-- The number of the next job: the first number from the counter on that no job in flight has (DESIGN CHOICE, log 36). -/
def DieState.jobNum (d : DieState) : Nat :=
  (((List.range 256).map fun i => (d.sec.nextJob + i) % 256).find? fun n => d.sec.jobs.all fun j => decide (j.num ≠ n)).getD 0

/-- A job joins the job queue (R298), or finds 256 jobs in flight: its number. -/
def DieState.cipIssue (d : DieState) (req : Nat) (secure : Bool) (cluster : Option Nat) (desc : List Word) : Option (Nat × DieState) :=
  if 256 ≤ d.sec.jobs.length then none
  else
    let n := d.jobNum
    let js := d.sec.jobs ++ [{ num := n, req := req, secure := secure, cluster := cluster, desc := desc }]
    let pos := cluster.getD (if req < 4 then 4 + req else 8)
    let d1 := { d with sec := { d.sec with jobs := js, nextJob := (n + 1) % 256, jobPtr := (pos + 1) % 9 } }
    some (n, d1.peak cipJobsPeak js.length)

/-- CQ of a job. -/
def CJob.cq (j : CJob) : Nat := (j.desc.headD 0).toNat / 2 ^ 12 % 64

/-- Writes the records of ended jobs, each after those of earlier jobs that name its queue block (R301). `blocked` lists
queue blocks on which an earlier job still runs. -/
def DieState.cipRecords (d : DieState) (blocked : List Nat) (js : List CJob) : DieState × List CJob :=
  match js with
  | [] => (d, [])
  | j :: r =>
    if j.ended && !blocked.contains j.cq then
      let p := d.qbWrite j.cq j.record
      let d1 := if p.1 then p.2 else (p.2.cnt cipCntCqDrop).raiseHeld 0x0B03 0 1000000 j.cq
      DieState.cipRecords d1 blocked r
    else
      let p := DieState.cipRecords d (if j.ended then blocked else j.cq :: blocked) r
      (p.1, j :: p.2)

/-- The jobs in flight after a change: records that may now be written are written. -/
def DieState.cipSettle (d : DieState) (js : List CJob) : DieState :=
  let p := d.cipRecords [] js
  { p.1 with sec := { p.1.sec with jobs := p.2 } }

/-- A job ends (R301) with a status: its keys are released and it is counted. -/
def DieState.cipEnd (d : DieState) (num status : Nat) (c written : Nat := 0) (untrusted : Bool := false) : DieState :=
  match d.sec.jobs.find? fun j => decide (j.num = num) && !j.ended with
  | none => d
  | some j =>
    let d1 := j.refs.foldl (fun d p => d.releaseKey p.1 p.2) d
    let d2 := d1.cnt cipCntDone
    let d3 := if status = 1 then d2.cnt cipCntAuthFail else d2
    let j' := { j with ended := true, status := status, c := c, written := written, untrusted := untrusted, keys := [], refs := [] }
    d3.cipSettle (d3.sec.jobs.map fun x => if x.num = num ∧ !x.ended then j' else x)

end Sys2Proof.Machine
end

