-- ==== Sys2Proof/Machine/Tables.lean ====
section
/-! DEFINITION. Machine/Tables.lean: the forwarding tables (chapter 9): entries and their errors, FDB buckets, learning, moves,
flushes and aging, staged edits, the Proofer, engine lookups of tables 0 to 4. -/

namespace Sys2Proof.Machine

/-! ### Entries (R232, R246) -/

/-- Bits of a number. -/
def bitsOf (v lo w : Nat) : Nat := v / 2 ^ lo % 2 ^ w

/-- Entries of a table (09 Table 9.1). -/
def tableSize (t : Nat) : Nat := [65536, 4096, 2048, 4096, 2048, 65536, 4096, 1024].getD t 0

/-- Words of an entry of a table. -/
def tableWords (t : Nat) : Nat := [3, 3, 8, 2, 4, 4, 4, 1].getD t 0

/-- The defined fields of each word of an entry (09 Tables 9.2 to 9.5; 05 Tables 5.7, 5.16). -/
def tableMasks (t : Nat) : List Nat :=
  match t with
  | 0 => [0xFFFFFFFF, 0xFFFFFFFF, 0x00FFFFFF]
  | 1 => [0x9FFFFFFF, 0x1FFFFFFF, 0x0007FFFF]
  | 2 => [0xFFFFFFFF, 0x7FFFFFFF, 0xFFFFFFFF, 0x7FFFFFFF, 0x1FFFFFFF, 0xA0000FFF, 0, 0]
  | 3 => [0x87FFFFFF, 0x0FFF07FF]
  | 4 => [0xF1FFFFFF, 0x81FFFFFF, 0x00FFFFFF, 0x00FFFFFF]
  | 5 => [0xFFFFFFFF, 0xFFFFFFFF, 0x007FFFFF, 0x00FFFFFF]
  | 6 => [0x9FFFFFFF, 0x1FFFFFFF, 0xFFFF007F, 0]
  | 7 => [0x1FFFFFFF]
  | _ => []

/-- The hall of a table (09 Table 9.1). -/
def tableHall (t : Nat) : Hall := if t = 5 ∨ t = 6 then .bus else .swc

/-- The key of an entry. -/
def entryKey (t i : Nat) : Nat := 65536 * t + i

/-- The words of an entry as stored; an unlisted entry is zero, table 6 stands in the BRG map registers. -/
def DieState.entry (d : DieState) (t i : Nat) : List Nat :=
  if t = 6 then
    [d.rd brgMapAMatch 0 i + 2 ^ 31 * d.rd brgMapAValid 0 i, d.rd brgMapB 0 i,
     d.rd brgMapCChan 0 i + 32 * d.rd brgMapCAnych 0 i + 64 * d.rd brgMapCHmode 0 i + 65536 * d.rd brgMapCHbase 0 i, 0]
  else
    match Tab.get? d.tbl.ent (entryKey t i) with
    | some ws => ws.map BitVec.toNat
    | none => List.replicate (tableWords t) 0

/-- An entry has an uncorrectable error. -/
def DieState.entryBad (d : DieState) (t i : Nat) : Bool := d.tbl.ue.contains (entryKey t i)

/-- The entry as a lookup reads it: one with an uncorrectable error reads as VALID = 0 (R246). -/
def DieState.entryRead (d : DieState) (t i : Nat) : List Nat :=
  if d.entryBad t i then List.replicate (tableWords t) 0 else d.entry t i

/-- The entry in the set of a tag: an edited entry's former contents for the old set (R250). -/
def DieState.entryAs (d : DieState) (tag t i : Nat) : List Nat :=
  if tag = d.gen then d.entryRead t i
  else
    match Tab.get? d.tbl.former (entryKey t i) with
    | some ws => ws.map BitVec.toNat
    | none => d.entryRead t i

/-- Word `k` of an entry. -/
def wd (ws : List Nat) (k : Nat) : Nat := ws.getD k 0

/-- A read meets an entry with an uncorrectable error: counted and raised (R246; 17 R428). -/
def DieState.ueRead (d : DieState) (t i : Nat) : DieState :=
  if d.entryBad t i then
    ((d.cnt fwtUe 0 t).cnt evtUe 0 (tableHall t).num).raise 0x0603 (i + t * 65536)
  else d

/-- The reads of several entries. -/
def DieState.ueReads (d : DieState) (t : Nat) (is : List Nat) : DieState :=
  if d.tbl.ue.isEmpty then d else is.foldl (fun d i => d.ueRead t i) d

/-- The entries of a table with an uncorrectable error: a masked match reads them all. -/
def DieState.badEntries (d : DieState) (t : Nat) : List Nat :=
  if d.tbl.ue.isEmpty then [] else (List.range (tableSize t)).filter fun i => d.entryBad t i

/-- The table unit serves: the Frame hall runs and no error of its pipeline, queue or edit buffer fences it (R246). -/
def DieState.tablesOn (d : DieState) : Bool := d.hallOn .swc && !d.fences.contains 70

/-- Writes an entry; it is usable again (R246). -/
def DieState.setEntry (d : DieState) (t i : Nat) (ws : List Nat) : DieState :=
  let w := ws.map (BitVec.ofNat 32)
  { d with tbl := { d.tbl with ent := Tab.put (List.replicate (tableWords t) 0) d.tbl.ent (entryKey t i) w,
                               ue := d.tbl.ue.filter fun k => decide (k ≠ entryKey t i) } }

/-! ### FDB entries (R235, Table 9.2) -/

/-- The bucket of a key. -/
def fdbBucket (fid : Nat) (mac : List Byte) : Nat :=
  crc32c (mac ++ [BitVec.ofNat 8 fid, BitVec.ofNat 8 (fid / 256 % 16)]) % 8192

/-- MAC_LO and MAC_HI of an address. -/
def macLo (mac : List Byte) : Nat := leAt mac 0 4
def macHi (mac : List Byte) : Nat := leAt mac 4 2

/-- VALID, STATIC, MC, LOCKED. -/
def fdbValid (e : List Nat) : Bool := (wd e 1).testBit 28
def fdbStatic (e : List Nat) : Bool := (wd e 1).testBit 29
def fdbMc (e : List Nat) : Bool := (wd e 1).testBit 30
def fdbLocked (e : List Nat) : Bool := (wd e 1).testBit 31

/-- DEST, ESEL, AGE. -/
def fdbDest (e : List Nat) : Nat := bitsOf (wd e 2) 0 10
def fdbEsel (e : List Nat) : Nat := bitsOf (wd e 2) 10 6
def fdbAge (e : List Nat) : Nat := bitsOf (wd e 2) 16 8

/-- The key part of word 1: MAC_HI and FID. -/
def fdbKey (e : List Nat) : Nat × Nat := (wd e 0, bitsOf (wd e 1) 0 28)

/-- Words of an entry. -/
def fdbWords (lo key1 : Nat) (static mc locked : Bool) (dest esel age : Nat) : List Nat :=
  [lo, key1 + 2 ^ 28 + (if static then 2 ^ 29 else 0) + (if mc then 2 ^ 30 else 0) + (if locked then 2 ^ 31 else 0),
   dest + esel * 1024 + age * 65536]

/-- The slots of a bucket. -/
def bucketSlots (b : Nat) : List Nat := (List.range 8).map fun w => 8 * b + w

/-- The bytes of the MAC of an entry's words. -/
def macOf (lo key1 : Nat) : List Byte := leBytes 4 lo ++ leBytes 2 (key1 % 65536)

/-- The bucket of an entry's key. -/
def bucketOfKey (k : Nat × Nat) : Nat := fdbBucket (bitsOf k.2 16 12) (macOf k.1 k.2)

/-- The slot that holds a key, in the set of a tag. -/
def DieState.fdbFindAs (d : DieState) (tag : Nat) (k : Nat × Nat) : Option Nat :=
  (bucketSlots (bucketOfKey k)).find? fun s =>
    let e := d.entryAs tag 0 s
    fdbValid e && decide (fdbKey e = k)

/-- The slot that holds a key. -/
def DieState.fdbFind (d : DieState) (fid : Nat) (mac : List Byte) : Option Nat :=
  d.fdbFindAs d.gen (macLo mac, macHi mac + fid * 65536)

/-- The place of a new entry in a bucket (R238): the lowest free way, else the oldest dynamic entry (and its eviction). -/
def DieState.fdbPlace (d : DieState) (b : Nat) : Option (Nat × Bool) :=
  match (bucketSlots b).find? fun s => d.entryBad 0 s || !fdbValid (d.entry 0 s) with
  | some s => some (s, false)
  | none =>
    let best := (bucketSlots b).foldl (fun (o : Option Nat) s =>
      if fdbStatic (d.entry 0 s) then o
      else
        match o with
        | none => some s
        | some t => if fdbAge (d.entry 0 t) < fdbAge (d.entry 0 s) then some s else some t) none
    best.map fun s => (s, true)

/-! ### The learn queue (R236, R237) -/

/-- The learn time base. -/
def DieState.learnTime (d : DieState) : Nat := d.position (d.rd fwtLearn)

/-- Items of a waiting flush enter as room comes; BUSY ends with them (R237, R240). -/
def DieState.flushEnter (d : DieState) : DieState :=
  match d.tbl.flushReq with
  | [] => d
  | i :: r =>
    if d.tbl.lq.length < 1024 then
      let d1 := { d with tbl := { d.tbl with lq := d.tbl.lq ++ [i], flushReq := r } }
      let d2 := d1.peak fwtLqPeak d1.tbl.lq.length
      if r.isEmpty then d2.wr fwtFlushBusy 0 else d2
    else d

/-- A learn or relocation item enters, or is dropped at a full queue (R237). -/
def DieState.learnPush (d : DieState) (i : LItem) : DieState :=
  if d.tbl.lq.length < 1024 ∧ d.tbl.flushReq = [] ∧ !d.fences.contains 70 then
    let d1 := { d with tbl := { d.tbl with lq := d.tbl.lq ++ [i] } }
    d1.peak fwtLqPeak d1.tbl.lq.length
  else d.cnt fwtCntLearnQdrop

/-- A flush request never drops: it waits at a full queue. -/
def DieState.flushPush (d : DieState) (i : LItem) : DieState :=
  ({ d with tbl := { d.tbl with flushReq := d.tbl.flushReq ++ [i] } }).flushEnter

/-- Source processing of a frame (R236) for its FID and source address on its ingress port; items that enter are
replicated by the active die (12 R329). -/
def DieState.learnSource (d : DieState) (fid : Nat) (mac : List Byte) (port : Nat) : DieState :=
  let send (d : DieState) (i : LItem) : DieState :=
    let d1 := d.learnPush i
    if d.pairMode = 1 ∧ d.role = 1 ∧ d.linkUp then d1.sendVc 3 (.learn i) else d1
  match d.fdbFind fid mac with
  | none => send d (.learn fid mac port d.learnTime)
  | some s =>
    let e := d.entry 0 s
    if fdbDest e = port ∧ !fdbMc e then
      if fdbStatic e then d else d.setEntry 0 s [wd e 0, wd e 1, wd e 2 - fdbAge e * 65536]
    else if fdbStatic e then d.cnt fwtCntStaticConflict
    else send d (.move s port d.learnTime)

/-! ### Serving the learn queue (R238 to R240) -/

/-- A relocation (R239) of slot `s` to port `q` at instant `t`, against the move tracker. -/
def DieState.moveItem (d : DieState) (s q t : Nat) : DieState :=
  let e := d.entry 0 s
  let hold := d.rd fwtMoveHoldoff * 1000
  if d.entryBad 0 s || !fdbValid e || fdbStatic e then d
  else if fdbLocked e then d.cnt fwtCntMoveRefused
  else
    let live (r : MoveRec) : Bool := decide (posDiff t r.last < hold)
    let own := d.tbl.tracker.find? fun r => decide (r.slot = s) && live r
    let count := match own with
      | some r => r.count + 1
      | none => 1
    let rest := d.tbl.tracker.filter fun r => decide (r.slot ≠ s)
    if d.rd fwtMoveFlapLimit ≤ count then
      let d1 := d.setEntry 0 s [wd e 0, wd e 1 + 2 ^ 31, wd e 2]
      (({ d1 with tbl := { d1.tbl with tracker := rest } }).cnt fwtCntFlaps).raise 0x0602 (s + q * 65536)
    else
      let kept :=
        if rest.length < 64 then rest
        else
          match rest.find? fun r => !live r with
          | some r => rest.erase r
          | none =>
            let old := rest.foldl (fun (o : MoveRec) r => if posDiff r.last o.last < 0 then r else o) (rest.headD { slot := 0, last := 0, count := 0 })
            rest.erase old
      let d1 := d.setEntry 0 s (fdbWords (wd e 0) (fdbKey e).2 false false false q (fdbEsel e) 0)
      ({ d1 with tbl := { d1.tbl with tracker := kept ++ [({ slot := s, last := t, count := count } : MoveRec)] } }).cnt fwtCntRelocated

/-- A learn item (R238). A key that an earlier item has placed meanwhile is refreshed, moved or left (log 24). -/
def DieState.learnItem (d : DieState) (fid : Nat) (mac : List Byte) (port t : Nat) : DieState :=
  let k := (macLo mac, macHi mac + fid * 65536)
  match d.fdbFind fid mac with
  | some s =>
    let e := d.entry 0 s
    if fdbStatic e then (if fdbDest e = port then d else d.cnt fwtCntStaticConflict)
    else if fdbDest e = port then d.setEntry 0 s [wd e 0, wd e 1, wd e 2 - fdbAge e * 65536]
    else d.moveItem s port t
  | none =>
    let b := bucketOfKey k
    let d0 := d.ueReads 0 (bucketSlots b)
    match d0.fdbPlace b with
    | some (s, evict) =>
      let d1 := if evict then d0.cnt fwtCntEvicted else d0
      (d1.setEntry 0 s (fdbWords k.1 k.2 false false false port 0 0)).cnt fwtCntLearned
    | none => (d0.cnt fwtCntLearnFail).raiseHeld 0x0601 0 1000000 b

/-- A flush (R240): dynamic entries whose DEST is a port and that match the scope are removed and counted. -/
def DieState.flushItem (d : DieState) (byPort byFid : Option Nat) : DieState :=
  let hit (e : List Nat) : Bool :=
    fdbValid e && !fdbStatic e && !fdbMc e
      && (match byPort with
          | some p => decide (fdbDest e = p)
          | none => true)
      && (match byFid with
          | some f => decide (bitsOf (wd e 1) 16 12 = f)
          | none => true)
  (d.tbl.ent.filter fun p => decide (p.1 < 65536) && !d.entryBad 0 p.1 && hit (p.2.map BitVec.toNat)).foldl
    (fun d p => (d.setEntry 0 p.1 [0, 0, 0]).cnt fwtCntFlushed) d

/-- The item at the head of the learn queue is served. -/
def DieState.learnServe (d : DieState) : DieState :=
  match d.tbl.lq with
  | [] => d
  | i :: r =>
    let d1 := ({ d with tbl := { d.tbl with lq := r } }).flushEnter
    match i with
    | .learn fid mac port t => d1.learnItem fid mac port t
    | .move s q t => d1.moveItem s q t
    | .flush p f => d1.flushItem p f

/-- Aging (R241): one walk over the dynamic entries. -/
def DieState.agingWalk (d : DieState) : DieState :=
  let lim := d.rd fwtAgeLimit
  (d.tbl.ent.filter fun p => decide (p.1 < 65536)).foldl
    (fun d p =>
      let e := p.2.map BitVec.toNat
      if d.entryBad 0 p.1 then d.ueRead 0 p.1
      else if !fdbValid e || fdbStatic e then d
      else
        let age := min 255 (fdbAge e + 1)
        if lim ≤ age then (d.setEntry 0 p.1 [0, 0, 0]).cnt fwtCntAged
        else d.setEntry 0 p.1 [wd e 0, wd e 1, wd e 2 - fdbAge e * 65536 + age * 65536]) d

/-! ### Staged edits (R248 to R250) -/

/-- A field of an entry holds a reserved value (R249; 08 Table 8.3; 05 Table 5.7). -/
def reservedValue (t : Nat) (ws : List Nat) : Bool :=
  match t with
  | 0 => !fdbMc ws && decide (28 < fdbDest ws)
  | 3 => let m := bitsOf (wd ws 0) 0 14; decide (m ≠ 0) && (decide (m < 64) || decide (9216 < m))
  | 4 => decide (25000000 < bitsOf (wd ws 0) 0 25) || decide (25000000 < bitsOf (wd ws 1) 0 25)
  | 5 => decide (1 < bitsOf (wd ws 2) 17 2) || decide (4 < bitsOf (wd ws 3) 13 3)
  | _ => false

/-- An entry's data has a reserved bit or value that is not zero. -/
def reservedData (t : Nat) (ws : List Nat) : Bool :=
  (List.range (tableWords t)).any (fun k => decide (Nat.land (wd ws k) ((tableMasks t).getD k 0) ≠ wd ws k)) || reservedValue t ws

/-- The key of a staged FDB edit. -/
def Edit.key (e : Edit) : Nat × Nat := ((e.data.getD 0 0).toNat, bitsOf (e.data.getD 1 0).toNat 0 28)

/-- Static keys of a bucket in the active table together with the staged adds and deletes. -/
def DieState.staticKeys (d : DieState) (b : Nat) : List (Nat × Nat) :=
  let act := (bucketSlots b).filterMap fun s =>
    let e := d.entryRead 0 s
    if fdbValid e ∧ fdbStatic e then some (fdbKey e) else none
  d.tbl.edits.foldl (fun ks e =>
    if e.tbl = 0 ∧ bucketOfKey e.key = b then
      if e.op = 2 then (if ks.contains e.key then ks else e.key :: ks) else ks.filter fun k => decide (k ≠ e.key)
    else ks) act

/-- RESULT of an edit (09 Table 9.9), in the order of R249. -/
def DieState.editCheck (d : DieState) (e : Edit) : Nat :=
  let ws := e.data.map BitVec.toNat
  if !d.commitOpen then 7
  else if 1024 ≤ d.tbl.edits.length then 2
  else if 8 ≤ e.tbl ∨ e.tbl = 6 ∨ (e.op ≤ 1 ∧ (e.tbl = 0 ∨ tableSize e.tbl ≤ e.idx)) ∨ (2 ≤ e.op ∧ e.tbl ≠ 0) then 3
  else if (e.op = 0 ∨ e.op = 2) ∧ reservedData e.tbl ws then 4
  else if e.op = 2 ∧ !(d.staticKeys (bucketOfKey e.key)).contains e.key ∧ 8 ≤ (d.staticKeys (bucketOfKey e.key)).length then 5
  else if e.op = 3 ∧ !(d.staticKeys (bucketOfKey e.key)).contains e.key then 6
  else 1

/-- A GO of the edit port (R248, R249) by a requester with copy number `cp`. -/
def DieState.editGo (d : DieState) (cp : Nat) : DieState :=
  let e : Edit := { tbl := d.rd fwtEditCtlTbl cp, op := d.rd fwtEditCtlOp cp, idx := d.rd fwtEditIdx cp,
                    data := (List.range 8).map fun k => BitVec.ofNat 32 (d.rd fwtEditData cp k) }
  let r := d.editCheck e
  let d1 := d.wr fwtEditStatResult r cp
  if r = 1 then { d1 with tbl := { d1.tbl with edits := d1.tbl.edits ++ [e] } }
  else if r = 7 then (d1.cnt sysCommitSeqLateWr).raise 0x0004 (regAddr 6 0x200)
  else d1

/-- Keeps an entry's contents as they were before the commit (R250). -/
def DieState.keepFormer (d : DieState) (t i : Nat) : DieState :=
  match Tab.get? d.tbl.former (entryKey t i) with
  | some _ => d
  | none => { d with tbl := { d.tbl with former := Tab.insert d.tbl.former (entryKey t i) ((d.entryRead t i).map (BitVec.ofNat 32)) } }

/-- FDB_ADD (R248, R250): STATIC and VALID are forced, LOCKED and AGE ignored. -/
def DieState.fdbAdd (d : DieState) (lo key1 mc dest esel : Nat) : DieState :=
  let ws := fdbWords lo key1 true (decide (mc = 1)) false dest esel 0
  match d.fdbFindAs d.gen (lo, key1) with
  | some s => (d.keepFormer 0 s).setEntry 0 s ws
  | none =>
    match d.fdbPlace (bucketOfKey (lo, key1)) with
    | some (s, evict) =>
      let d1 := (d.keepFormer 0 s).setEntry 0 s ws
      if evict then d1.cnt fwtCntEvicted else d1
    | none => d

/-- One edit is applied. -/
def DieState.editApply (d : DieState) (e : Edit) : DieState :=
  let ws := e.data.map BitVec.toNat
  match e.op with
  | 0 => (d.keepFormer e.tbl e.idx).setEntry e.tbl e.idx (ws.take (tableWords e.tbl))
  | 1 => (d.keepFormer e.tbl e.idx).setEntry e.tbl e.idx (List.replicate (tableWords e.tbl) 0)
  | 2 => d.fdbAdd e.key.1 e.key.2 (bitsOf (wd ws 1) 30 1) (bitsOf (wd ws 2) 0 10) (bitsOf (wd ws 2) 10 6)
  | _ =>
    match d.fdbFindAs d.gen e.key with
    | some s => if fdbStatic (d.entry 0 s) then (d.keepFormer 0 s).setEntry 0 s [0, 0, 0] else d
    | none => d

/-- The staged edits are applied in the order in which they were staged; the edit buffer is then empty (R250). -/
def DieState.editsApply (d : DieState) : DieState :=
  let d1 := d.tbl.edits.foldl (fun d e => d.editApply e) d
  { d1 with tbl := { d1.tbl with edits := [] } }

/-! ### Engine lookups of tables 0 to 4 (R247, 04 R99) -/

/-- The lowest stream-identification entry that an address, VID and priority match; `port` none is an engine lookup, which
ignores INPORTS and SMAC (R244). -/
def DieState.streamFind (d : DieState) (tag : Nat) (port : Option Nat) (da sa : Nat × Nat) (vidPcp : Nat) : Option Nat :=
  (List.range 2048).find? fun i =>
    let e := d.entryAs tag 2 i
    let m := if port.isSome ∧ (wd e 5).testBit 29 then sa else da
    let k1 := m.2 + vidPcp
    (wd e 5).testBit 31
      && (match port with
          | some p => (wd e 4).testBit p
          | none => true)
      && decide (Nat.land m.1 (wd e 2) = Nat.land (wd e 0) (wd e 2))
      && decide (Nat.land k1 (wd e 3) = Nat.land (wd e 1) (wd e 3))

/-- The answer of an engine lookup on tables 0 to 4: HIT and the two result words (09 Table 9.6). -/
def DieState.lkpAnswer (d : DieState) (tag t : Nat) (key : List Nat) : Bool × Nat × Nat :=
  match t with
  | 0 =>
    match d.fdbFindAs tag (wd key 0, wd key 1) with
    | some s => let e := d.entryAs tag 0 s; (true, wd e 2, s + bitsOf (wd e 1) 28 4 * 2 ^ 28)
    | none => (false, 0, 0)
  | 1 => let e := d.entryAs tag 1 (wd key 0); if (wd e 0).testBit 31 then (true, wd e 0, wd e 2) else (false, 0, 0)
  | 2 =>
    let mac := (wd key 0, bitsOf (wd key 1) 0 16)
    match d.streamFind tag none mac mac (wd key 1 - bitsOf (wd key 1) 0 16) with
    | some i => (true, bitsOf (wd (d.entryAs tag 2 i) 5) 0 12 + i * 4096, 0)
    | none => (false, 0, 0)
  | 3 => let e := d.entryAs tag 3 (wd key 0); if (wd e 0).testBit 31 then (true, wd e 0, wd e 1) else (false, 0, 0)
  | 4 => let e := d.entryAs tag 4 (wd key 0); if (wd e 0).testBit 31 then (true, wd e 0, wd e 1) else (false, 0, 0)
  | _ => (false, 0, 0)

/-- The entries that an engine lookup of table `t` reads; errors among them are counted and raised (R246). -/
def DieState.lkpReads (d : DieState) (t : Nat) (key : List Nat) : DieState :=
  match t with
  | 0 => d.ueReads 0 (bucketSlots (bucketOfKey (wd key 0, wd key 1)))
  | 2 => d.ueReads 2 (d.badEntries 2)
  | 6 => d.ueReads 6 (d.badEntries 6)
  | _ => d.ueReads t [wd key 0]

/-! ### The Proofer (R251 to R254) -/

/-- Entry `i` of the Negative of a table, in host SRAM. -/
def DieState.negEntry (d : DieState) (t i : Nat) : List Nat :=
  let a := d.rd fwtNegBase 0 t * 4096 + i * (4 * tableWords t)
  (List.range (tableWords t)).map fun k => (d.host.sram.word (a + 4 * k)).toNat

/-- The Proofer pauses (R252). -/
def DieState.proofPaused (d : DieState) : Bool := !d.commitOpen || !d.tbl.edits.isEmpty

/-- The next table to sweep from code `t` on; 8 when none is left. -/
def nextTable (mask t : Nat) : Nat := ((List.range 8).find? fun k => decide (t ≤ k) && mask.testBit k).getD 8

/-- What an FDB comparison compares: MAC, FID, MC, DEST, ESEL. -/
def fdbProof (e : List Nat) : Nat × Nat × Bool × Nat × Nat := (wd e 0, bitsOf (wd e 1) 0 28, fdbMc e, fdbDest e, fdbEsel e)

/-- Mismatches of an FDB bucket (R253): slot, NEGBAD, uncorrectable. -/
def DieState.bucketMismatches (d : DieState) (b : Nat) : List (Nat × Bool × Bool) :=
  let tab := (bucketSlots b).filter fun s => !d.entryBad 0 s && fdbValid (d.entry 0 s) && fdbStatic (d.entry 0 s)
  let neg := (bucketSlots b).filter fun s => fdbStatic (d.negEntry 0 s)
  let good := neg.filter fun s => decide (bucketOfKey (fdbKey (d.negEntry 0 s)) = b)
  ((bucketSlots b).filter fun s => d.entryBad 0 s).map (fun s => (s, false, true))
    ++ (tab.filter fun s => !good.any fun n => decide (fdbProof (d.negEntry 0 n) = fdbProof (d.entry 0 s))).map (fun s => (s, false, false))
    ++ (neg.filter fun n => !good.contains n).map (fun n => (n, true, false))
    ++ (good.filter fun n => !tab.any fun s => decide (fdbProof (d.entry 0 s) = fdbProof (d.negEntry 0 n))).map (fun n => (n, false, false))

/-- An entry of tables 1 to 7 differs from its Negative over its defined fields. -/
def DieState.entryDiffers (d : DieState) (t i : Nat) : Bool :=
  d.entryBad t i ||
    (List.range (tableWords t)).any fun k =>
      let m := (tableMasks t).getD k 0
      decide (Nat.land (wd (d.entry t i) k) m ≠ Nat.land (wd (d.negEntry t i) k) m)

/-- Mismatches at the sweep's position: index, NEGBAD, uncorrectable. -/
def DieState.proofFind (d : DieState) (t i : Nat) : List (Nat × Bool × Bool) :=
  if t = 0 then d.bucketMismatches i else if d.entryDiffers t i then [(i, false, d.entryBad t i)] else []

/-- A mismatch is counted, raised, and with MODE = REPAIR held, up to 64 of them per sweep (R253, R254). -/
def DieState.proofNote (d : DieState) (t : Nat) (m : Nat × Bool × Bool) : DieState :=
  let info := m.1 + t * 65536 + (if m.2.1 then 2 ^ 20 else 0) + (if m.2.2 then 2 ^ 21 else 0)
  let d1 := (((if m.2.2 then d.ueRead t m.1 else d).cnt fwtProofCntMismatch)).raise 0x0604 info
  if d1.rd fwtProofCtlMode = 2 ∧ d1.tbl.swHeld.length < 64 ∧ !m.2.1 ∧ !d1.tbl.swHeld.contains (entryKey t m.1) then
    let held := d1.tbl.swHeld ++ [entryKey t m.1]
    { d1 with tbl := { d1.tbl with swHeld := held, repair := if held.length = 64 then held else d1.tbl.repair } }
  else d1

/-- One entry (one FDB bucket) is compared and the sweep moves on. -/
def DieState.proofCheck (d : DieState) : DieState :=
  let t := d.tbl.swTable
  let i := d.tbl.swIdx
  if !d.tbl.sweeping || decide (8 ≤ t) || d.proofPaused || !d.tbl.repair.isEmpty || decide (d.rd fwtProofCtlMode = 0) then d
  else
    let d1 := (d.proofFind t i).foldl (fun d m => d.proofNote t m) d
    let last := if t = 0 then 8191 else tableSize t - 1
    if i < last then { d1 with tbl := { d1.tbl with swIdx := i + 1 } }
    else { d1 with tbl := { d1.tbl with swTable := nextTable (d1.rd fwtProofCtlTables) (t + 1), swIdx := 0 } }

/-- A bucket is made equal to its Negative (R254). -/
def DieState.bucketRepair (d : DieState) (b : Nat) : DieState :=
  let d0 := (bucketSlots b).foldl (fun d s => if d.entryBad 0 s then d.setEntry 0 s [0, 0, 0] else d) d
  let good := (bucketSlots b).filter fun s =>
    fdbStatic (d.negEntry 0 s) && decide (bucketOfKey (fdbKey (d.negEntry 0 s)) = b)
  let d1 := (bucketSlots b).foldl (fun d s =>
    let e := d.entry 0 s
    if fdbValid e ∧ fdbStatic e ∧ !good.any (fun n => decide (fdbKey (d.negEntry 0 n) = fdbKey e))
    then d.setEntry 0 s [0, 0, 0] else d) d0
  good.foldl (fun d n =>
    let e := d.negEntry 0 n
    d.fdbAdd (wd e 0) (fdbKey e).2 (bitsOf (wd e 1) 30 1) (fdbDest e) (fdbEsel e)) d1

/-- Writes an entry of table 6 into the BRG map registers. -/
def DieState.setMap (d : DieState) (i : Nat) (ws : List Nat) : DieState :=
  ((((((d.wr brgMapAMatch (wd ws 0) 0 i).wr brgMapAValid (wd ws 0 / 2 ^ 31) 0 i).wr brgMapB (wd ws 1) 0 i).wr brgMapCChan (wd ws 2) 0 i).wr
    brgMapCAnych (wd ws 2 / 32) 0 i).wr brgMapCHmode (wd ws 2 / 64) 0 i).wr brgMapCHbase (wd ws 2 / 65536) 0 i

/-- One held entry is compared again and repaired; true when it still differed. -/
def DieState.proofFix (d : DieState) (key : Nat) : Bool × DieState :=
  let t := key / 65536
  let i := key % 65536
  if t = 0 then
    if (d.bucketMismatches (i / 8)).any fun m => !m.2.1 then (true, d.bucketRepair (i / 8)) else (false, d)
  else if d.entryDiffers t i then
    (true, if t = 6 then
        { d.setMap i (d.negEntry 6 i) with tbl := { d.tbl with ue := d.tbl.ue.filter fun k => decide (k ≠ key) } }
      else (d.keepFormer t i).setEntry t i (((d.negEntry t i).zip (tableMasks t)).map fun p => Nat.land p.1 p.2))
  else (false, d)

/-- The repair commit (R254): the entries that still differ, alone, in one step; COMMIT_SEQ counts it. -/
def DieState.proofApply (d : DieState) : DieState :=
  if d.tbl.repair.isEmpty || d.proofPaused then d
  else if d.rd fwtProofCtlMode ≠ 2 then { d with tbl := { d.tbl with repair := [] } }
  else
    let p := d.tbl.repair.foldl (fun (q : Nat × DieState) k =>
      let r := q.2.proofFix k
      (if r.1 then q.1 + 1 else q.1, r.2)) (0, d)
    let d1 := { p.2 with tbl := { p.2.tbl with repair := [], former := [] } }
    if p.1 = 0 then d1
    else ((d1.cnt fwtProofCntRepaired 0 0 0 p.1).cnt sysCommitSeqCount).raise 0x0605 p.1

/-! ### The commands -/

/-- LEARN_ITEM_SERVE (R237): the queue stops while a commit applies, which is one step here. -/
def execLearnItemServe (d : Die) (s : State) : Host.Outcome State Fault Refusal :=
  s.doOn d fun d => if d.tablesOn then d.learnServe else d

/-- What a write of FWT.FLUSH does (R240): GO queues a flush item, unless one waits already. -/
def DieState.flushAct (d : DieState) (v : Word) : DieState :=
  if v.msb ∧ !d.bit fwtFlushBusy then
    let p := if d.bit fwtFlushByport then some (d.rd fwtFlushPort) else none
    let f := if d.bit fwtFlushByfid then some (d.rd fwtFlushFid) else none
    (d.wr fwtFlushBusy 1).flushPush (.flush p f)
  else d

/-- FLUSH_GO: a write of FWT.FLUSH. -/
def execFlushGo (a : Acc) (v : Word) (s : State) : Host.Outcome State Fault Refusal :=
  s.doOn a.die fun d => d.writeReg a.req 6 0 0x01C v fun d => d.flushAct v

/-- What a write of FWT.UNLOCK does (R239): LOCKED of the slot is cleared. -/
def DieState.unlockAct (d : DieState) (v : Word) : DieState :=
  let s := v.toNat % 65536
  let e := d.entry 0 s
  if v.msb ∧ fdbValid e ∧ fdbLocked e ∧ !d.entryBad 0 s then d.setEntry 0 s [wd e 0, wd e 1 - 2 ^ 31, wd e 2] else d

/-- FDB_UNLOCK: a write of FWT.UNLOCK. -/
def execFdbUnlock (a : Acc) (v : Word) (s : State) : Host.Outcome State Fault Refusal :=
  s.doOn a.die fun d => d.writeReg a.req 6 0 0x020 v fun d => d.unlockAct v

/-- AGING_TICK (R241): once per multiple of TICK ms on the learn time base. -/
def execAgingTick (d : Die) (s : State) : Host.Outcome State Fault Refusal :=
  s.doOn d fun d =>
    let k := d.learnTime / (d.rd fwtAgeTick * 1000000)
    if d.tablesOn ∧ k ≠ d.tbl.lastTick then ({ d with tbl := { d.tbl with lastTick := k } }).agingWalk else d

/-- What a write of FWT.EDIT_CTL does: GO stages the edit. -/
def DieState.editAct (d : DieState) (cp : Nat) (v : Word) : DieState := if v.msb then d.editGo cp else d

/-- The word of a GO with the operation of the row (09 Table 9.9). -/
def editWord (v : Word) (op : Nat) : Word := BitVec.ofNat 32 (v.toNat - bitsOf v.toNat 4 2 * 16 + op * 16)

/-- EDIT_WRITE: a write of FWT.EDIT_CTL with OP WRITE. -/
def execEditWrite (a : Acc) (v : Word) (s : State) : Host.Outcome State Fault Refusal :=
  s.doOn a.die fun d => d.writeReg a.req 6 0 0x200 (editWord v 0) fun d => d.editAct (reqCopy a.req) v

/-- EDIT_CLEAR: OP CLEAR. -/
def execEditClear (a : Acc) (v : Word) (s : State) : Host.Outcome State Fault Refusal :=
  s.doOn a.die fun d => d.writeReg a.req 6 0 0x200 (editWord v 1) fun d => d.editAct (reqCopy a.req) v

/-- EDIT_FDB_ADD: OP FDB_ADD. -/
def execEditFdbAdd (a : Acc) (v : Word) (s : State) : Host.Outcome State Fault Refusal :=
  s.doOn a.die fun d => d.writeReg a.req 6 0 0x200 (editWord v 2) fun d => d.editAct (reqCopy a.req) v

/-- EDIT_FDB_DEL: OP FDB_DEL. -/
def execEditFdbDel (a : Acc) (v : Word) (s : State) : Host.Outcome State Fault Refusal :=
  s.doOn a.die fun d => d.writeReg a.req 6 0 0x200 (editWord v 3) fun d => d.editAct (reqCopy a.req) v

/-- PROOF_SWEEP_START (R252): a sweep begins at the lowest enabled table. -/
def execProofSweepStart (d : Die) (s : State) : Host.Outcome State Fault Refusal :=
  s.doOn d fun d =>
    if d.tablesOn ∧ !d.tbl.sweeping ∧ d.rd fwtProofCtlMode ≠ 0 ∧ nextTable (d.rd fwtProofCtlTables) 0 ≠ 8 ∧ d.tbl.swNext ≤ d.now
        ∧ d.tbl.repair = [] then
      { d with tbl := { d.tbl with sweeping := true, swTable := nextTable (d.rd fwtProofCtlTables) 0, swIdx := 0,
                                   swStart := d.now, swHeld := [] } }
    else d

/-- PROOF_ENTRY_CHECK (R253). -/
def execProofEntryCheck (d : Die) (s : State) : Host.Outcome State Fault Refusal :=
  s.doOn d fun d => if d.tablesOn then d.proofCheck else d

/-- PROOF_SWEEP_END (R252, R254): every table has been swept; the entries held wait for their repair. -/
def execProofSweepEnd (d : Die) (s : State) : Host.Outcome State Fault Refusal :=
  s.doOn d fun d =>
    if d.tablesOn ∧ d.tbl.sweeping ∧ d.tbl.swTable = 8 then
      let d1 := (d.cnt fwtProofCntSweeps).wr fwtProofStatLastMs (min 65535 ((d.now - d.tbl.swStart) / 1000000))
      let rep := if d1.tbl.swHeld.length < 64 then d1.tbl.swHeld else d1.tbl.repair
      { d1 with tbl := { d1.tbl with sweeping := false, swTable := 0, swIdx := 0, repair := rep,
                                     swNext := d1.now + 1000000 * d1.rd fwtProofCtlGap } }
    else d

/-- PROOF_REPAIR (R254). -/
def execProofRepair (d : Die) (s : State) : Host.Outcome State Fault Refusal :=
  s.doOn d fun d => if d.tablesOn then d.proofApply else d

end Sys2Proof.Machine
end

