-- ==== Sys2Proof/Machine/Macsec.lean ====
section
/-! DEFINITION. Machine/Macsec.lean: inline MACsec (chapter 11, R303 to R305): SecTAGs, protection of transmitted frames,
validation of received frames, as IEEE 802.1AE prescribes. -/

namespace Sys2Proof.Machine

/-- The EtherType at byte 12. -/
def outerType (bs : List Byte) : Nat := beAt bs 12 2

/-- The bytes of an SCI: byte 0 in [7:0] of its first word. -/
def sciBytes (lo hi : Nat) : List Byte := leBytes 4 lo ++ leBytes 4 hi

/-- The confidentiality offset in bytes. -/
def confOffset (f : Nat) : Nat := [0, 30, 50].getD f 0

/-- The XPN initialisation vector: the salt XOR (SSCI ‖ PN). -/
def xpnIv (salt : List Byte) (ssci pn : Nat) : List Byte := (salt.zip (beBytes 4 ssci ++ beBytes 8 pn)).map fun p => p.1 ^^^ p.2

/-- The SecY of a port is enabled. -/
def DieState.secyOn (d : DieState) (p : Nat) : Bool := decide (p ≤ 25) && d.bit cipSecyAEn 0 p

/-- Egress MACsec protects frames of the port. -/
def DieState.secyProtects (d : DieState) (p : Nat) : Bool := d.secyOn p && d.bit cipSecyAProtect 0 p

/-- Secure data and tag of a frame: DA and SA, the SecTAG, then the data of which the first `off` bytes stay clear (all of
them without confidentiality), then the ICV. -/
def macsecSeal (key iv head sectag body : List Byte) (conf : Bool) (off : Nat) : List Byte :=
  if conf then
    let clear := body.take off
    let c := Config.gcmCrypt key iv (body.drop off)
    head ++ sectag ++ clear ++ c ++ Config.gcmTag key iv (head ++ sectag ++ clear) c
  else head ++ sectag ++ body ++ Config.gcmTag key iv (head ++ sectag ++ body) []

/-- What egress MACsec makes of a frame. -/
inductive TxSec where
  | plain
  | sealed (bytes : List Byte) (slot gen : Nat)
  | drop
  deriving DecidableEq, Repr

/-- A frame is protected by the transmit SA (R304, R305), or dropped and counted when its key fetch fails. -/
def DieState.secyTx (d : DieState) (p : Nat) (bs : List Byte) : TxSec × DieState :=
  if !d.secyProtects p || outerType bs = 0x888E then (.plain, d)
  else
    let a := d.rd cipSecyATxAn 0 p
    let xpn := d.bit cipSecyAXpn 0 p
    let k := d.rd cipTxsaAKs 0 p a
    let r := if d.bit cipTxsaAEn 0 p a then d.fetchKey 4 k .macsecTx true none (!xpn) else ({ status := 3 }, d)
    if r.1.status ≠ 0 then (.drop, r.2.cnt cipMsTxDropped 0 p)
    else
      let conf := d.bit cipSecyAConf 0 p
      let sci := sciBytes (d.rd cipSecySciLo 0 p) (d.rd cipSecySciHi 0 p)
      let body := bs.drop 12
      let sl := if body.length < 48 then body.length else 0
      let sectag := [0x88, 0xE5, BitVec.ofNat 8 ((if conf then 0x2C else 0x20) + a), BitVec.ofNat 8 sl] ++ beBytes 4 r.1.c ++ sci
      let salt := leBytes 4 (d.rd cipTxsaSalt0 0 p a) ++ leBytes 4 (d.rd cipTxsaSalt1 0 p a) ++ leBytes 4 (d.rd cipTxsaSalt2 0 p a)
      let iv := if xpn then xpnIv salt (d.rd cipTxsaSsci 0 p a) r.1.c else sci ++ beBytes 4 r.1.c
      (.sealed (macsecSeal r.1.key iv (bs.take 12) sectag body conf (confOffset (d.rd cipSecyAOffset 0 p))) k r.1.gen,
        r.2.cnt cipMsTxProtected 0 p)

/-- What ingress MACsec makes of a frame: the bytes it passes on and whether they were validated, or a drop. -/
inductive RxSec where
  | pass (bytes : List Byte) (validated : Bool)
  | drop
  deriving DecidableEq, Repr

/-- LOWPN of a receive SA. -/
def DieState.lowPn (d : DieState) (k a : Nat) : Nat := max 1 (d.rd cipRxsaPnLo 0 k a + 2 ^ 32 * d.rd cipRxsaPnHi 0 k a)

/-- Moves LOWPN up after a valid frame: replayWindow below the next PN. -/
def DieState.raisePn (d : DieState) (p k a pn : Nat) : DieState :=
  let v := max (d.lowPn k a) (pn + 1 - d.rd cipSecyWin 0 p)
  (d.wr cipRxsaPnLo v 0 k a).wr cipRxsaPnHi (v / 2 ^ 32) 0 k a

/-- The full packet number of a received 32-bit PN (IEEE 802.1AE XPN recovery). -/
def recoverPn (xpn : Bool) (low pn : Nat) : Nat :=
  if !xpn then pn
  else
    let hi := low / 2 ^ 32
    if low % 2 ^ 32 ≥ 2 ^ 31 ∧ pn < 2 ^ 31 then (hi + 1) * 2 ^ 32 + pn else hi * 2 ^ 32 + pn

/-- A frame whose SA serves no key, or that names none (R305): dropped under Strict or when its data is encrypted. -/
def DieState.rxNoSa (d : DieState) (p : Nat) (enc : Bool) (plain : List Byte) : RxSec × DieState :=
  (if d.rd cipSecyAValidate 0 p = 2 ∨ enc then .drop else .pass plain false, d.cnt cipMsRxNosa 0 p)

/-- A frame with a well-formed SecTAG against the SA it names. -/
def DieState.rxSa (d : DieState) (p k a : Nat) (bs sci : List Byte) (hlen : Nat) (enc : Bool) : RxSec × DieState :=
  let head := bs.take 12
  let sectag := (bs.drop 12).take (hlen - 12)
  let body := (bs.drop hlen).take (bs.length - hlen - 16)
  let icv := bs.drop (bs.length - 16)
  let xpn := d.bit cipSecyAXpn 0 p
  let low := d.lowPn k a
  let pn := recoverPn xpn low (beAt bs 16 4)
  if d.bit cipSecyAReplay 0 p ∧ pn < low then (.drop, d.cnt cipMsRxLate 0 p)
  else
    let ks := d.rd cipRxsaAKs 0 k a
    let (f, d1) := d.fetchKey 4 ks .macsecRx false none
    if f.status ≠ 0 then d1.rxNoSa p enc (head ++ body)
    else
      let d2 := d1.releaseKey ks f.gen
      let salt := leBytes 4 (d.rd cipRxsaSalt0 0 k a) ++ leBytes 4 (d.rd cipRxsaSalt1 0 k a) ++ leBytes 4 (d.rd cipRxsaSalt2 0 k a)
      let iv := if xpn then xpnIv salt (d.rd cipRxsaSsci 0 k a) pn else sci ++ beBytes 4 pn
      let off := confOffset (d.rd cipSecyAOffset 0 p)
      let clear := if enc then body.take off else body
      let cipher := if enc then body.drop off else []
      let good := decide (Config.gcmTag f.key iv (head ++ sectag ++ clear) cipher = icv)
      let plain := head ++ clear ++ (if enc then Config.gcmCrypt f.key iv cipher else [])
      if good then (.pass plain true, (d2.raisePn p k a pn).cnt cipMsRxOk 0 p)
      else if d.rd cipSecyAValidate 0 p = 2 ∨ enc then (.drop, d2.cnt cipMsRxNotvalid 0 p)
      else (.pass plain false, d2.cnt cipMsRxInvalid 0 p)

/-- A SecTAG is malformed: version, an SCI together with ES or SCB, E without C or C without E, a zero PN, or lengths that do
not fit. -/
def secTagBad (bs : List Byte) : Bool :=
  let tci := (byteAt bs 14).toNat
  let sl := (byteAt bs 15).toNat
  let sc := tci.testBit 5
  let hlen := if sc then 28 else 20
  tci.testBit 7 || tci.testBit 4 || (sc && tci.testBit 6) || decide (tci.testBit 3 ≠ tci.testBit 2) || decide (48 ≤ sl)
    || decide (bs.length < hlen + 16 + sl)

/-- A short protected frame without the pad that follows its ICV (SL gives the length of the secure data). -/
def secTrim (bs : List Byte) : List Byte :=
  let sl := (byteAt bs 15).toNat
  if outerType bs = 0x88E5 ∧ sl ≠ 0 then bs.take ((if (byteAt bs 14).toNat.testBit 5 then 28 else 20) + sl + 16) else bs

/-- Ingress MACsec of a port (R304): EtherType 0x888E is uncontrolled, frames without a SecTAG are counted and dropped under
Strict, with validateFrames Disabled the SecTAG and ICV are removed, else the SA decides. -/
def DieState.secyRx (d : DieState) (p : Nat) (frame : List Byte) : RxSec × DieState :=
  let bs := secTrim frame
  if !d.secyOn p || outerType bs = 0x888E then (.pass bs false, d)
  else if outerType bs ≠ 0x88E5 then
    (if d.rd cipSecyAValidate 0 p = 2 then .drop else .pass bs false, d.cnt cipMsRxUntagged 0 p)
  else if secTagBad bs || (!d.bit cipSecyAXpn 0 p && decide (beAt bs 16 4 = 0)) then (.drop, d.cnt cipMsRxNotvalid 0 p)
  else
    let tci := (byteAt bs 14).toNat
    let sc := tci.testBit 5
    let enc := tci.testBit 3
    let hlen := if sc then 28 else 20
    let a := tci % 4
    let sci := if sc then (bs.drop 20).take 8 else sciBytes (d.rd cipSecySciDefLo 0 p) (d.rd cipSecySciDefHi 0 p)
    let plain := bs.take 12 ++ (bs.drop hlen).take (bs.length - hlen - 16)
    if d.rd cipSecyAValidate 0 p = 0 then (if enc then .drop else .pass plain false, d)
    else
      match (List.range 64).find? fun k =>
          d.bit cipRxscAEn 0 k && decide (d.rd cipRxscAPort 0 k = p)
            && decide (sciBytes (d.rd cipRxscSciLo 0 k) (d.rd cipRxscSciHi 0 k) = sci) with
      | none => d.rxNoSa p enc plain
      | some k => if d.bit cipRxsaAEn 0 k a then d.rxSa p k a bs sci hlen enc else d.rxNoSa p enc plain

end Sys2Proof.Machine
end

