-- ==== Sys2Proof/Machine/Switch.lean ====
section
/-! DEFINITION. Machine/Switch.lean: the switch core (chapter 8) and the forwarding lookup (09 R233, R234): pools and push-out,
output queues, gate lists, shapers and transmission selection, preemption, cut-through, stream filters, meters, sequence
recovery, the hand-over to the engines. -/

namespace Sys2Proof.Machine

/-! ### Frames (07 R184; 08 R227) -/

/-- A VLAN tag's TPID. -/
def isTpid (t : Nat) : Bool := t = 0x8100 || t = 0x88A8

/-- VLAN tags of a frame, at most two. -/
def tagCount (bs : List Byte) : Nat := if isTpid (outerType bs) then (if isTpid (beAt bs 16 2) then 2 else 1) else 0

/-- The EtherType that follows at most two VLAN tags. -/
def etherType (bs : List Byte) : Nat := beAt bs (12 + 4 * tagCount bs) 2

/-- Where the EtherType's payload begins. -/
def etherBody (bs : List Byte) : Nat := 14 + 4 * tagCount bs

/-- The outer tag's control word. -/
def outerTci (bs : List Byte) : Option Nat := if tagCount bs = 0 then none else some (beAt bs 14 2)

/-- The sequence number of an R-TAG. -/
def rtagSeq (bs : List Byte) : Option Nat := if etherType bs = 0xF1C1 then some (beAt bs (etherBody bs + 2) 2) else none

/-- The frame without its R-TAG. -/
def rtagPop (bs : List Byte) : List Byte :=
  if etherType bs = 0xF1C1 then bs.take (etherBody bs - 2) ++ bs.drop (etherBody bs + 4) else bs

/-- The frame with an R-TAG after its VLAN tags. -/
def rtagPush (bs : List Byte) (seq : Nat) : List Byte :=
  bs.take (etherBody bs - 2) ++ [0xF1, 0xC1, 0, 0] ++ beBytes 2 seq ++ bs.drop (etherBody bs - 2)

/-- Pads a frame with zeros to 60 bytes before the FCS (07 R183). -/
def pad60 (bs : List Byte) : List Byte := bs ++ List.replicate (60 - bs.length) 0

/-- The length of a frame under 07 R182: with its FCS, as received. -/
def SFrame.length (f : SFrame) : Nat := if f.len = 0 then (pad60 f.bytes).length + 4 else f.len

/-- A stored frame. -/
def DieState.frameOf (d : DieState) (n : Nat) : Option SFrame := Tab.get? d.sw.frames n

/-- One more copy of a frame. -/
def DieState.addRef (d : DieState) (n : Nat) : DieState := d.onFrame n fun f => { f with refs := f.refs + 1 }

/-! ### Ports -/

/-- A rate code in Mbit/s (07 Table 7.7). -/
def rateMbps (code : Nat) : Nat := [0, 25000, 10000, 5000, 2500, 1000, 100, 10].getD code 0

/-- The current rate of a port in Mbit/s; internal ports run at 100 Gbit/s, P_26 at 25 (R206). -/
def DieState.portMbps (d : DieState) (p : Nat) : Nat := if p ≤ 25 then rateMbps (d.rd ethLinkRate p) else if p = 26 then 25000 else 100000

/-- Nanoseconds that bytes take at a port's rate. -/
def DieState.wireNs (d : DieState) (p n : Nat) : Nat := if d.portMbps p = 0 then 0 else ceilDiv (n * 8000) (d.portMbps p)

/-- The port is up: its link, for P_26 the virtual NIC (13 R363), for P_28 the Stairwell (12 R317); P_27 always. -/
def DieState.portUp (d : DieState) (p : Nat) : Bool :=
  if p = 27 then true
  else if p = 26 then d.bit pciVnicEn && (!d.bit pciVnicOwner || d.bit pciLinkUp)
  else d.bit ethLinkUp p

/-- Frame preemption is active on the port (R222). -/
def DieState.preemptActive (d : DieState) (p : Nat) : Bool :=
  decide (p ≤ 13) && d.bit swcPrePen 0 p && (decide (d.rd swcPreStatVstate 0 p = 2) || d.bit swcPreVdis 0 p)

/-- A class is express on the port. -/
def DieState.express (d : DieState) (p t : Nat) : Bool := (d.rd swcPreExpress 0 p).testBit t

/-- An armed cue releases a queue of the port (07 R191, R192). -/
def DieState.releaseArmed (d : DieState) (p : Nat) : Bool :=
  d.tim.next.any fun e => decide (d.rd timCueAAction 0 e.1 = 2) && decide (d.rd timCueAArg 0 e.1 % 32 = p)

/-- The port starts no data frame: pause, LPI, a stepping gap, a MACsec self-test, injected back-pressure, a fence. -/
def DieState.portShut (d : DieState) (p : Nat) : Bool :=
  let x := d.portOf p
  decide (d.now < x.pauseEnd) || d.bit ethLinkLpi p || decide (d.rd ethStepCState p = 2)
    || (Tab.get? d.sec.testEnd p).isSome || (x.bpBlocked && decide (d.rd prtPortBBpOn 0 p ≠ 0)) || d.fences.contains (fenceOf 4 p)

/-! ### Output queues (R212, R213) -/

/-- The queue of a class. -/
def DieState.outQueue (d : DieState) (p t : Nat) : List QCopy := Tab.get [] d.sw.outq (8 * p + t)

/-- Puts a queue back. -/
def DieState.setQueue (d : DieState) (p t : Nat) (q : List QCopy) : DieState :=
  { d with sw := { d.sw with outq := Tab.put [] d.sw.outq (8 * p + t) q } }

/-- Cells of a frame. -/
def DieState.descCells (d : DieState) (n : Nat) : Nat := match d.frameOf n with
  | some f => f.cells
  | none => 0

/-- Cells queued in a class. -/
def DieState.queueCells (d : DieState) (p t : Nat) : Nat := (d.outQueue p t).foldl (fun a c => a + d.descCells c.desc) 0

/-- Cells queued on a port. -/
def DieState.portQueued (d : DieState) (p : Nat) : Nat := ((List.range 8).map fun t => d.queueCells p t).foldl (· + ·) 0

/-- Every queue of the port is empty. -/
def DieState.queuesEmpty (d : DieState) (p : Nat) : Bool := (List.range 8).all fun t => (d.outQueue p t).isEmpty

/-! ### Pools (R209 to R211) -/

/-- Cells of the shared part. -/
def DieState.sharedSize (d : DieState) : Nat := 98304 - ((List.range 4).map fun q => d.rd swcPoolARsv 0 q).foldl (· + ·) 0

/-- Shared cells in use. -/
def DieState.sharedUsed (d : DieState) : Nat :=
  ((List.range 4).map fun q => d.poolUsed q - d.rd swcPoolARsv 0 q).foldl (· + ·) 0

/-- A copy may be evicted (R211 step 1). -/
def DieState.candidate (d : DieState) (pool p t : Nat) (c : QCopy) : Bool :=
  match d.frameOf c.desc with
  | some f =>
    decide (f.pool = pool) && decide (f.refs = 1) && !d.bit swcPoolASched 0 pool && !(d.preemptActive p && d.express p t)
  | none => false

/-- The victim for a frame of class `c` in a pool (R211): port, class and copy. -/
def DieState.victim (d : DieState) (pool c : Nat) : Option (Nat × Nat × QCopy) :=
  match (List.range c).find? fun t => (List.range 29).any fun p => (d.outQueue p t).any fun x => d.candidate pool p t x with
  | none => none
  | some t =>
    let ports := (List.range 29).filter fun p => (d.outQueue p t).any fun x => d.candidate pool p t x
    let p := ports.foldl (fun b p => if d.queueCells b t < d.queueCells p t then p else b) (ports.headD 0)
    ((d.outQueue p t).reverse.find? fun x => d.candidate pool p t x).map fun x => (p, t, x)

/-- One cell is requested for an arriving frame (R210, R211): the die with the cell granted, or none for a drop with the
evictions made. -/
def DieState.cellRequest (d : DieState) (port pool c : Nat) : Bool × DieState :=
  if d.rd swcPq 0 port pool ≤ d.portCells port pool then (false, d)
  else if d.poolUsed pool < d.rd swcPoolARsv 0 pool ∨ d.sharedUsed < d.sharedSize then (true, d.takeCells port pool 1)
  else
    match d.victim pool c with
    | none => (false, d)
    | some (p, t, x) =>
      let d1 := ((d.setQueue p t ((d.outQueue p t).erase x)).releaseFrame x.desc).cnt swcQcntC 0 p t
      (true, d1.takeCells port pool 1)

/-- The cells of a frame are requested one after the other; a refusal frees those taken. -/
def DieState.takeIn (d : DieState) (port pool c n taken : Nat) : Bool × DieState :=
  match n with
  | 0 => (true, d)
  | n + 1 =>
    let r := d.cellRequest port pool c
    if r.1 then DieState.takeIn r.2 port pool c n (taken + 1) else (false, r.2.giveCells port pool taken)

/-! ### Gate lists (R216 to R218) -/

/-- CYCLE of a bank. -/
def DieState.gateCycle (d : DieState) (p b : Nat) : Nat := d.rd swcGcbACychi 0 p b * 2 ^ 32 + d.rd swcGcbB 0 p b

/-- Entries of a bank with the spans they hold: entries of interval 0 are skipped, a span is cut at the cycle's end, the last
one lasts to it. -/
def DieState.gateSpans (d : DieState) (p b : Nat) : List (Nat × Nat × Nat) :=
  let cyc := d.gateCycle p b
  let r := (List.range (d.rd swcGcbALen 0 p b)).foldl (fun (a : Nat × List (Nat × Nat × Nat)) k =>
    let iv := d.rd swcGclB 0 (2 * p + b) k
    if iv = 0 ∨ cyc ≤ a.1 then a else (a.1 + iv, a.2 ++ [(k, a.1, min cyc (a.1 + iv))])) (0, [])
  match r.2.getLast? with
  | some (k, s, _) => r.2.dropLast ++ [(k, s, cyc)]
  | none => []

/-- The signed distance of gate-list time from BASE. -/
def DieState.gateOffset (d : DieState) (p b : Nat) : Int :=
  posDiff (d.position (d.rd swcGcATb 0 p)) (d.rd swcGcbC 0 p b + 2 ^ 32 * d.rd swcGcbD 0 p b)

/-- The bank a port runs. -/
def DieState.gateBank (d : DieState) (p : Nat) : Nat := d.rd swcGcSBank 0 p

/-- The port has an enabled gate list. -/
def DieState.gateOn (d : DieState) (p : Nat) : Bool := decide (p ≤ 25) && d.bit swcGcAEn 0 p

/-- The position in the cycle, none before BASE. -/
def DieState.gatePos (d : DieState) (p : Nat) : Option Nat :=
  let o := d.gateOffset p (d.gateBank p)
  if o < 0 then none else some (o.toNat % max 1 (d.gateCycle p (d.gateBank p)))

/-- The entry in effect and the gate states (R217). -/
def DieState.gateNow (d : DieState) (p : Nat) : Nat × Nat :=
  if !d.gateOn p then (0, 0xFF)
  else
    match d.gatePos p with
    | none => (0, d.rd swcGcAInit 0 p)
    | some pos =>
      match (d.gateSpans p (d.gateBank p)).find? fun e => decide (e.2.1 ≤ pos) && decide (pos < e.2.2) with
      | some e => (e.1, d.rd swcGclAGates 0 (2 * p + d.gateBank p) e.1)
      | none => (0, d.rd swcGcAInit 0 p)

/-- Distance from a position to the next span that a test picks, around the cycle. -/
def nextSpan (spans : List (Nat × Nat × Nat)) (cyc pos : Nat) (test : Nat → Bool) : Option Nat :=
  match spans.find? fun e => decide (pos < e.2.2) && test e.1 with
  | some e => some (e.2.1 - pos)
  | none => (spans.find? fun e => test e.1).map fun e => cyc - pos + e.2.1

/-- Units of the list's base until an entry that a test picks begins. -/
def DieState.gateAhead (d : DieState) (p : Nat) (test : Nat → Bool) : Option Nat :=
  let b := d.gateBank p
  let sp := d.gateSpans p b
  match d.gatePos p with
  | none => (nextSpan sp (d.gateCycle p b) 0 test).map fun n => n + (-(d.gateOffset p b)).toNat
  | some pos => nextSpan sp (d.gateCycle p b) pos test

/-- RATE of a base: units per nanosecond with 32 fraction bits. -/
def DieState.baseRate (d : DieState) (n : Nat) : Int := timTbRateHi.int (d.rd timTbRateHi 0 n) * 2 ^ 32 + d.rd timTbRateLo 0 n

/-- A distance on a base in nanoseconds; an angle base that stands still or runs backwards never covers it. -/
def DieState.unitsNs (d : DieState) (tb n : Nat) : Option Nat :=
  if !d.isAngle tb then some n
  else if 0 < d.baseRate tb then some (n * 2 ^ 32 / (d.baseRate tb).toNat) else none

/-- Nanoseconds until the gate of a class next closes; none: never. -/
def DieState.closesIn (d : DieState) (p t : Nat) : Option Nat :=
  match d.gateAhead p fun k => !(d.rd swcGclAGates 0 (2 * p + d.gateBank p) k).testBit t with
  | none => none
  | some n => d.unitsNs (d.rd swcGcATb 0 p) n

/-! ### The credit-based shaper (R215), in units of 10^-6 bit -/

/-- The class that a port transmits. -/
def DieState.txClass (d : DieState) (p : Nat) : Option Nat := (d.portOf p).tx.bind fun t => if t.desc.isSome then some t.tc else none

/-- Credit of a class. -/
def DieState.credit (d : DieState) (p t : Nat) : Int := Tab.get 0 (d.portOf p).credit t

/-- Brings the credit of one class up to date over `dt` ns under the gate states that held. -/
def DieState.creditStep (d : DieState) (p dt t : Nat) (c : Int) : Int :=
  let idle : Int := d.rd swcQcBIdleslope 0 p t
  if !(d.rd swcGcSGates 0 p).testBit t then c
  else if d.txClass p = some t then c + (idle - 1000 * d.portMbps p) * dt
  else if !(d.outQueue p t).isEmpty then c + idle * dt
  else if c < 0 then min 0 (c + idle * dt) else 0

/-- Brings every credit of a port up to date. -/
def DieState.creditUpdate (d : DieState) (p : Nat) : DieState :=
  let dt := d.now - (d.portOf p).creditAt
  let cs := (List.range 8).foldl (fun (tab : Tab Int) t =>
    if d.bit swcQcBCbsen 0 p t then Tab.put 0 tab t (d.creditStep p dt t (d.credit p t)) else Tab.erase tab t) (d.portOf p).credit
  d.onPort p fun x => { x with credit := cs, creditAt := d.now }

/-- The gate states in effect are those of now: the credits up to now follow the former ones. -/
def DieState.gateUpdate (d : DieState) (p : Nat) : DieState :=
  let g := d.gateNow p
  ((d.creditUpdate p).wr swcGcSEntry g.1 0 p).wr swcGcSGates g.2 0 p

/-! ### What a copy looks like on the wire (R213, R227; 09 R234) -/

/-- VLAN edits of a copy: UNTAG removes the outer tag, else the frame leaves tagged with the VID and priority of its lookup;
a yellow frame leaves with DEI set (R226). -/
def vlanEdit (bs : List Byte) (untag : Bool) (vid prio : Nat) (dei : Bool) : List Byte :=
  match outerTci bs with
  | some tci =>
    if untag then bs.take 12 ++ bs.drop 16
    else bs.take 14 ++ beBytes 2 (prio * 8192 + (if dei ∨ tci.testBit 12 then 4096 else 0) + vid) ++ bs.drop 16
  | none =>
    if untag then bs
    else bs.take 12 ++ [0x81, 0x00] ++ beBytes 2 (prio * 8192 + (if dei then 4096 else 0) + vid) ++ bs.drop 12

/-- A copy as a port sends it, before MACsec and FCS. -/
def DieState.egressBytes (d : DieState) (f : SFrame) (p : Nat) : List Byte :=
  let b1 := if f.edit then vlanEdit f.bytes ((wd (d.entryAs f.tag 1 f.vid) 1).testBit p) f.vid f.prio f.dei else f.bytes
  let b2 := match f.seqGen with
    | some n => if p ≤ 25 ∧ (d.rdAs f.tag swcRtagPorts).testBit p then rtagPush b1 n else b1
    | none => b1
  pad60 b2

/-! ### Starting a transmission (R214, 07 R183, R199, R201) -/

/-- The receive and transmit constants of a port's mode (07 Table 7.4). -/
def DieState.modeConst (d : DieState) (p : Nat) : Nat × Nat :=
  let fec := d.rd ethModeFec p
  match d.rd ethModeKind p with
  | 1 =>
    if d.rd ethLinkRate p = 2 then (if fec = 0 then (118, 84) else (318, 120))
    else if fec = 0 then (62, 48) else if fec = 1 then (160, 56) else (248, 96)
  | 2 => if fec = 0 then (118, 84) else (318, 120)
  | 3 => (70, 52)
  | 4 => (408, 236)
  | 5 => (1296, 712)
  | 6 => (3140, 1920)
  | _ => (0, 0)

/-- The start stamp of a frame that begins now: its base at the first bit after the SFD, referred to the pins. -/
def DieState.txStampPos (d : DieState) (p : Nat) : Nat :=
  let t : Int := d.position (d.rd ethTs p) + d.wireNs p 8 + (d.modeConst p).2 + ethLatLatTx.int (d.rd ethLatLatTx p)
  (t % 2 ^ 64).toNat

/-- A gPTP unit. -/
def DieState.ptpUnit (d : DieState) (u : Nat) : PtpUnit := d.tim.ptp.toList.getD u {}

/-- Changes a gPTP unit. -/
def DieState.onPtp (d : DieState) (u : Nat) (g : PtpUnit → PtpUnit) : DieState :=
  { d with tim := { d.tim with ptp := d.tim.ptp.setIfInBounds u (g (d.ptpUnit u)) } }

/-- A Sync that a gPTP unit sends (stamp request 2) takes its transmit stamp on the unit's base, in 2^-16 ns (10 R278, R279). -/
def DieState.ptpStamp (d : DieState) (p : Nat) (f : SFrame) : DieState :=
  match f.tsReq with
  | some (2, u) =>
    let b := d.rd timPtpATb 0 u
    let t : Int := d.position b + d.wireNs p 8 + (d.modeConst p).2 + ethLatLatTx.int (d.rd ethLatLatTx p)
    d.onPtp u fun x => { x with tx := Tab.insert x.tx p (t * 65536 + (d.base b).frac / 65536) }
  | _ => d

/-- KEY of a stamp request (07 Table 7.5). -/
def stampKey (bs : List Byte) (src tag : Nat) : Nat :=
  if etherType bs = 0x88F7 then beAt bs (etherBody bs + 30) 2 else if src = 1 then tag else 0

/-- The n-th event of a run of N: the next count, and whether this one is it. -/
def everyNth (n cnt : Nat) : Nat × Bool := if n = 0 then (cnt, false) else if n ≤ cnt + 1 then (0, true) else (cnt + 1, false)

/-- The length a copy has on the wire: with MACsec 32 bytes more, and its FCS. -/
def DieState.wireLength (d : DieState) (p : Nat) (bs : List Byte) : Nat := bs.length + 4 + if d.secyProtects p then 32 else 0

/-- A port starts a copy of a frame. A stored frame beyond MAXLEN or one whose key fetch fails is dropped; `stomp` says that
the frame was found bad, with the bytes that go out; true when the transmission is a stomped one. -/
def DieState.startTx (d : DieState) (p n t : Nat) (cut : Bool) (stomp : Bool) : Bool × DieState :=
  match d.frameOf n with
  | none => (false, d)
  | some f =>
    let bs := d.egressBytes f p
    let long := decide (d.rd ethMaxlen p < d.wireLength p bs)
    if long ∧ !cut then (false, (d.releaseFrame n).cnt ethCntTxOversize p)
    else
      let s := d.secyTx p bs
      match s.1 with
      | .drop => (false, s.2.releaseFrame n)
      | r =>
        let wire := match r with
          | .sealed b _ _ => b
          | _ => bs
        let sak := match r with
          | .sealed _ k g => some (k, g)
          | _ => none
        let bad := stomp || long
        let d1 := if long then s.2.cnt ethCntTxOversize p else s.2
        let d2 := if bad then d1.cnt ethCntTxStomped p else d1
        let req := if p ≤ 25 then f.tsReq.filter fun r => decide (r.1 < 2) else none
        let d3 := if req.isSome then d2.cnt ethTxid p else d2
        let fcs := everyNth (if d3.bit prtPortAFcsEg 0 p then d3.rd prtPortCFcsN 0 p else 0) (d3.portOf p).fcsTxCnt
        let cur : TxCur :=
          { desc := some n, tc := t, start := d.now, txid := req.map fun _ => d2.rd ethTxid p,
            key := match req with
              | some (src, tag) => stampKey bs src tag
              | none => 0,
            src := match req with
              | some (src, _) => src
              | none => 0,
            pos := d.txStampPos p, stomped := bad, badFcs := fcs.2,
            bytes := if bad then wire.take (d.rd ethMaxlen f.ingress - 4) else wire, sak := sak }
        let d4 := (if fcs.2 then d3.cnt prtPortDInjFcs 0 p else d3).ptpStamp p f
        (bad, d4.onPort p fun x => { x with tx := some cur, fcsTxCnt := fcs.1 })

/-! ### Enqueueing (R212, R213) -/

/-- A copy enters its queue; an LPI port wakes for it (07 R191). -/
def DieState.queuePut (d : DieState) (n p t : Nat) : DieState :=
  let d1 := (d.creditUpdate p).setQueue p t (d.outQueue p t ++ [({ desc := n, at_ := d.now } : QCopy)])
  d1.wr ethLinkLpi 0 p

/-- The flow of a frame on Ethernet (01 R26). -/
def SFrame.flow (f : SFrame) : Nat × Option Nat × Nat × List Byte × Nat :=
  match f.handle with
  | some h => (f.ingress, some h, 0, [], 0)
  | none => (f.ingress, none, f.vid, f.bytes.take 6, f.prio)

/-- Matched Ethernet frames of the vote stage enter their queues behind every earlier frame of their flow (12 R336). -/
def DieState.voteRelease (d : DieState) : DieState :=
  (d.stw.stage.foldl (fun (a : List (Nat × Nat × Option Nat × Nat × List Byte × Nat) × DieState) it =>
    match it.desc.bind fun n => (a.2.frameOf n).map fun f => (n, f) with
    | none => a
    | some (n, f) =>
      let k := (it.egress, f.flow)
      if a.1.contains k then a
      else if !it.matched then (k :: a.1, a.2)
      else (a.1, ({ a.2 with stw := { a.2.stw with stage := a.2.stw.stage.erase it } }).queuePut n it.egress it.tc))
    ([], d)).2

/-- A voted Ethernet frame (12 R335, R336): East sends its digest and frees the frame, West compares. -/
def DieState.voteFrame (d : DieState) (n p t : Nat) (f : SFrame) : DieState :=
  let bs := d.egressBytes f p
  let crc := BitVec.ofNat 32 (crc32c bs)
  if d.die = .east then (if d.linkUp then d.sendVc 3 (.digest f.origin p t bs.length crc (d.position 0)) else d)
  else if d.bit stwPairStatSilent then d.cnt stwCntVoteSilent
  else
    let it : VoteItem := { origin := f.origin, egress := p, tc := t, len := bs.length, crc := crc,
                           until_ := d.now + 1000 * d.rd stwVoteWin, desc := some n, stamp := d.position 0 }
    match d.stw.early.find? fun e => e.origin = f.origin ∧ e.egress = p with
    | some e =>
      let d1 := { d with stw := { d.stw with early := d.stw.early.filter fun x => !(x.origin = f.origin && x.egress = p) } }
      if it.agrees e then
        (({ d1 with stw := { d1.stw with stage := d1.stw.stage ++ [{ it with matched := true }] } }).addRef n |>.cnt stwCntVoteMatch).voteRelease
      else d1.voteMismatch f.origin
    | none =>
      if 4096 ≤ d.stw.stage.length then d.cnt stwCntVoteFull
      else (({ d with stw := { d.stw with stage := d.stw.stage ++ [it] } }).addRef n).peak stwVstagePeak (d.stw.stage.length + 1)

/-- A copy of frame `n` for a port and class: refused and counted (07 R181, R198; R212), put to the vote, or enqueued. -/
def DieState.enqueueCopy (d : DieState) (n p t : Nat) : DieState :=
  match d.frameOf n with
  | none => d
  | some f =>
    if d.bit ethLinkAsleep p then d.cnt ethCntTxDropSleep p
    else if (!d.portUp p && !(d.votes && decide (d.die = .east) && decide (p ≤ 25))) || d.fences.contains (fenceOf 4 p) then
      d.cnt ethCntTxDropLink p
    else if d.rdAs f.tag swcQcAQmax 0 p t < d.queueCells p t + f.cells then d.cnt swcQcntBDropQmax 0 p t
    else if d.rdAs f.tag swcQcC 0 p t < f.length then d.cnt swcQcntBDropSdu 0 p t
    else if d.votes ∧ p ≤ 25 then d.voteFrame n p t f
    else (d.addRef n).queuePut n p t

/-! ### Meters (R226) -/

/-- A colour. -/
inductive Colour where
  | green
  | yellow
  | red
  deriving DecidableEq, Repr

/-- Tokens of a meter at `now`, in units of 1/8,000,000 byte: CIR fills the committed bucket, its overflow goes to the excess
bucket with CF. -/
def meterFill (s : Option MeterState) (now cir eir cbs ebs : Nat) (cf : Bool) : Nat × Nat :=
  match s with
  | none => (cbs * 8000000, ebs * 8000000)
  | some s =>
    let dt := now - s.at_
    let c := s.c + cir * dt
    let ovf := if cf then c - cbs * 8000000 else 0
    (min c (cbs * 8000000), min (s.e + eir * dt + ovf) (ebs * 8000000))

/-- A frame of `len` bytes meets a meter: its colour, the tokens charged, the counters; yellow and red are handled by the
caller. A meter with VALID = 0 passes as green (09 R245). -/
def DieState.meter (d : DieState) (tag m len : Nat) (yellowIn : Bool) : Colour × DieState :=
  let e := d.entryAs tag 4 m
  if !(wd e 0).testBit 31 then (.green, d.ueRead 4 m)
  else if d.bit swcFmcLatch 0 m then (.red, d.cnt swcFmcRed 0 m)
  else
    let t := meterFill (Tab.get? d.sw.meters m) d.now (bitsOf (wd e 0) 0 25) (bitsOf (wd e 1) 0 25) (bitsOf (wd e 2) 0 24)
      (bitsOf (wd e 3) 0 24) ((wd e 0).testBit 28)
    let need := len * 8000000
    let put (d : DieState) (c x : Nat) : DieState :=
      { d with sw := { d.sw with meters := Tab.insert d.sw.meters m { c := c, e := x, at_ := d.now } } }
    if !((wd e 0).testBit 29 && yellowIn) ∧ need ≤ t.1 then (.green, (put d (t.1 - need) t.2).cnt swcFmcGreen 0 m)
    else if need ≤ t.2 then (.yellow, (put d t.1 (t.2 - need)).cnt swcFmcYellow 0 m)
    else
      let d1 := (put d t.1 t.2).cnt swcFmcRed 0 m
      (.red, if (wd e 1).testBit 31 then (d1.wr swcFmcLatch 1 0 m).raise 0x0503 m else d1)

/-! ### Sequence recovery (R228; IEEE 802.1CB-2017, 7.4.3) -/

/-- The signed 16-bit distance of two sequence numbers. -/
def seqDiff (a b : Nat) : Int := (BitVec.ofNat 16 a - BitVec.ofNat 16 b).toInt

/-- The history shifted by `k` after a new number: positions that leave unseen are lost; the result and their count. -/
def shiftHistory (h : List Bool) (k len : Nat) : List Bool × Nat :=
  let ext := true :: List.replicate (k - 1) false ++ h
  (ext.take len, ((ext.drop len).filter fun b => !b).length)

/-- An accepted frame. -/
def DieState.srfPass (d : DieState) (n : Nat) (s : SrfState) : Bool × DieState :=
  (true, ({ d with sw := { d.sw with srf := Tab.insert d.sw.srf n { s with seen := d.now } } }).cnt swcSrcPassed 0 n)

/-- A recovery function decides on a frame with a sequence number, or without one. -/
def DieState.recover (d : DieState) (tag n : Nat) (seq : Option Nat) : Bool × DieState :=
  let s := Tab.get {} d.sw.srf n
  let len := d.rdAs tag swcSrfAHist 0 n
  match seq with
  | none =>
    let d1 := d.cnt swcSrcTagless 0 n
    if d.bitAs tag swcSrfATakeNoSeq 0 n then d1.srfPass n s else (false, d1.cnt swcSrcDiscarded 0 n)
  | some q =>
    let dl := seqDiff q (d.rd swcSrfC 0 n)
    let set (d : DieState) : DieState := d.wr swcSrfC q 0 n
    if s.first then (set d).srfPass n { s with first := false, hist := true :: List.replicate (len - 1) false }
    else if d.bitAs tag swcSrfAAlg 0 n then
      if dl = 0 then (false, d.cnt swcSrcDiscarded 0 n)
      else (if dl = 1 then set d else (set d).cnt swcSrcOutOfOrder 0 n).srfPass n s
    else if (len : Int) ≤ dl ∨ dl ≤ -(len : Int) then (false, (d.cnt swcSrcRogue 0 n).cnt swcSrcDiscarded 0 n)
    else if dl ≤ 0 then
      let i := (-dl).toNat
      if s.hist.getD i false then (false, d.cnt swcSrcDiscarded 0 n)
      else (d.cnt swcSrcOutOfOrder 0 n).srfPass n { s with hist := s.hist.set i true }
    else
      let r := shiftHistory s.hist dl.toNat len
      let d1 := if dl = 1 then d else d.cnt swcSrcOutOfOrder 0 n
      ((set d1).cnt swcSrcLost 0 n 0 r.2).srfPass n { s with hist := r.1 }

/-! ### Stream filters (R225) -/

/-- What a filter makes of a frame. -/
structure Filtered where
  frame : SFrame
  pass  : Bool := true
  ctOk  : Bool := true
  stomp : Bool := false
  deriving DecidableEq, Repr

/-- A frame with a handle passes its stream filter, meter, recovery and generation functions, in lookup order. -/
def DieState.streamFilter (d : DieState) (f : SFrame) : Filtered × DieState :=
  match f.handle with
  | none => ({ frame := f }, d)
  | some h =>
    let e := d.entryAs f.tag 3 h
    if !(wd e 0).testBit 31 then ({ frame := { f with handle := none } }, d.ueRead 3 h)
    else
      let d0 := d.cnt swcSfcMatched 0 h
      let maxsdu := bitsOf (wd e 0) 0 14
      let meten := (wd e 0).testBit 15
      let sren := (wd e 1).testBit 26
      if (d0.rd swcSfBlk 0 (h / 32)).testBit (h % 32) then ({ frame := f, pass := false }, d0.cnt swcSfcDropSdu 0 h)
      else if maxsdu ≠ 0 ∧ maxsdu < f.length then
        let d1 := d0.cnt swcSfcDropSdu 0 h
        let d2 := if (wd e 0).testBit 14 then
            (d1.wr swcSfBlk (d1.rd swcSfBlk 0 (h / 32) + 2 ^ (h % 32)) 0 (h / 32)).raise 0x0502 h
          else d1
        ({ frame := f, pass := false, ctOk := !meten && !sren, stomp := true }, d2)
      else
        let m := if meten then
            d0.meter f.tag (bitsOf (wd e 0) 16 11) f.length ((outerTci f.bytes).any fun t => t.testBit 12)
          else (.green, d0)
        let dropYellow := meten && (wd (d.entryAs f.tag 4 (bitsOf (wd e 0) 16 11)) 0).testBit 30
        if m.1 = .red ∨ (m.1 = .yellow ∧ dropYellow) then
          ({ frame := f, pass := false }, m.2.cnt swcSfcDropMeter 0 h)
        else
          let f1 := if m.1 = .yellow then { f with dei := true } else f
          let d2 := m.2.cnt swcSfcPassed 0 h
          let srf := bitsOf (wd e 1) 16 10
          let r := if sren && d2.bitAs f.tag swcSrfAEn 0 srf then d2.recover f.tag srf (rtagSeq f.bytes) else (true, d2)
          if !r.1 then ({ frame := f1, pass := false }, r.2)
          else
            let f2 := if (wd e 1).testBit 27 then { f1 with bytes := rtagPop f1.bytes } else f1
            let sgf := bitsOf (wd e 1) 0 10
            if (wd e 1).testBit 10 && r.2.bitAs f.tag swcSgfEn 0 sgf then
              ({ frame := { f2 with seqGen := some (r.2.rd swcSgfNext 0 sgf) }, ctOk := !meten && !sren },
                r.2.wr swcSgfNext (r.2.rd swcSgfNext 0 sgf + 1) 0 sgf)
            else ({ frame := f2, ctOk := !meten && !sren }, r.2)

/-! ### The forwarding lookup (09 R233, R234) -/

/-- Ports of a bit mask. -/
def portsOf (mask : Nat) : List Nat := (List.range 29).filter fun p => mask.testBit p

/-- The result of the lookup: the frame as it goes on, its destination ports, whether it may cut through, whether it is
stomped, the FID when its source is learned. -/
structure Lookup where
  frame : SFrame
  dest  : List Nat := []
  ctOk  : Bool := false
  stomp : Bool := false
  learn : Option Nat := none
  deriving DecidableEq, Repr

/-- The destination set and engine selector (R234). -/
def DieState.destSet (d : DieState) (f : SFrame) (ve : List Nat) : List Nat × Nat :=
  let da := f.bytes.take 6
  let fid := bitsOf (wd ve 2) 0 12
  let members := wd ve 0
  let (raw, esel) := match d.fdbFindAs f.tag (macLo da, macHi da + fid * 65536) with
    | some s =>
      let e := d.entryAs f.tag 0 s
      (if fdbMc e then wd (d.entryAs f.tag 7 (fdbDest e)) 0 else 2 ^ fdbDest e, fdbEsel e)
    | none =>
      (if (byteAt da 0).toNat.testBit 0 then d.rdAs f.tag fwtFloodMc else d.rdAs f.tag fwtFloodUc, bitsOf (wd ve 2) 13 6)
  ((portsOf raw).filter fun p =>
    (p = 27 || members.testBit p) && p ≠ f.ingress && !(f.noEng && p = 27), esel)

/-- The lookup reads the multicast group of its FDB entry (R234, R246). -/
def DieState.groupRead (d : DieState) (f : SFrame) (ve : List Nat) : DieState :=
  let da := f.bytes.take 6
  match d.fdbFindAs f.tag (macLo da, macHi da + bitsOf (wd ve 2) 0 12 * 65536) with
  | some s => if fdbMc (d.entryAs f.tag 0 s) then d.ueReads 7 [fdbDest (d.entryAs f.tag 0 s)] else d
  | none => d

/-- The source of a frame is learned (09 R236): LEARN of port and VLAN, an individual address that is not zero. -/
def DieState.learns (d : DieState) (f : SFrame) (ve : List Nat) : Bool :=
  let sa := (f.bytes.drop 6).take 6
  d.bitAs f.tag fwtPortALearn 0 f.ingress && (wd ve 2).testBit 12 && !(byteAt sa 0).toNat.testBit 0
    && sa.any fun b => decide (b ≠ 0)

/-- The lookup of a frame: none when it is dropped. -/
def DieState.lookup (d : DieState) (f0 : SFrame) : Option Lookup × DieState :=
  let i := f0.ingress
  let tci := outerTci f0.bytes
  let vid := match tci with
    | some t => if t % 4096 = 0 then d.rdAs f0.tag fwtPortAPvid 0 i else t % 4096
    | none => d.rdAs f0.tag fwtPortAPvid 0 i
  let prio := match tci with
    | some t => t / 8192
    | none => d.rdAs f0.tag ethRxdef i
  let f1 := { f0 with vid := vid, prio := prio, edit := true }
  let ve := d.entryAs f1.tag 1 vid
  let d1 := d.ueRead 1 vid
  if vid = 0 ∨ vid = 4095 ∨ !(wd ve 0).testBit 31 ∨ (i ≠ 27 ∧ !(wd ve 0).testBit i ∧ d.bitAs f1.tag fwtPortAIfilt 0 i) then
    (none, d1.cnt fwtPortB 0 i)
  else
    let mac (bs : List Byte) : Nat × Nat := (macLo bs, macHi bs)
    let da := mac (f1.bytes.take 6)
    let sa := mac ((f1.bytes.drop 6).take 6)
    let h := match d1.streamFind f1.tag (some i) da sa (vid * 65536 + prio * 2 ^ 28) with
      | some k => some (bitsOf (wd (d1.entryAs f1.tag 2 k) 5) 0 12)
      | none => none
    let r := (d1.ueReads 2 (d1.badEntries 2)).streamFilter { f1 with handle := h }
    if !r.1.pass && !r.1.stomp then (none, r.2)
    else
      let f2 := r.1.frame
      let t := r.2.destSet f2 ve
      let d2 := (r.2.ueReads 0 (bucketSlots (bucketOfKey (da.1, da.2 + bitsOf (wd ve 2) 0 12 * 65536)))).groupRead f2 ve
      (some { frame := { f2 with esel := t.2 }, dest := t.1, ctOk := r.1.ctOk && !f2.macsec, stomp := r.1.stomp,
              learn := if d2.learns f2 ve then some (bitsOf (wd ve 2) 0 12) else none }, d2)

/-! ### Cut-through (R223, R224) and the end of a lookup -/

/-- The copy for a port cuts through (R223; 17 R441). -/
def DieState.cuts (d : DieState) (l : Lookup) (p : Nat) : Bool :=
  let f := l.frame
  l.ctOk && decide (f.ingress ≤ 25) && decide (p ≤ 25) && decide (128 < f.length) && d.bitAs f.tag swcEgCfgCten 0 p
    && decide (d.portMbps p ≤ d.portMbps f.ingress) && d.bit ethLinkUp p && !d.bit ethLinkAsleep p
    && (d.outQueue p f.tc).isEmpty && (d.portOf p).tx.isNone && (d.portOf p).held.isNone && (d.portOf p).ctl.isEmpty
    && (d.gateNow p).2.testBit f.tc && !d.portShut p && decide (d.rd prtPortADelay 0 p = 0) && !d.votes

/-- In Mirror mode the frames of the die's own ports for P_27: the standby removes them, the active die replicates them
(12 R329). -/
def DieState.mirrorEng (d : DieState) (f : SFrame) : Bool × DieState :=
  if d.pairMode ≠ 1 ∨ 25 < f.ingress then (true, d)
  else if d.role = 2 ∨ d.role = 4 then (false, d.cnt stwCntMirrorShadowed)
  else if d.role = 1 ∧ d.linkUp then (true, d.sendVc 3 (.replica true { f with refs := 0 }))
  else (true, d)

/-- One copy of a frame whose lookup is complete; true when a transmission was stomped. -/
def DieState.placeCopy (d : DieState) (n : Nat) (l : Lookup) (stomp : Bool) (p : Nat) : Bool × DieState :=
  if p = 27 then
    let r := d.mirrorEng l.frame
    (false, if r.1 ∧ !stomp then r.2.enqueueCopy n 27 l.frame.tc else r.2)
  else if d.cuts l p then (((d.addRef n).cnt swcCt 0 p).startTx p n l.frame.tc true stomp)
  else (false, if stomp then d else d.enqueueCopy n p l.frame.tc)

/-- The copies of a frame in ascending port order, then its learning, then the pipeline lets go of it. With `bad` the frame was
found bad after its head had left: copies that cut through are stomped, the others are removed. -/
def DieState.forward (d : DieState) (n : Nat) (l : Lookup) (bad : Bool) : DieState :=
  let stomp := bad || l.stomp
  let d0 := (d.onFrame n fun f => { l.frame with refs := f.refs, inv := none })
  let d1 := if l.dest.isEmpty then d0.cnt fwtNoDest else d0
  let r := l.dest.foldl (fun (a : Bool × DieState) p =>
    let q := a.2.placeCopy n l stomp p
    (a.1 || q.1, q.2)) (false, d1)
  let d2 := if r.1 then r.2.cnt ethCntRxStomped l.frame.ingress else r.2
  let d3 := match l.learn with
    | some fid => if stomp then d2 else d2.learnSource fid ((l.frame.bytes.drop 6).take 6) l.frame.ingress
    | none => d2
  d3.releaseFrame n

/-- The frame at the head of the lookup FIFO is looked up and placed; with the table unit fenced it is dropped and counted
(01 R15; 09 R246). -/
def DieState.lookupServe (d : DieState) : DieState :=
  match d.sw.fifo with
  | [] => d
  | n :: r =>
    let d1 := { d with sw := { d.sw with fifo := r } }
    match d1.frameOf n with
    | none => d1
    | some f =>
      if d.fences.contains 70 then (d1.releaseFrame n).cnt evtResetLoss 0 6 else
      let x := d1.lookup f
      match x.1 with
      | none => x.2.releaseFrame n
      | some l => x.2.forward n l false

/-! ### Transmission selection (R214, R219, R222) -/

/-- Conditions 1 to 4 of R214, and the injected delay (17 R441). -/
def DieState.headOpen (d : DieState) (p t : Nat) : Bool :=
  match d.outQueue p t with
  | [] => false
  | c :: _ =>
    (d.gateNow p).2.testBit t && (!d.bit swcQcBCbsen 0 p t || decide (0 ≤ d.credit p t))
      && (!d.bit swcQcAHold 0 p t || decide (0 < d.rd swcQcDAllow 0 p t)) && decide (c.at_ + d.rd prtPortADelay 0 p ≤ d.now)

/-- Condition 5: the head frame ends before the gate next closes. -/
def DieState.headFits (d : DieState) (p t : Nat) : Bool :=
  match d.outQueue p t with
  | [] => false
  | c :: _ =>
    if !d.bit swcEgCfgGband 0 p || !d.gateOn p then true
    else
      match d.frameOf c.desc, d.closesIn p t with
      | some f, some ns => decide (d.wireNs p (d.wireLength p (d.egressBytes f p) + 8) ≤ ns)
      | _, _ => true

/-- A head frame first held back by condition 5 is counted once. -/
def DieState.deferHead (d : DieState) (p t : Nat) : DieState :=
  match d.outQueue p t with
  | [] => d
  | c :: r =>
    if c.deferred || !d.headOpen p t || d.headFits p t then d
    else (d.setQueue p t ({ c with deferred := true } :: r)).cnt swcQcntDGateDefer 0 p t

/-- The highest eligible class among those that a test picks. -/
def DieState.pickClass (d : DieState) (p : Nat) (test : Nat → Bool) : Option Nat :=
  [7, 6, 5, 4, 3, 2, 1, 0].find? fun t => test t && d.headOpen p t && d.headFits p t

/-- The head frame of a class starts. -/
def DieState.startHead (d : DieState) (p t : Nat) : DieState :=
  match d.outQueue p t with
  | [] => d
  | c :: r =>
    let d1 := d.setQueue p t r
    let d2 := if d1.bit swcQcAHold 0 p t then d1.wr swcQcDAllow (d1.rd swcQcDAllow 0 p t - 1) 0 p t else d1
    let x := d2.startTx p c.desc t false false
    match x.1, d.frameOf c.desc with
    | true, some f => x.2.cnt ethCntRxStomped f.ingress
    | _, _ => x.2

/-- A stepping frame (07 Table 7.2). -/
def isStepFrame (bs : List Byte) : Bool := decide (beAt bs 12 2 = 0x88B5) && decide (beAt bs 14 2 = 0x5354)

/-- A frame that the port makes itself starts; a stepping frame passes egress MACsec as data does (07 R193). -/
def DieState.startCtl (d : DieState) (p : Nat) : DieState :=
  match (d.portOf p).ctl with
  | [] => d
  | b :: r =>
    let s := if isStepFrame b then d.secyTx p b else (.plain, d)
    match s.1 with
    | .drop => s.2.onPort p fun x => { x with ctl := r }
    | .sealed w k g => s.2.onPort p fun x => { x with ctl := r, tx := some { desc := none, start := d.now, bytes := w, sak := some (k, g) } }
    | .plain => s.2.onPort p fun x => { x with ctl := r, tx := some { desc := none, start := d.now, bytes := b } }

/-- A port that may start a frame selects one (R214, R222). -/
def DieState.selectTx (d : DieState) (p : Nat) : DieState :=
  let d0 := (List.range 8).foldl (fun d t => d.deferHead p t) (d.gateUpdate p)
  let x := d0.portOf p
  let active := d0.preemptActive p
  if !d0.bit ethLinkUp p || d0.bit ethLinkAsleep p then d0
  else if d0.rd ethStepCState p = 2 then
    (if x.tx.isNone && x.switchAt.isSome && x.ctl.head?.any isStepFrame then d0.startCtl p else d0)
  else
    match x.tx with
    | some cur =>
      if active ∧ cur.desc.isSome ∧ !d0.express p cur.tc ∧ x.held.isNone ∧ !d0.portShut p then
        match d0.pickClass p fun t => d0.express p t with
        | some t => (d0.onPort p fun x => { x with tx := none, held := some cur }).startHead p t
        | none => d0
      else d0
    | none =>
      if !x.ctl.isEmpty then d0.startCtl p
      else if d0.portShut p then d0
      else
        match d0.pickClass p fun t => !active || d0.express p t with
        | some t => d0.startHead p t
        | none =>
          if x.hold then d0
          else
            match x.held with
            | some cur => (d0.onPort p fun x => { x with tx := some cur, held := none }).cnt swcMmFragTx 0 p
            | none =>
              match d0.pickClass p fun t => active && !d0.express p t with
              | some t => d0.startHead p t
              | none => d0

/-- A release of a held queue (R219). -/
def DieState.queueRelease (d : DieState) (p t : Nat) : DieState :=
  if !d.bit swcQcAHold 0 p t then d
  else
    let d1 := d.wr swcQcDAllow (d.rd swcQcAReln 0 p t) 0 p t
    if (d.outQueue p t).isEmpty then d1.cnt swcQcntDReleaseEmpty 0 p t else d1

/-- A cue switches the gate list of a port (R218). -/
def DieState.gateSwitch (d : DieState) (p : Nat) : DieState :=
  let b := d.gateBank p
  let o := 1 - b
  if !d.gateOn p then d
  else if d.rd swcGcbALen 0 p o = 0 ∨ d.gateCycle p o = 0 then d.raise 0x0505 (b + 2) p
  else (((d.creditUpdate p).wr swcGcSBank o 0 p).gateUpdate p).raise 0x0505 o p

/-- Verification of preemption starts (R221, R222): on a commit or link-up with PEN = 1 and VDIS = 0. -/
def DieState.startVerify (d : DieState) (p : Nat) : DieState :=
  if 13 < p then d
  else if d.bit swcPrePen 0 p ∧ !d.bit swcPreVdis 0 p then
    if d.bit ethLinkUp p then (d.wr swcPreStatVstate 1 0 p).onPort p fun x => { x with verifyAt := d.now, verifyTry := 0 } else d
  else d.wr swcPreStatVstate 0 0 p

/-! ### The hand-over to the engines (R208) -/

/-- The highest non-empty class of a port; injected back-pressure, a delay that runs or a fence holds it back (17 R441; 01 R15). -/
def DieState.topClass (d : DieState) (p : Nat) : Option Nat :=
  if d.portShut p then none
  else [7, 6, 5, 4, 3, 2, 1, 0].find? fun t => (d.outQueue p t).head?.any fun c => decide (c.at_ + d.rd prtPortADelay 0 p ≤ d.now)

/-- The flow key of an Ethernet frame (03 R60). -/
def ethFlowKey (f : SFrame) : List Byte :=
  BitVec.ofNat 8 f.ingress :: (match f.handle with
    | some h => leBytes 2 h
    | none => leBytes 2 (f.vid + f.prio * 4096) ++ f.bytes.take 6)

/-- The engine view of a stored frame. -/
def SFrame.toEFrame (f : SFrame) (n : Nat) : EFrame :=
  { bytes := f.bytes, kind := .eth, ingress := f.ingress, stamp := f.stamp, pos := f.rxPos, orig := f.bytes, tag := f.tag,
    desc := some n, vid := f.vid, prio := f.prio, handle := f.handle, origin := f.origin }

/-- The frame at the head of P_27 becomes a frame event, or is dropped unmapped. -/
def DieState.handover (d : DieState) : DieState :=
  match d.topClass 27 with
  | none => d
  | some t =>
    match d.outQueue 27 t with
    | [] => d
    | c :: r =>
      let d1 := d.setQueue 27 t r
      match d1.frameOf c.desc with
      | none => d1
      | some f =>
        let k := f.esel
        if !d1.bitAs f.tag swcP27MapEn 0 k then ((d1.releaseFrame c.desc).cnt swcP27Unmapped).raiseHeld 0x0507 0 1000000 k
        else
          (d1.cnt swcQcntA 0 27 t).engineEvent (d1.rdAs f.tag swcP27MapCluster 0 k)
            { typ := 0, entry := d1.rdAs f.tag swcP27MapEntry 0 k, cls := 4, unit := f.ingress, w1 := f.bytes.length, w2 := f.stamp,
              frame := some (f.toEFrame c.desc), key := ethFlowKey f, origin := f.origin }

/-! ### The commands -/

/-- LOOKUP_PIPELINE_ENTRY (R207): the oldest frame received on the port enters the lookup FIFO, or is dropped at a full one. -/
def execLookupPipelineEntry (d : Die) (p : Fin 29) (s : State) : Host.Outcome State Fault Refusal :=
  s.doOn d fun d =>
    match (d.portOf p).rx with
    | n :: r => if d.hallOn .swc then (d.onPort p fun x => { x with rx := r }).lookupPush n else d
    | [] => d

/-- FORWARDING_LOOKUP (09 R233). -/
def execForwardingLookup (d : Die) (s : State) : Host.Outcome State Fault Refusal :=
  s.doOn d fun d => if d.hallOn .swc then d.lookupServe else d

/-- P27_HANDOVER (R208). -/
def execP27Handover (d : Die) (s : State) : Host.Outcome State Fault Refusal :=
  s.doOn d fun d => if d.hallOn .swc then d.handover else d

/-- GATE_CHANGE (R217, R222): the gates take the states of the entry in effect; an OP 1 entry holds preemptable traffic, an OP 2
entry releases it. -/
def execGateChange (d : Die) (p : Fin 26) (s : State) : Host.Outcome State Fault Refusal :=
  s.doOn d fun d =>
    if !d.hallOn .swc || !d.gateOn p then d
    else
      let d1 := d.gateUpdate p
      match d1.gatePos p with
      | none => d1
      | some _ =>
        match d1.rd swcGclAOp 0 (2 * p + d1.gateBank p) (d1.gateNow p).1 with
        | 1 => d1.onPort p fun x => { x with hold := true }
        | 2 => d1.onPort p fun x => { x with hold := false }
        | _ => d1

/-- HOLD_REQUEST (R222): HOLDADV ns before an OP 1 entry begins, no preemptable fragment starts any more. -/
def execHoldRequest (d : Die) (p : Fin 14) (s : State) : Host.Outcome State Fault Refusal :=
  s.doOn d fun d =>
    let ahead := (d.gateAhead p fun k => d.rd swcGclAOp 0 (2 * p + d.gateBank p) k = 1).bind fun n => d.unitsNs (d.rd swcGcATb 0 p) n
    if d.hallOn .swc && d.gateOn p && d.preemptActive p && ahead.any (fun n => decide (n ≤ d.rd swcGcB 0 p)) then
      d.onPort p fun x => { x with hold := true }
    else d

/-- PREEMPT_VERIFY_TIMEOUT (R221, R222): VTIME ms without an answer; the third attempt fails the verification. -/
def execPreemptVerifyTimeout (d : Die) (p : Fin 14) (s : State) : Host.Outcome State Fault Refusal :=
  s.doOn d fun d =>
    let x := d.portOf p
    if d.hallOn .swc ∧ d.rd swcPreStatVstate 0 p = 1 ∧ x.verifyAt + 1000000 * d.rd swcPreVtime 0 p ≤ d.now then
      if 2 ≤ x.verifyTry then (d.wr swcPreStatVstate 3 0 p).raise 0x0506 0 p
      else d.onPort p fun x => { x with verifyAt := d.now, verifyTry := x.verifyTry + 1 }
    else d

/-- PREEMPT_VERIFY_RESPONSE (R222): the partner's answer makes preemption active. -/
def execPreemptVerifyResponse (d : Die) (p : Fin 14) (s : State) : Host.Outcome State Fault Refusal :=
  s.doOn d fun d => if d.hallOn .swc ∧ d.rd swcPreStatVstate 0 p = 1 then d.wr swcPreStatVstate 2 0 p else d

/-- SF_UNBLOCK (R225): a write of SWC.SF_BLK_w unblocks the filters of its bits. -/
def execSfUnblock (a : Acc) (w : Fin 128) (v : Word) (s : State) : Host.Outcome State Fault Refusal :=
  s.doOn a.die fun d => d.writeReg a.req 5 0 (0xC000 + 4 * w) v fun d => d

/-- METER_UNLATCH (R226): a write of LATCHED in SWC.FMC_m. -/
def execMeterUnlatch (a : Acc) (m : Fin 2048) (v : Word) (s : State) : Host.Outcome State Fault Refusal :=
  s.doOn a.die fun d => d.writeReg a.req 5 0 (0x2000C + 16 * m) v fun d => d

/-- FRER_RESET (R228): RESET ms without an accepted frame reset a recovery function. -/
def execFrerReset (d : Die) (n : Fin 1024) (s : State) : Host.Outcome State Fault Refusal :=
  s.doOn d fun d =>
    let x := Tab.get {} d.sw.srf n
    if d.hallOn .swc ∧ d.bit swcSrfAEn 0 n ∧ !x.first ∧ x.seen + 1000000 * d.rd swcSrfB 0 n ≤ d.now then
      (({ d with sw := { d.sw with srf := Tab.erase d.sw.srf n } }).cnt swcSrcResets 0 n).raise 0x0504 n
    else d

/-- TX_SELECTION (R214). P_26 delivers through the virtual NIC and P_27 through its hand-over. -/
def execTxSelection (d : Die) (p : Fin 29) (s : State) : Host.Outcome State Fault Refusal :=
  s.doOn d fun d => if d.hallOn .swc ∧ p.val ≠ 26 ∧ p.val ≠ 27 then d.selectTx p else d

end Sys2Proof.Machine
end

