-- ==== Sys2Proof/Machine/Routes.lean ====
section
/-! DEFINITION. Machine/Routes.lean: the direct routes (chapter 5, R127 to R139): identifier handles, the route pipeline, token
buckets, quarantine (17 R433), talkers, IEEE 1722 ingress and the Signal PDU import. -/

namespace Sys2Proof.Machine

/-! ### Handles (R127, R128) -/

/-- The register file of the set an item is tagged with. -/
def DieState.regsAs (d : DieState) (tag : Nat) : Tab Nat := if tag = d.gen then d.regs else d.old

/-- Indices of map entries with VALID = 1 in a set, ascending. -/
def DieState.mapIdx (d : DieState) (tag : Nat) : List Nat :=
  (d.regsAs tag).filterMap fun e =>
    if keyChan e.1 = 0 ∧ keyBlk e.1 = 9 ∧ e.1 % 32 = 31 then (brgMapAValid.at? (keyOff e.1)).map Prod.fst else none

/-- Map entry `m` matches an identifier on a channel. -/
def DieState.mapHit (d : DieState) (tag m id ch : Nat) : Bool :=
  !d.entryBad 6 m && decide (Nat.land id (d.rdAs tag brgMapB 0 m) = d.rdAs tag brgMapAMatch 0 m)
    && (d.bitAs tag brgMapCAnych 0 m || decide (d.rdAs tag brgMapCChan 0 m = ch))

/-- The handle that the map gives, with the entry: lowest entry first (Table 5.6). -/
def DieState.mapFind (d : DieState) (tag id ch : Nat) : Option (Nat × Nat) :=
  ((d.mapIdx tag).find? fun m => d.mapHit tag m id ch).map fun m =>
    (m, if d.bitAs tag brgMapCHmode 0 m then (d.rdAs tag brgMapCHbase 0 m + id % 256) % 65536 else d.rdAs tag brgMapCHbase 0 m)

/-- The handle of a frame on channel `ch` of WIN_c (Table 5.6). -/
def DieState.handleOf (d : DieState) (tag ch : Nat) (f : BusFrame) : Option Nat :=
  if f.ide then (d.mapFind tag f.id.toNat ch).map Prod.snd
  else
    let id := if f.fmt = .lin then f.id.toNat % 64 else f.id.toNat % 2048
    let low := d.rdAs tag brgWinALow 0 ch
    if low ≤ id ∧ id < low + d.rdAs tag brgWinBCount 0 ch then some (d.rdAs tag brgWinABase 0 ch + (id - low)) else none

/-- A route entry (Table 5.7). -/
structure Route where
  newid   : Nat
  xid     : Bool
  keep    : Bool
  candest : Nat
  lindest : Nat
  talker  : Option Nat
  pad8    : Bool
  txfmt   : Nat
  brs     : Bool
  gcap    : Bool
  bucket  : Option Nat
  sec     : Nat
  ks      : Nat
  deriving DecidableEq, Repr

/-- The fields of a usable entry's words. -/
def routeOf (w : List Nat) : Route :=
  { newid := bitsOf (wd w 0) 0 29, xid := (wd w 0).testBit 29, keep := (wd w 0).testBit 30, candest := wd w 1,
    lindest := bitsOf (wd w 2) 0 8, talker := if (wd w 2).testBit 16 then some (bitsOf (wd w 2) 8 8) else none,
    pad8 := bitsOf (wd w 2) 17 2 = 1, txfmt := bitsOf (wd w 2) 19 2, brs := (wd w 2).testBit 21, gcap := (wd w 2).testBit 22,
    bucket := if (wd w 3).testBit 12 then some (bitsOf (wd w 3) 0 12) else none, sec := bitsOf (wd w 3) 13 3,
    ks := bitsOf (wd w 3) 16 8 }

/-- An entry is usable: VALID, no reserved value, and a valid talker if it names one (R128, Table 5.16). -/
def DieState.routeUsable (d : DieState) (tag : Nat) (w : List Nat) : Bool :=
  (wd w 0).testBit 31 && decide (bitsOf (wd w 2) 17 2 < 2) && decide (bitsOf (wd w 3) 13 3 < 5) && decide (wd w 2 < 2 ^ 23)
    && decide (wd w 3 < 2 ^ 24) && (!(wd w 2).testBit 16 || d.bitAs tag brgTkAValid 0 (bitsOf (wd w 2) 8 8))

/-- The answer of an engine lookup on tables 5 and 6 (R140). -/
def DieState.routeAnswer (d : DieState) (tag t : Nat) (key : List Nat) : Bool × Nat × Nat :=
  if t = 5 then
    let w := d.entryAs tag 5 (wd key 0)
    if d.routeUsable tag w then (true, wd w 0, wd w 1) else (false, 0, 0)
  else
    match d.mapFind tag (wd key 0) (wd key 1) with
    | some (m, h) => (true, h + m * 65536, 0)
    | none => (false, 0, 0)

/-- A miss (R127): receive queue 0 of the channel with MISSQ = 1, else counted in NO_ROUTE. -/
def DieState.routeMiss (d : DieState) (f : RFrame) : DieState :=
  if d.bitAs f.tag brgWinBMissq 0 f.ch then
    if f.ch < 32 then d.rxQueue f.ch canQcfgRxq0En canQcfgRxq0 canCntRxq0Ovf (rxRecord f.frame f.ch f.stamp)
    else d.rxQueue (f.ch - 32) linQcfgRxq0En linQcfgRxq0 linCntRxqOvf (rxRecord f.frame (f.ch - 32) f.stamp)
  else d.cnt brgCntNoRoute 0 f.ch

/-! ### Token buckets (R131) -/

/-- Tokens due by the running microsecond are added. The instant of the last addition moves on with them. -/
def DieState.bucketFill (d : DieState) (n : Nat) : DieState :=
  let t := Tab.get 0 d.rte.bucket n
  let step := d.rd brgBkAInterval 0 n
  let k := (d.now / 1000 - t / 1000) / step
  if k = 0 then d
  else
    let d1 := d.wr brgBkBLevel (min (d.rd brgBkADepth 0 n) (d.rd brgBkBLevel 0 n + k)) 0 n
    { d1 with rte := { d1.rte with bucket := Tab.insert d1.rte.bucket n (t + k * step * 1000) } }

/-- A frame asks a bucket for a token. -/
def DieState.bucketTake (d : DieState) (n : Nat) : Bool × DieState :=
  let d1 := d.bucketFill n
  let l := d1.rd brgBkBLevel 0 n
  if l = 0 then (false, d1.cnt brgBkBDrops 0 n) else (true, d1.wr brgBkBLevel (l - 1) 0 n)

/-- A commit that changes INTERVAL or DEPTH fills the bucket and restarts its timing. -/
def DieState.bucketRestart (d : DieState) (n : Nat) : DieState :=
  let d1 := d.wr brgBkBLevel (d.rd brgBkADepth 0 n) 0 n
  { d1 with rte := { d1.rte with bucket := Tab.insert d1.rte.bucket n d1.now } }

/-! ### Quarantine (17 R433) -/

/-- State of a slot: 0 free, 1 WATCH, 2 QUARANTINED. -/
def DieState.qtState (d : DieState) (k : Nat) : Nat := d.rd prtQtAState 0 k

/-- The slot's window or hold. -/
def DieState.qtSlot (d : DieState) (k : Nat) : QSlot := Tab.get {} d.guard.qt k

/-- Puts a slot's count and instant back. -/
def DieState.setQt (d : DieState) (k : Nat) (x : QSlot) : DieState :=
  { d with guard := { d.guard with qt := Tab.insert d.guard.qt k x } }

/-- The slot of a (channel, handle) pair. -/
def DieState.qtFind (d : DieState) (ch h : Nat) : Option Nat :=
  (List.range 16).find? fun k => decide (d.qtState k ≠ 0) && decide (d.rd prtQtAHandle 0 k = h) && decide (d.rd prtQtAChan 0 k = ch)

/-- A slot is freed; one that was QUARANTINED raises QUARANTINE_OFF. -/
def DieState.qtFree (d : DieState) (k : Nat) (byHost : Bool) : DieState :=
  let info := d.rd prtQtAHandle 0 k + d.rd prtQtAChan 0 k * 65536 + if byHost then 2 ^ 31 else 0
  let was := d.qtState k
  let d1 := ((d.wr prtQtAState 0 0 k).wr prtQtAHandle 0 0 k).wr prtQtAChan 0 0 k
  let d2 := { d1 with guard := { d1.guard with qt := Tab.erase d1.guard.qt k } }
  if was = 2 then d2.raise 0x1302 info k else d2

/-- The pair is quarantined at this instant. -/
def DieState.quarantined (d : DieState) (ch h : Nat) : Option Nat :=
  (d.qtFind ch h).filter fun k =>
    decide (d.qtState k = 2) && decide (d.now < (d.qtSlot k).start + 1000000 * d.rd prtQcfgBHold)

/-- The count of a slot reaches DROPS: the pair is quarantined. -/
def DieState.qtJudge (d : DieState) (k : Nat) : DieState :=
  if d.rd prtQcfgADrops ≤ (d.qtSlot k).count then
    ((d.wr prtQtAState 2 0 k).setQt k { d.qtSlot k with start := d.now }).raise 0x1301
      (d.rd prtQtAHandle 0 k + d.rd prtQtAChan 0 k * 65536) k
  else d

/-- A pair without a slot takes the lowest free one, or counts in QT_FULL. -/
def DieState.qtTake (d : DieState) (ch h : Nat) : DieState :=
  match (List.range 16).find? fun k => decide (d.qtState k = 0) with
  | none => d.cnt prtVcntQtFull
  | some k =>
    ((((d.wr prtQtAHandle h 0 k).wr prtQtAChan ch 0 k).wr prtQtAState 1 0 k).setQt k { count := 1, start := d.now }).qtJudge k

/-- A RATE drop of a pair. -/
def DieState.qtDrop (d : DieState) (ch h : Nat) : DieState :=
  if !d.bit prtQcfgAEn then d
  else
    match d.qtFind ch h with
    | none => d.qtTake ch h
    | some k =>
      let x := d.qtSlot k
      if d.qtState k = 2 then d
      else if x.start + 1000000 * d.rd prtQcfgBWin ≤ d.now then (d.qtFree k false).qtTake ch h
      else (d.setQt k { x with count := x.count + 1 }).qtJudge k

/-! ### Output frames (R130, 11 R306) -/

/-- Output format of the CAN and talker copies: TXFMT, or as received; a LIN frame leaves as classical. -/
def Route.fmt (r : Route) (f : BusFrame) : BusFmt :=
  match r.txfmt with
  | 1 => .cc
  | 2 => .fd
  | 3 => .xl
  | _ => if f.fmt = .lin then .cc else f.fmt

/-- Every destination allows the output length `l`, and a remote frame has a form there (R130, Table 5.8). -/
def Route.sizeOk (r : Route) (f : BusFrame) (cans lins : List Nat) (l : Nat) (linLen : Nat → Nat) : Bool :=
  let out := r.fmt f
  let rem := f.fmt = .cc ∧ f.rtr
  let busOk : Bool :=
    match out with
    | .cc => decide (l ≤ 8)
    | .fd => decide (l ≤ 64)
    | _ => decide (1 ≤ l) && decide (l ≤ 2048)
  (cans.isEmpty || busOk) && (r.talker.isNone || (busOk && decide (out ≠ .xl)))
    && lins.all (fun c => decide (1 ≤ l) && decide (l ≤ linLen c))
    && !(decide rem && (!lins.isEmpty || ((!cans.isEmpty || r.talker.isSome) && decide (out ≠ .cc))))

/-- Pads to `n` bytes with `b`. -/
def padTo (bs : List Byte) (n : Nat) (b : Byte) : List Byte := bs ++ List.replicate (n - bs.length) b

/-- The identifier and format of the output. -/
def Route.ident (r : Route) (f : BusFrame) (out : BusFmt) : BitVec 29 × Bool :=
  let id := if r.keep then f.id else BitVec.ofNat 29 r.newid
  let ide := if r.keep then f.ide else r.xid
  if out = .xl then (BitVec.ofNat 29 (id.toNat % 2048), false)
  else if ide then (id, true)
  else (BitVec.ofNat 29 (id.toNat % 2048), false)

/-- FLAGS of the output: BRS as TXFMT says, ESI of a received FD frame (06 R144), SEC of a received XL frame. -/
def Route.flags (r : Route) (f : BusFrame) (out : BusFmt) : Byte :=
  let brs : Byte := if r.txfmt = 0 then f.flags &&& 1 else if r.brs then 1 else 0
  match out with
  | .fd => brs ||| (if f.fmt = .fd then f.flags &&& 2 else 0)
  | .xl => brs ||| (if f.fmt = .xl then f.flags &&& 4 else 0)
  | _ => 0

/-- The frame for CAN channels and the talker, with its data field. -/
def Route.output (r : Route) (f : BusFrame) (data : List Byte) : BusFrame :=
  let out := r.fmt f
  let rem := f.fmt = .cc ∧ f.rtr ∧ out = .cc
  let p := r.ident f out
  let xl : Bool := decide (out = .xl) && decide (f.fmt = .xl)
  { id := p.1, ide := p.2, rtr := rem, fmt := out, flags := r.flags f out, dlc := if rem then f.dlc else data.length,
    sdt := if xl then f.sdt else 0, vcid := if xl then f.vcid else 0, af := if xl then f.af else 0,
    data := if rem then [] else data }

/-- The data field of an output before its trailer: PAD8, then the padding of FD up to a length that `tail` more bytes make
valid (R130; 11 R306). -/
def Route.field (r : Route) (f : BusFrame) (payload : List Byte) (tail : Nat) : List Byte :=
  let p := if r.pad8 ∧ payload.length + tail < 8 then padTo payload (8 - tail) 0xFF else payload
  if r.fmt f = .fd then
    match fdLengths.find? fun n => p.length + tail ≤ n with
    | some n => padTo p (n - tail) 0
    | none => p
  else p

/-! ### Talkers (R133, R134) -/

/-- One ACF message (IEEE 1722-2016: ACF_CAN or ACF_CAN_BRIEF; PRESUMED, log 30). -/
def acfMessage (brief : Bool) (m : TkMsg) : List Byte :=
  let pay := m.frame.data
  let q := ceilDiv pay.length 4
  let pad := 4 * q - pay.length
  let quads := (if brief then 2 else 4) + q
  let f := m.frame
  let bits := pad * 64 + (if brief then 0 else 32) + (if f.rtr then 16 else 0) + (if f.ide then 8 else 0)
    + (if f.flags.getLsbD 0 then 4 else 0) + (if f.fmt = .fd then 2 else 0) + (if f.flags.getLsbD 1 then 1 else 0)
  beBytes 2 ((if brief then 2 else 1) * 512 + quads) ++ [BitVec.ofNat 8 bits, BitVec.ofNat 8 (m.ch % 32)]
    ++ (if brief then [] else beBytes 8 m.pos) ++ beBytes 4 f.id.toNat ++ padTo pay (4 * q) 0

/-- The NTSCF frame of a talker without FCS. -/
def DieState.ntscf (d : DieState) (tag t : Nat) (ms : List TkMsg) : List Byte :=
  let body := ms.flatMap (acfMessage (d.bitAs tag brgTkABrief 0 t))
  leBytes 4 (d.rdAs tag brgTkE 0 t) ++ leBytes 2 (d.rdAs tag brgTkFDaHi 0 t) ++ d.portMac (d.rdAs tag brgTkAPort 0 t)
    ++ [0x81, 0x00] ++ beBytes 2 (d.rdAs tag brgTkFPcp 0 t * 8192 + d.rdAs tag brgTkFVid 0 t) ++ [0x22, 0xF0]
    ++ [0x82, BitVec.ofNat 8 (0x80 + body.length / 256 % 8), BitVec.ofNat 8 body.length, BitVec.ofNat 8 (d.rd brgTkG 0 t)]
    ++ beBytes 4 (d.rdAs tag brgTkD 0 t) ++ beBytes 4 (d.rdAs tag brgTkC 0 t) ++ body

/-- A talker. -/
def DieState.talker (d : DieState) (t : Nat) : Talker := Tab.get {} d.rte.talkers t

/-- Puts a talker back. -/
def DieState.setTalker (d : DieState) (t : Nat) (x : Talker) : DieState :=
  { d with rte := { d.rte with talkers := Tab.put {} d.rte.talkers t x } }

/-- A frame that the die makes enters the output queue of a port; its cells are charged to P_27. -/
def DieState.sendMade (d : DieState) (p tc tag : Nat) (bytes : List Byte) (origin : Nat) (tsReq : Option (Nat × Nat)) : DieState :=
  let r := d.storeFrame
    { bytes := bytes, port := 27, pool := d.rd ethRxcAPool 27 0, ingress := 27, cells := cellsOf (pad60 bytes).length, refs := 1,
      tc := tc, tag := tag, origin := origin, tsReq := tsReq }
  (r.2.enqueueCopy r.1 p tc).releaseFrame r.1

/-- A talker sends what it holds (R134); on a standby the frame is freed (12 R329). -/
def DieState.talkerSend (d : DieState) (t : Nat) : DieState :=
  let x := d.talker t
  match x.msgs with
  | [] => d
  | m :: _ =>
    let bytes := d.ntscf x.tag t x.msgs
    let d1 := ((d.setTalker t {}).cnt brgTkG 0 t).cnt brgTkH 0 t
    if d.pairMode = 1 ∧ (d.role = 2 ∨ d.role = 4) then (d.setTalker t {}).cnt stwCntMirrorSuppressed
    else if !d1.hallOn .swc then d1
    else d1.sendMade (d.rdAs x.tag brgTkAPort 0 t) (d.rdAs x.tag brgTkATc 0 t) x.tag bytes m.origin none

/-- A message reaches a talker. -/
def DieState.talkerAdd (d : DieState) (tag t : Nat) (m : TkMsg) : DieState :=
  let x := d.talker t
  let big := d.rdAs tag ethMaxlen (d.rdAs tag brgTkAPort 0 t) < (d.ntscf tag t (x.msgs ++ [m])).length + 4
  let d1 := if big then d.talkerSend t else d
  let y := d1.talker t
  let d2 := d1.setTalker t { msgs := y.msgs ++ [m], first := if y.msgs.isEmpty then d.now else y.first, tag := tag }
  if d.rdAs tag brgTkAMaxmsg 0 t ≤ y.msgs.length + 1 ∨ d.rdAs tag brgTkB 0 t = 0 then d2.talkerSend t else d2

/-! ### The pipeline (R129) -/

/-- The time base of the frame's ingress stamp. -/
def DieState.rfBase (d : DieState) (f : RFrame) : Nat :=
  if f.from1722 then f.tb else if f.ch < 32 then d.rdAs f.tag canCtrlTb f.ch else d.rdAs f.tag linCtrlTb (f.ch - 32)

/-- The position of a base at the frame's ingress: now, less the time since its ingress stamp (DEDUCED, log 31). -/
def DieState.ingressPos (d : DieState) (f : RFrame) (tb : Nat) : Nat :=
  let n := d.rfBase f
  ((d.position tb : Int) - (if tb = n ∨ !d.isAngle n then stampDiff (d.stamp n) f.stamp else 0)) % 2 ^ 64 |>.toNat

/-- The received payload under a verifying route: the payload that goes on, or none (step 2). -/
def DieState.routeVerify (d : DieState) (f : RFrame) (r : Route) : Option (List Byte) × DieState :=
  let pay := shownOf f.frame
  if r.sec = 1 ∨ r.sec = 2 then
    let v := d.verifyFrame r.ks f.frame.id.toNat f.frame.ide pay
    if v.1 = .accept then (some (if r.sec = 1 then pay.take (pay.length - 12) else pay), v.2) else (none, v.2.cnt brgCntSeal 0 f.ch)
  else (some pay, d)

/-- Capture to the Gallery (step 5). -/
def DieState.routeCapture (d : DieState) (f : RFrame) (h : Nat) (pay : List Byte) : DieState :=
  if !d.galOpen then d
  else
    d.galIssue { pos := 7, source := 0x20, handle := h, origin := f.origin,
                 op := .put [BitVec.ofNat 32 (leAt pay 0 4)] (BitVec.ofNat 32 f.stamp) 1 }

/-- The output, sealed if the route seals: none when no key serves (step 6; the frame is then dropped as SEAL, log 32). -/
def DieState.routeSeal (d : DieState) (f : RFrame) (r : Route) (pay : List Byte) : Option BusFrame × DieState :=
  if r.sec = 3 then
    let body := r.field f.frame pay 12
    let out := r.output f.frame body
    let s := d.sealFrame r.ks out.id.toNat out.ide body
    match s.1 with
    | some data => (some { out with data := data, dlc := data.length }, s.2)
    | none => (none, s.2.cnt brgCntSeal 0 f.ch)
  else (some (r.output f.frame (r.field f.frame pay 0)), d)

/-- Delivery to the destinations (step 7); each takes its position as EIDX (12 R328). -/
def DieState.routeDeliver (d : DieState) (f : RFrame) (r : Route) (cans lins : List Nat) (pay : List Byte) (out : BusFrame) : DieState :=
  let d1 := cans.zipIdx.foldl (fun d p =>
    (d.canEnqueue p.1 { frame := out, src := 0, tag := f.tag, origin := withEidx f.origin p.2 }).2) d
  let i := if r.keep then f.frame.id.toNat % 64 else r.newid % 64
  let d2 := lins.zipIdx.foldl (fun d p =>
    (d.linStore p.1 i (padTo pay (d.linLen f.tag p.1 i) 0xFF) (withEidx f.origin (cans.length + p.2))).2) d1
  let d3 := match r.talker with
    | some t => d2.talkerAdd f.tag t
        { ch := f.ch, frame := out, pos := d2.ingressPos f (d2.rdAs f.tag brgTkATb 0 t),
          origin := withEidx f.origin (cans.length + lins.length) }
    | none => d2
  d3.cnt brgCntRouted 0 f.ch

/-- A frame with a usable route (R129). -/
def DieState.routeRun (d : DieState) (f : RFrame) (h : Nat) (r : Route) : DieState :=
  if r.sec = 4 then (d.cnt brgCntSpoof 0 f.ch).raise 0x0901 f.frame.id.toNat f.ch
  else
    let v := d.routeVerify f r
    match v.1 with
    | none => v.2
    | some pay =>
      let d1 := v.2
      let cans := (List.range 32).filter fun c => r.candest.testBit c && (f.handle.isSome || decide (c ≠ f.ch))
      let lins := (List.range 8).filter fun l => r.lindest.testBit l && decide (32 + l ≠ f.ch)
      let i := if r.keep then f.frame.id.toNat % 64 else r.newid % 64
      let l := pay.length + if r.sec = 3 then 12 else 0
      if !r.sizeOk f.frame cans lins l (fun c => d1.linLen f.tag c i) then d1.cnt brgCntSize 0 f.ch
      else
        let b := match r.bucket with
          | some n => d1.bucketTake n
          | none => (true, d1)
        if !b.1 then (b.2.cnt brgCntRate 0 f.ch).qtDrop f.ch h
        else
          let d2 := if r.gcap then b.2.routeCapture f h pay else b.2
          let s := d2.routeSeal f r pay
          match s.1 with
          | some out => s.2.routeDeliver f r cans lins pay out
          | none => s.2

/-- A frame of the pipeline is handled. -/
def DieState.routeProcess (d : DieState) (f : RFrame) : DieState :=
  let h := match f.handle with
    | some h => some h
    | none => d.handleOf f.tag f.ch f.frame
  let d := if f.handle.isNone && f.frame.ide then d.ueReads 6 (d.badEntries 6) else d
  match h with
  | none => d.routeMiss f
  | some h =>
    match d.quarantined f.ch h with
    | some k => d.cnt prtQtB 0 k
    | none =>
      let d1 := d.ueRead 5 h
      let w := d1.entryAs f.tag 5 h
      if d1.routeUsable f.tag w then d1.routeRun f h (routeOf w) else d1.routeMiss f

/-! ### IEEE 1722 ingress (R135; 17 R436) -/

/-- A message is malformed. -/
def acfBad (m : AcfMsg) : Bool :=
  decide (m.length = 0) || m.beyond
    || (decide (m.kind = 1 ∨ m.kind = 2) && decide ((if m.frame.fmt = .fd then 64 else 8) < m.frame.data.length))

/-- The messages before the first malformed one. -/
def goodMsgs (ms : List AcfMsg) : List AcfMsg := ms.takeWhile fun m => !acfBad m

/-- Adds a gap to a GAPS counter. -/
def DieState.gapAdd (d : DieState) (f : Fld) (i : Nat) (last : Option Nat) (seq m : Nat) : DieState :=
  match last with
  | none => d
  | some l => d.cnt f 0 i 0 ((seq + 2 * m - l - 1) % m)

/-- The stream map entry of a stream. -/
def DieState.streamEntry (d : DieState) (id : DWord) : Option Nat :=
  (d.setIdx brgSmCValid).find? fun s =>
    d.bit brgSmCValid 0 s && decide (d.rd brgSmA 0 s + 2 ^ 32 * d.rd brgSmB 0 s = id.toNat)

/-- A 1722 frame received on a port. -/
def DieState.ingress1722 (d : DieState) (port : Nat) (f : Ieee1722) (stamp origin : Nat) : DieState :=
  let known := f.subtype = 0x82 ∨ f.subtype = 0x05
  match (if known then d.streamEntry f.streamId else none) with
  | none => d.cnt brgStreamMiss
  | some s =>
    let d1 := d.gapAdd brgSmD s (Tab.get? d.rte.smLast s) f.seqNum.toNat 256
    let d2 := { d1 with rte := { d1.rte with smLast := Tab.insert d1.rte.smLast s f.seqNum.toNat } }
    let d3 := if f.tooLong || f.msgs.any acfBad then d2.cnt prtVcntMalformed1722 else d2
    (goodMsgs f.msgs).foldl (fun d m =>
      if m.kind = 1 ∨ m.kind = 2 then
        d.routePush { ch := m.busId % 32, frame := m.frame, stamp := stamp, tag := d.gen, origin := origin, from1722 := true,
                      tb := d.rd ethTs port, handle := if d.bit brgSmCMode 0 s then none else some (d.rd brgSmCHandle 0 s) }
      else d.cnt brgAcfSkip) d3

/-! ### Signal PDU import (R137) -/

/-- The import entry of a UDP port. -/
def DieState.pduEntry (d : DieState) (port : Nat) : Option Nat :=
  (List.range 16).find? fun i => d.bit brgSpiAValid 0 i && decide (d.rd brgSpiAPort 0 i = port)

/-- A PDU is dropped whole. -/
def pduBad (p : SignalPdu) : Bool :=
  decide (p.version ≠ 1) || decide (p.n = 0) || decide (p.udpLen ≠ 16 + 8 * p.n) || decide (p.records.length ≠ p.n)
    || p.records.any fun r => decide (3 < r.typ.toNat)

/-- STATUS that a record writes; above 3 the spec gives none (a free value of the four). -/
def DieState.pduStatus (d : DieState) (r : PduRecord) : Nat × DieState :=
  if r.status.toNat ≤ 3 then (r.status.toNat, d) else (d.freshVal.toNat % 4, d.drawn)

/-- The records of a PDU are put in record order. -/
def DieState.importPdu (d : DieState) (p : SignalPdu) (origin : Nat) : DieState :=
  match (if pduBad p then none else d.pduEntry p.port.toNat) with
  | none => d.cnt brgPduBad
  | some i =>
    let d1 := d.gapAdd brgSpiBGaps i (Tab.get? d.rte.spiLast i) p.seq.toNat 65536
    let d2 := { d1 with rte := { d1.rte with spiLast := Tab.insert d1.rte.spiLast i p.seq.toNat } }
    p.records.foldl (fun d r =>
      let st := d.pduStatus r
      if !st.2.galOpen then st.2
      else
        st.2.galIssue { pos := 7, source := 0x21, handle := (r.handle.toNat + st.2.rd brgSpiBOffset 0 i) % 65536, origin := origin,
                        op := .put [r.value] p.stamp st.1 }) d2

/-! ### The commands -/

/-- ROUTE_PIPELINE_ENTRY (R132). -/
def execRoutePipelineEntry (d : Die) (ch : Fin 40) (f : BusFrame) (stamp : Word) (s : State) : Host.Outcome State Fault Refusal :=
  s.doOn d fun d =>
    if d.hallOn .bus then d.routePush { ch := ch, frame := f, stamp := stamp.toNat, tag := d.gen } else d

/-- ROUTE_FRAME_PROCESS (R129). -/
def execRouteFrameProcess (d : Die) (s : State) : Host.Outcome State Fault Refusal :=
  s.doOn d fun d =>
    match d.rte.fifo with
    | f :: r => if d.hallOn .bus then ({ d with rte := { d.rte with fifo := r } }).routeProcess f else d
    | [] => d

/-- TOKEN_ADD (R131): an INTERVAL has passed since the last addition. -/
def execTokenAdd (d : Die) (n : Fin 4096) (s : State) : Host.Outcome State Fault Refusal :=
  s.doOn d fun d => if d.hallOn .bus then d.bucketFill n else d

/-- TALKER_HOLD_EXPIRY (R134). -/
def execTalkerHoldExpiry (d : Die) (t : Fin 256) (s : State) : Host.Outcome State Fault Refusal :=
  s.doOn d fun d =>
    let x := d.talker t
    if d.hallOn .bus ∧ !x.msgs.isEmpty ∧ x.first + 1000 * d.rdAs x.tag brgTkB 0 t ≤ d.now then d.talkerSend t else d

/-- IEEE1722_INGRESS (R135). -/
def execIeee1722Ingress (d : Die) (port : Fin 29) (f : Ieee1722) (stamp : Word) (s : State) : Host.Outcome State Fault Refusal :=
  s.doOn d fun d =>
    if d.hallOn .bus then
      let p := d.newOrigin port 0
      p.2.ingress1722 port f stamp.toNat p.1
    else d

/-- SIGNAL_PDU_IMPORT (R137). -/
def execSignalPduImport (d : Die) (pdu : SignalPdu) (s : State) : Host.Outcome State Fault Refusal :=
  s.doOn d fun d => if d.hallOn .bus then d.importPdu pdu 0 else d

/-- QUARANTINE_WINDOW_END (17 R433). -/
def execQuarantineWindowEnd (d : Die) (k : Fin 16) (s : State) : Host.Outcome State Fault Refusal :=
  s.doOn d fun d =>
    if d.qtState k = 1 ∧ (d.qtSlot k).start + 1000000 * d.rd prtQcfgBWin ≤ d.now then d.qtFree k false else d

/-- QUARANTINE_HOLD_END (17 R433). -/
def execQuarantineHoldEnd (d : Die) (k : Fin 16) (s : State) : Host.Outcome State Fault Refusal :=
  s.doOn d fun d =>
    if d.qtState k = 2 ∧ (d.qtSlot k).start + 1000000 * d.rd prtQcfgBHold ≤ d.now then d.qtFree k false else d

/-- QT_RELEASE: a write of PRT.QT_k_A (17 R433). -/
def execQtRelease (a : Acc) (k : Fin 16) (v : Word) (s : State) : Host.Outcome State Fault Refusal :=
  s.doOn a.die fun d => d.writeReg a.req 19 0 (0x40 + 8 * k) v fun d =>
    if v.msb ∧ d.qtState k ≠ 0 then d.qtFree k true else d

end Sys2Proof.Machine
end

