-- ==== Sys2Proof/Machine/Ptp.lean ====
section
/-! DEFINITION. Machine/Ptp.lean: the gPTP domain units (chapter 10, R276 to R280). Message layouts are those of IEEE 802.1AS-2020
(PRESUMED, log 33). -/

namespace Sys2Proof.Machine

/-! ### Messages -/

/-- A gPTP message of a frame: its EtherType, message type, domainNumber, sequenceId. -/
def isPtp (bs : List Byte) : Bool := etherType bs = 0x88F7

/-- messageType. -/
def ptpType (bs : List Byte) : Nat := (byteAt bs (etherBody bs)).toNat % 16

/-- domainNumber. -/
def ptpDomain (bs : List Byte) : Nat := (byteAt bs (etherBody bs + 4)).toNat

/-- The twoStep flag. -/
def ptpTwoStep (bs : List Byte) : Bool := (byteAt bs (etherBody bs + 6)).getLsbD 1

/-- correctionField in 2^-16 ns. -/
def ptpCorr (bs : List Byte) : Int := (BitVec.ofNat 64 (beAt bs (etherBody bs + 8) 8)).toInt

/-- sequenceId. -/
def ptpSeq (bs : List Byte) : Nat := beAt bs (etherBody bs + 30) 2

/-- preciseOriginTimestamp of a Follow_Up in nanoseconds. -/
def ptpOrigin (bs : List Byte) : Nat := beAt bs (etherBody bs + 34) 6 * 1000000000 + beAt bs (etherBody bs + 40) 4

/-- The header that a unit sends: domain, flags, correction, its sourcePortIdentity on a port, sequenceId, interval. -/
def DieState.ptpHeader (d : DieState) (u p typ len : Nat) (corr : Int) (seq ctl interval : Nat) : List Byte :=
  [BitVec.ofNat 8 (16 + typ), 0x02] ++ beBytes 2 len ++ [BitVec.ofNat 8 (d.rd timPtpADomain 0 u), 0]
    ++ [if typ = 0 then 0x02 else 0x00, 0x08] ++ beBytes 8 ((corr % 2 ^ 64).toNat) ++ beBytes 4 0
    ++ leBytes 4 (d.rd timPtpClkidLo 0 u) ++ leBytes 4 (d.rd timPtpClkidHi 0 u) ++ beBytes 2 (p + 1) ++ beBytes 2 seq
    ++ [BitVec.ofNat 8 ctl, BitVec.ofNat 8 interval]

/-- A message of a unit as a frame of a port. -/
def DieState.ptpFrame (d : DieState) (p : Nat) (msg : List Byte) : List Byte :=
  [0x01, 0x80, 0xC2, 0x00, 0x00, 0x0E] ++ d.portMac p ++ [0x88, 0xF7] ++ msg

/-- The two-step Sync of a unit on a port. -/
def DieState.ptpSyncMsg (d : DieState) (u p seq interval : Nat) : List Byte :=
  d.ptpFrame p (d.ptpHeader u p 0 44 0 seq 0 interval ++ List.replicate 10 0)

/-- A Follow_Up: origin timestamp, and the Follow_Up information TLV with the cumulative rate offset and the fields after it. -/
def DieState.ptpFupMsg (d : DieState) (u p seq interval : Nat) (corr : Int) (origin : List Byte) (ratio : Nat) (tail : List Byte) :
    List Byte :=
  d.ptpFrame p (d.ptpHeader u p 8 76 corr seq 2 interval ++ origin
    ++ [0x00, 0x03, 0x00, 0x1C, 0x00, 0x80, 0xC2, 0x00, 0x00, 0x01] ++ beBytes 4 ratio ++ tail)

/-! ### Units -/

/-- The unit is in use. -/
def DieState.ptpEn (d : DieState) (u : Nat) : Bool := d.bit timPtpAEn 0 u

/-- MASTERS of a unit. -/
def DieState.ptpMasters (d : DieState) (u : Nat) : List Nat := (List.range 26).filter fun p => (d.rd timPtpMasters 0 u).testBit p

/-- The port is the unit's SLAVE port; a grandmaster has none. -/
def DieState.ptpSlave (d : DieState) (u p : Nat) : Bool := decide (d.rd timPtpARole 0 u ≠ 2) && decide (d.rd timPtpASlave 0 u = p)

/-- The unit that consumes a Sync or Follow_Up received on a port (R277). -/
def DieState.ptpConsumer (d : DieState) (p : Nat) (bs : List Byte) : Option Nat :=
  if isPtp bs && (ptpType bs = 0 || ptpType bs = 8) then
    (List.range 4).find? fun u =>
      d.ptpEn u && decide (d.rd timPtpADomain 0 u = ptpDomain bs) && (d.ptpSlave u p || (d.rd timPtpMasters 0 u).testBit p)
  else none

/-- A unit sends a frame on a port, in the traffic class of the port's untagged frames (DESIGN CHOICE, log 33). -/
def DieState.ptpSend (d : DieState) (u p : Nat) (bytes : List Byte) (isSync : Bool) : DieState :=
  let tc := d.rd ethPcp2tc p / 8 ^ d.rd ethRxdef p % 8
  d.sendMade p tc d.gen bytes 0 (if isSync then some (2, u) else none)

/-- A unit sends its Sync on every MASTERS port. -/
def DieState.ptpSyncs (d : DieState) (u seq interval : Nat) : DieState :=
  (d.ptpMasters u).foldl (fun d p => (d.ptpSend u p (d.ptpSyncMsg u p seq interval) true).cnt timPtpSyncTx 0 u)
    (d.onPtp u fun x => { x with tx := [], fup := none })

/-- TB_n_STAT.HOLD of every base: some unit on it is in HOLD (R280). -/
def DieState.ptpHoldFlags (d : DieState) : DieState :=
  (List.range 8).foldl (fun d n =>
    d.wr timTbStat (if (List.range 4).any fun u => d.bit timPtpHoldHold 0 u && decide (d.rd timPtpATb 0 u = n) then 1 else 0) 0 n) d

/-- rateRatio × a duration in 2^-16 ns: (1 + RATIO × 2^-41), truncated. -/
def DieState.ptpScale (d : DieState) (u : Nat) (x : Int) : Int :=
  x + x * timPtpRatio.int (d.rd timPtpRatio 0 u) / 2 ^ 41

/-- The relayed Follow_Up on a port whose Sync has left (R278). -/
def DieState.ptpRelay (d : DieState) (u p : Nat) (bs : List Byte) : DieState :=
  let x := d.ptpUnit u
  match Tab.get? x.tx p, x.sync with
  | some t, some (seq, rx) =>
    let residence := (t / 65536 - rx) * 65536
    let corr := ptpCorr bs + d.ptpScale u ((d.rd timPtpLinkdelay 0 u : Int) + residence)
    let b := etherBody bs
    let m := d.ptpFupMsg u p seq (byteAt bs (b + 33)).toNat corr ((bs.drop (b + 34)).take 10) (d.rd timPtpRatio 0 u)
      (padTo ((bs.drop (b + 58)).take 18) 18 0)
    (d.onPtp u fun x => { x with tx := Tab.erase x.tx p }).ptpSend u p m false
  | _, _ => d

/-- A Sync received (R278; R276: a one-step Sync is not relayed; R280: nothing is relayed in HOLD). -/
def DieState.ptpSync (d : DieState) (u p : Nat) (bs : List Byte) (rx : Int) : DieState :=
  let d1 := d.cnt timPtpSyncRx 0 u
  if !d.ptpSlave u p || !ptpTwoStep bs then d1
  else
    let relay := d.rd timPtpARole 0 u = 1
    let d2 := if relay ∧ (d.ptpUnit u).sync.isSome ∧ (d.ptpUnit u).fup.isNone then d1.cnt timPtpFupLate 0 u else d1
    let d3 := d2.onPtp u fun x => { x with sync := some (ptpSeq bs, rx), tx := [], fup := none }
    if relay ∧ !d.bit timPtpHoldHold 0 u then d3.ptpSyncs u (ptpSeq bs) (byteAt bs (etherBody bs + 33)).toNat else d3

/-- The difference that R280 checks, in 2^-16 ns. -/
def DieState.ptpDiff (d : DieState) (u : Nat) (bs : List Byte) (rx : Int) : Int :=
  (ptpOrigin bs : Int) * 65536 + ptpCorr bs + d.rd timPtpLinkdelay 0 u - rx * 65536

/-- A Follow_Up received on SLAVE (R278, R280). -/
def DieState.ptpFollowUp (d : DieState) (u p : Nat) (bs : List Byte) : DieState :=
  if !d.ptpSlave u p then d
  else
    match (d.ptpUnit u).sync with
    | none => d
    | some (seq, rx) =>
      if seq ≠ ptpSeq bs then d
      else
        let df := d.ptpDiff u bs rx
        let jump := d.rd timPtpJump 0 u
        if jump ≠ 0 ∧ (jump : Int) * 65536 < df.natAbs then
          let ns := max (-(2 ^ 31 - 1)) (min (2 ^ 31 - 1) (df.tdiv 65536))
          (((((d.onPtp u fun x => { x with sync := none, tx := [], fup := none }).wr timPtpHoldHold 1 0 u).cnt timPtpJumps 0 u).raise
            0x0A06 ((ns % 2 ^ 32).toNat) u).ptpHoldFlags)
        else if d.rd timPtpARole 0 u = 1 ∧ !d.bit timPtpHoldHold 0 u then
          let d1 := (d.ptpMasters u).foldl (fun d p => d.ptpRelay u p bs) (d.onPtp u fun x => { x with fup := some bs })
          d1
        else d.onPtp u fun x => { x with sync := none }

/-- The transmission of a unit's Sync has ended: a Follow_Up that waits for its stamp leaves. -/
def DieState.ptpSyncSent (d : DieState) (u p : Nat) : DieState :=
  match (d.ptpUnit u).fup with
  | some bs => d.ptpRelay u p bs
  | none => d

/-- The position of a unit's base at the receive stamp of a frame on a port. -/
def DieState.ptpRxPos (d : DieState) (u p stamp : Nat) : Int :=
  (d.position (d.rd timPtpATb 0 u) : Int) - stampDiff (d.stamp (d.rd ethTs p)) stamp

/-- A consumed message acts; true when it goes on to the host port (received on SLAVE). -/
def DieState.ptpConsume (d : DieState) (u p : Nat) (bs : List Byte) (stamp : Nat) : Bool × DieState :=
  (d.ptpSlave u p, if ptpType bs = 0 then d.ptpSync u p bs (d.ptpRxPos u p stamp) else d.ptpFollowUp u p bs)

/-- A consumed message reaches the host port. -/
def DieState.ptpDeliver (d : DieState) (p : Nat) (bs : List Byte) (stamp : Nat) : DieState :=
  let tc := d.rd ethPcp2tc p / 8 ^ d.rd ethRxdef p % 8
  let n := cellsOf bs.length
  let pool := d.rd ethRxcAPool p 0
  let a := d.takeIn p pool tc n 0
  if !a.1 then a.2.cnt ethCntRxDropPool p
  else
    let r := a.2.storeHeld { bytes := bs, port := p, pool := pool, ingress := p, cells := n, refs := 1, stamp := stamp,
                             rxPos := ((d.position (d.rd ethTs p) : Int) - stampDiff (d.stamp (d.rd ethTs p)) stamp).toNat,
                             tc := tc, tag := d.gen }
    (r.2.enqueueCopy r.1 26 tc).releaseFrame r.1

/-! ### The commands -/

/-- PTP_SYNC_RECEIVE (R277, R278): a Sync that a unit consumes. -/
def execPtpSyncReceive (d : Die) (p : Fin 26) (bytes : List Byte) (stamp : Word) (s : State) : Host.Outcome State Fault Refusal :=
  s.doOn d fun d =>
    match d.ptpConsumer p bytes with
    | some u =>
      if ptpType bytes = 0 ∧ d.hallOn .swc then
        let r := d.ptpConsume u p bytes stamp.toNat
        if r.1 then r.2.ptpDeliver p bytes stamp.toNat else r.2
      else d
    | none => d

/-- PTP_FOLLOWUP_RECEIVE (R278, R280): a Follow_Up that a unit consumes. -/
def execPtpFollowupReceive (d : Die) (p : Fin 26) (bytes : List Byte) (stamp : Word) (s : State) :
    Host.Outcome State Fault Refusal :=
  s.doOn d fun d =>
    match d.ptpConsumer p bytes with
    | some u =>
      if ptpType bytes = 8 ∧ d.hallOn .swc then
        let r := d.ptpConsume u p bytes stamp.toNat
        if r.1 then r.2.ptpDeliver p bytes stamp.toNat else r.2
      else d
    | none => d

/-- Nanoseconds of a unit's Sync interval, 2^LOGSYNC s. -/
def DieState.ptpInterval (d : DieState) (u : Nat) : Nat := 1000000000 / 2 ^ (-(timPtpALogsync.int (d.rd timPtpALogsync 0 u))).toNat

/-- PTP_GM_SYNC (R279): the base of a grandmaster has crossed a whole multiple of the interval. -/
def execPtpGmSync (d : Die) (u : Fin 4) (s : State) : Host.Outcome State Fault Refusal :=
  s.doOn d fun d =>
    let n := d.position (d.rd timPtpATb 0 u) / d.ptpInterval u
    let last := (d.ptpUnit u).lastGm
    if !d.hallOn .swc ∨ !d.ptpEn u ∨ d.rd timPtpARole 0 u ≠ 2 ∨ n = last then d
    else
      let d1 := d.onPtp u fun x => { x with lastGm := n }
      if n < last then d1
      else
        let seq := d.rd timPtpHoldSeq 0 u
        let interval := d.rd timPtpALogsync 0 u
        ((d1.onPtp u fun x => { x with gmSeq := some seq }).ptpSyncs u seq
          (if interval < 8 then interval else interval + 240)).cnt timPtpHoldSeq 0 u

/-- PTP_GM_FOLLOWUP (R279): a Follow_Up on each port whose Sync has its transmit stamp. -/
def execPtpGmFollowup (d : Die) (u : Fin 4) (s : State) : Host.Outcome State Fault Refusal :=
  s.doOn d fun d =>
    match (d.ptpUnit u).gmSeq with
    | none => d
    | some seq =>
      if !d.hallOn .swc then d
      else
        (d.ptpUnit u).tx.foldl (fun d e =>
          let ns := (e.2 / 65536).toNat
          let interval := d.rd timPtpALogsync 0 u
          let m := d.ptpFupMsg u e.1 seq (if interval < 8 then interval else interval + 240) (e.2 % 65536)
            (beBytes 6 (ns / 1000000000) ++ beBytes 4 (ns % 1000000000)) 0 (List.replicate 18 0)
          (d.onPtp u fun x => { x with tx := Tab.erase x.tx e.1 }).ptpSend u e.1 m false) d

/-- PTP_HOLD_CLEAR (R280): a write of HOLD. -/
def execPtpHoldClear (a : Acc) (u : Fin 4) (v : Word) (s : State) : Host.Outcome State Fault Refusal :=
  s.doOn a.die fun d => d.writeReg a.req 10 0 (0x614 + 0x40 * u) v fun d => d.ptpHoldFlags

end Sys2Proof.Machine
end

