-- ==== Sys2Proof/Machine/Eth.lean ====
section
/-! DEFINITION. Machine/Eth.lean: the Ethernet ports (chapter 7): reception and receive classes, MAC control, compatibility pause,
energy-efficient Ethernet, rate stepping, PLCA, TC10, links, the end of a transmission. -/

namespace Sys2Proof.Machine

/-! ### IEEE 1722 and Signal PDU frames (05 R133 to R137) -/

/-- The ACF messages of a payload (IEEE 1722-2016; PRESUMED, log 30), up to and with the first that cannot be followed by
another. -/
def acfParse (fuel : Nat) (bs : List Byte) : List AcfMsg :=
  match fuel with
  | 0 => []
  | k + 1 =>
    if bs.isEmpty then []
    else
      let typ := (byteAt bs 0).toNat / 2
      let quads := beAt bs 0 2 % 512
      let head := if typ = 1 then 16 else 8
      let b2 := (byteAt bs 2).toNat
      let at_ := if typ = 1 then 12 else 4
      let data := (bs.drop head).take (4 * quads - head - b2 / 64)
      let flags := (if b2.testBit 2 then 1 else 0) + if b2.testBit 0 then 2 else 0
      let m : AcfMsg :=
        { kind := typ, length := quads, busId := (byteAt bs 3).toNat % 32, beyond := decide (bs.length < 4 * quads),
          frame := { id := BitVec.ofNat 29 (beAt bs at_ 4), ide := b2.testBit 3, rtr := b2.testBit 4,
                     fmt := if b2.testBit 1 then .fd else .cc, flags := BitVec.ofNat 8 flags, dlc := data.length, sdt := 0, vcid := 0,
                     af := 0, data := data } }
      if quads = 0 ∨ bs.length < 4 * quads then [m] else m :: acfParse k (bs.drop (4 * quads))

/-- The 1722 frame that an Ethernet frame carries. -/
def parse1722 (bs : List Byte) : Ieee1722 :=
  let p := bs.drop (etherBody bs)
  let sub := byteAt p 0
  let ts := sub = 0x05
  let len := if ts then beAt p 20 2 else beAt p 1 2 % 2048
  let body := p.drop (if ts then 24 else 12)
  let pay := body.take len
  { subtype := sub, streamId := BitVec.ofNat 64 (beAt p 4 8), seqNum := byteAt p (if ts then 2 else 3),
    tooLong := decide (body.length < len), msgs := acfParse pay.length pay }

/-- An unfragmented IPv4 UDP datagram. -/
def isUdp (bs : List Byte) : Bool :=
  let p := bs.drop (etherBody bs)
  etherType bs = 0x0800 && decide ((byteAt p 0).toNat / 16 = 4) && decide (byteAt p 9 = 17) && decide (beAt p 6 2 % 16384 = 0)

/-- The Signal PDU of a datagram (Tables 5.9, 5.10). -/
def parsePdu (bs : List Byte) : SignalPdu :=
  let p := bs.drop (etherBody bs)
  let u := p.drop (4 * ((byteAt p 0).toNat % 16))
  let len := beAt u 4 2
  let pay := (u.drop 8).take (len - 8)
  let n := (byteAt pay 1).toNat
  { port := BitVec.ofNat 16 (beAt u 2 2), udpLen := len, version := (byteAt pay 0).toNat / 16, n := n, seq := BitVec.ofNat 16 (beAt pay 2 2),
    stamp := BitVec.ofNat 32 (beAt pay 4 4),
    records := (List.range (min n ((pay.length - 8) / 8))).map fun i =>
      let r := pay.drop (8 + 8 * i)
      { handle := BitVec.ofNat 16 (beAt r 0 2), status := byteAt r 2, typ := byteAt r 3 &&& 0x0F, value := BitVec.ofNat 32 (beAt r 4 4) } }

/-- A frame of a receive class with ACTION = ROUTES (R186). -/
def DieState.ethRoutes (d : DieState) (f : SFrame) : DieState :=
  if etherType f.bytes = 0x22F0 then (if d.hallOn .bus then d.ingress1722 f.ingress (parse1722 f.bytes) f.stamp f.origin else d)
  else if isUdp f.bytes then (if d.hallOn .bus then d.importPdu (parsePdu f.bytes) f.origin else d)
  else d.cnt ethCntRxDropClass f.ingress

/-! ### Receive classes (R184 to R186) -/

/-- Rule `k` matches a frame. -/
def DieState.ruleHit (d : DieState) (p : Nat) (bs : List Byte) (k : Nat) : Bool :=
  let tci := outerTci bs
  let prio := match tci with
    | some t => t / 8192
    | none => d.rd ethRxdef p
  let m := d.rd ethRxrAVidmask p k
  let em := d.rd ethRxrBEtmask p k
  let tagOk := match d.rd ethRxrATag p k with
    | 1 => tci.isNone
    | 2 => tci.isSome
    | _ => true
  let vidOk := match tci with
    | some t => decide (Nat.land (t % 4096) m = Nat.land (d.rd ethRxrAVid p k) m)
    | none => true
  d.bit ethRxrAEn p k && tagOk && vidOk && (d.rd ethRxrCPcpset p k).testBit prio
    && decide (Nat.land (etherType bs) em = Nat.land (d.rd ethRxrBEtype p k) em)

/-- The receive class of a frame. -/
def DieState.rxClass (d : DieState) (p : Nat) (bs : List Byte) : Nat :=
  match (List.range 16).find? fun k => d.ruleHit p bs k with
  | some k => d.rd ethRxrCClass p k
  | none => 0

/-- The traffic class that class `j` gives a frame. -/
def DieState.rxTc (d : DieState) (p j : Nat) (bs : List Byte) : Nat :=
  if d.bit ethRxcATcsrc p j then d.rd ethRxcATc p j
  else
    let prio := match outerTci bs with
      | some t => t / 8192
      | none => d.rd ethRxdef p
    d.rd ethPcp2tc p / 8 ^ prio % 8

/-! ### Compatibility pause (R188 to R190) -/

/-- Paused time of the running window so far. -/
def DieState.pausedNs (d : DieState) (p : Nat) : Nat :=
  let x := d.portOf p
  x.pauseSum + (min d.now x.pauseEnd - x.pauseFrom)

/-- The windows that have ended are left: a new one begins with the paused time that runs into it. -/
def DieState.pauseRoll (d : DieState) (p : Nat) : DieState :=
  let x := d.portOf p
  if x.winStart + 10000000 ≤ d.now then
    let w := x.winStart + (d.now - x.winStart) / 10000000 * 10000000
    d.onPort p fun x => { x with winStart := w, pauseSum := 0, pauseFrom := max x.pauseFrom w, winRaised := false }
  else d

/-- A received PAUSE. -/
def DieState.pauseReceive (d0 : DieState) (p quanta : Nat) : DieState :=
  let d := (d0.cnt ethCntPauseRx p).pauseRoll p
  if !d.bit ethPauseARxen p then d
  else
    let sum := d.pausedNs p
    if 1000 * d.rd ethPauseCLimit p ≤ sum then
      let d1 := d.cnt ethCntPauseIgnored p
      if (d.portOf p).winRaised then d1
      else (d1.onPort p fun x => { x with winRaised := true }).raise 0x0403 (sum / 1000) p
    else d.onPort p fun x => { x with pauseSum := sum, pauseFrom := d.now, pauseEnd := d.now + d.wireNs p (64 * quanta) }

/-! ### Rate stepping (R192 to R196) -/

/-- The opcode of a stepping frame as sent. -/
def stepBytes (mac : List Byte) (op target reason token dly : Nat) : List Byte :=
  [0x01, 0x80, 0xC2, 0x00, 0x00, 0x0E] ++ mac ++ [0x88, 0xB5, 0x53, 0x54, 0x01, BitVec.ofNat 8 op, BitVec.ofNat 8 target, BitVec.ofNat 8 reason]
    ++ beBytes 4 token ++ [BitVec.ofNat 8 dly] ++ List.replicate 35 0

/-- A port sends a stepping frame ahead of its other frames. -/
def DieState.stepSend (d : DieState) (p op target reason token dly : Nat) : DieState :=
  d.onPort p fun x => { x with ctl := stepBytes (d.portMac p) op target reason token dly :: x.ctl }

/-- The port runs the handshake. -/
def DieState.stepPort (d : DieState) (p : Nat) : Bool := decide (p < 2) && decide (d.rd ethModeKind p = 1) && d.bit ethLinkUp p

/-- No request is made (R192): a gate list, an armed release, or a handshake or hold-off in progress. -/
def DieState.stepBarred (d : DieState) (p : Nat) : Bool := d.gateOn p || d.releaseArmed p || decide (d.rd ethStepCState p ≠ 0)

/-- A request with a new TOKEN. -/
def DieState.stepRequest (d : DieState) (p target : Nat) : DieState :=
  let tok := ((d.portOf p).token + 1) % 2 ^ 32
  let dly := d.rd ethStepADly p
  ((d.onPort p fun x => { x with token := tok, target := target, reqAt := d.now, reqTries := 1, dly := dly }).wr ethStepCState 1 p).stepSend
    p 1 target 0 tok dly

/-- A step that the two sides have agreed on: no new frame starts, and the rate switches `dly` µs later. -/
def DieState.stepAgree (d : DieState) (p target dly : Nat) : DieState :=
  (d.onPort p fun x => { x with target := target, dly := dly, stopAt := d.now, switchAt := some (d.now + 1000 * dly) }).wr
    ethStepCState 2 p

/-- A step fails: counted and raised with its reason. -/
def DieState.stepFail (d : DieState) (p reason : Nat) : DieState := (d.cnt ethCntStepFail p).raise 0x0405 reason p

/-- A hold-off of 100 ms. -/
def DieState.stepHold (d : DieState) (p : Nat) : DieState :=
  (d.onPort p fun x => { x with holdoff := d.now + 100000000 }).wr ethStepCState 3 p

/-- TARGET is one of Table 7.2. -/
def stepTarget (t : Nat) : Bool := t = 0x0A || t = 0x19

/-- The answer to a REQ that meets no request of the port's own: a step up is always acknowledged; a step down only after DWELL
light windows with EN = 1 (R194). -/
def DieState.stepAnswer (d : DieState) (p target token dly : Nat) : DieState :=
  if target = 0x19 then (d.stepSend p 2 target 0 token dly).stepAgree p target dly
  else if !d.bit ethStepAEn p then d.stepSend p 3 target 2 token dly
  else if (d.portOf p).light < d.rd ethStepADwell p ∨ d.rd ethStepCState p = 2 then d.stepSend p 3 target 1 token dly
  else (d.stepSend p 2 target 0 token dly).stepAgree p target dly

/-- A REQ received (R194, R195). -/
def DieState.stepReq (d : DieState) (p target token dly : Nat) : DieState :=
  if !d.stepPort p then d
  else if !stepTarget target then d.cnt ethCntCtlOther p
  else if d.rd ethStepCState p = 1 then
    let x := d.portOf p
    if x.target = target then d.stepAgree p target (max x.dly dly)
    else if target = 0x19 then d.stepAnswer p target token dly
    else d
  else d.stepAnswer p target token dly

/-- An ACK received. -/
def DieState.stepAck (d : DieState) (p target token : Nat) : DieState :=
  if !d.stepPort p then d
  else if !stepTarget target then d.cnt ethCntCtlOther p
  else
    let x := d.portOf p
    if d.rd ethStepCState p = 1 ∧ x.token = token then d.stepAgree p x.target x.dly else d

/-- A NAK received: a hold-off of 100 ms. -/
def DieState.stepNak (d : DieState) (p target reason token : Nat) : DieState :=
  if !d.stepPort p then d
  else if !stepTarget target then d.cnt ethCntCtlOther p
  else if d.rd ethStepCState p = 1 ∧ (d.portOf p).token = token then (d.stepHold p).stepFail p (if reason = 1 then 2 else 3)
  else d

/-- A stepping frame received by a port that steps. -/
def DieState.stepFrame (d : DieState) (p : Nat) (bs : List Byte) : DieState :=
  let op := byteAt bs 17
  let target := (byteAt bs 18).toNat
  let token := beAt bs 20 4
  if byteAt bs 16 ≠ 1 then d.cnt ethCntCtlOther p
  else if op = 1 then d.stepReq p target token (byteAt bs 24).toNat
  else if op = 2 then d.stepAck p target token
  else if op = 3 then d.stepNak p target (byteAt bs 19).toNat token
  else d.cnt ethCntCtlOther p

/-! ### Reception (R182 to R188) -/

/-- A received frame that has passed the size and FCS checks counts in RX_OK and RX_BYTES, with its FCS. -/
def DieState.rxCount (d : DieState) (p len : Nat) : DieState :=
  let d1 := d.cnt ethCntRxOk p
  let n := d1.rd ethCntRxBytesLo p + len
  (d1.wr ethCntRxBytesLo n p).cnt ethCntRxBytesHi p 0 0 (n / 2 ^ 32)

/-- The port consumes MAC control frames (R188). -/
def DieState.macControl (d : DieState) (p : Nat) (bs : List Byte) : DieState :=
  if p ≤ 25 ∧ beAt bs (etherBody bs) 2 = 1 then d.pauseReceive p (beAt bs (etherBody bs + 2) 2) else d.cnt ethCntCtlOther p

/-- In Mirror mode a frame of the die's own ports for the routes: none left on a standby, replicated by the active die (12 R329). -/
def DieState.mirrorRoute (d : DieState) (f : SFrame) : Bool × DieState :=
  if d.pairMode ≠ 1 ∨ 25 < f.ingress then (true, d)
  else if d.role = 2 ∨ d.role = 4 then (false, d.cnt stwCntMirrorShadowed)
  else if d.role = 1 ∧ d.linkUp then (true, d.sendVc 3 (.replica false f))
  else (true, d)

/-- A frame of class `j` by its ACTION (R186, R187). -/
def DieState.rxAction (d : DieState) (p j : Nat) (f : SFrame) : DieState :=
  match d.rd ethRxcAAction p j with
  | 1 =>
    let m := d.mirrorRoute f
    if m.1 then m.2.ethRoutes f else m.2
  | 2 => d.cnt ethCntRxDropClass p
  | _ =>
    let a := d.takeIn p f.pool f.tc f.cells 0
    if !a.1 then a.2.cnt ethCntRxDropPool p
    else
      let r := a.2.storeHeld { f with refs := 1 }
      r.2.onPort p fun x => { x with rx := x.rx ++ [r.1] }

/-- A whole frame, its bytes before the FCS, after the FCS check (R184, R188; 11 R304; 10 R277; 17 R441). -/
def DieState.rxGood (d0 : DieState) (p : Nat) (bs : List Byte) (stamp pos origin : Nat) : DieState :=
  let len := bs.length + 4
  let d := d0.rxCount p len
  let drop := everyNth (d.rd prtPortCDropN 0 p) (d.portOf p).dropCnt
  let d1 := d.onPort p fun x => { x with dropCnt := drop.1 }
  if drop.2 then d1.cnt prtPortDInjDrop 0 p
  else if etherType bs = 0x8808 then d1.macControl p bs
  else
    let m := d1.secyRx p bs
    match m.1 with
    | .drop => m.2
    | .pass c valid =>
      if p < 2 ∧ d.bit ethStepAEn p ∧ isStepFrame c then m.2.stepFrame p c
      else
        let j := m.2.rxClass p c
        let d2 := m.2.cnt ethRxcB p j
        match (if p ≤ 25 then d2.ptpConsumer p c else none) with
        | some u =>
          let r := d2.ptpConsume u p c stamp
          if r.1 then r.2.ptpDeliver p c stamp else r.2
        | none =>
          d2.rxAction p j
            { bytes := c, port := p, pool := d2.rd ethRxcAPool p j, ingress := p, len := len, cells := cellsOf c.length, rxPos := pos,
              stamp := stamp, tc := d2.rxTc p j c, tag := d2.gen, origin := origin, macsec := valid }

/-- A frame that fails a check after byte 128 may have begun cut-through (08 R223, R224): it may when nothing of its port waits
before the lookup and the lookup places some copy by cut-through; that copy is then stomped. -/
def DieState.rxBad (d : DieState) (p : Nat) (bs : List Byte) (stamp pos : Nat) (cause : Fld) : DieState :=
  let dropped := d.cnt cause p
  if bs.length ≤ 128 ∨ 25 < p ∨ !d.sw.fifo.isEmpty ∨ !(d.portOf p).rx.isEmpty ∨ d.secyOn p ∨ etherType bs = 0x8808 then dropped
  else
    let j := d.rxClass p bs
    let n := cellsOf (min bs.length (d.rd ethMaxlen p))
    let tc := d.rxTc p j bs
    if d.rd ethRxcAAction p j ≠ 0 ∨ (d.ptpConsumer p bs).isSome then dropped
    else
      let a := (d.cnt ethRxcB p j).takeIn p (d.rd ethRxcAPool p j) tc n 0
      if !a.1 then dropped
      else
        let f : SFrame := { bytes := bs, port := p, pool := d.rd ethRxcAPool p j, ingress := p, len := bs.length + 4, cells := n, refs := 1,
                            rxPos := pos, stamp := stamp, tc := tc, tag := d.gen }
        let r := a.2.storeHeld f
        let x := r.2.lookup f
        match x.1 with
        | some l => if l.dest.any fun q => x.2.cuts l q then (x.2.forward r.1 l true).cnt cause p else dropped
        | none => dropped

/-- A frame arrives at a port (R182): the checks in their order, each frame counted by the first it fails. -/
def DieState.ethReceive (d0 : DieState) (p : Nat) (f : EthFrame) (stamp pos origin : Nat) : DieState :=
  let len := f.bytes.length + 4
  let fcs := everyNth (if d0.bit prtPortAFcsEg 0 p then 0 else d0.rd prtPortCFcsN 0 p) (d0.portOf p).fcsCnt
  let d1 := d0.onPort p fun x => { x with fcsCnt := fcs.1, rxBytes := x.rxBytes + len + 20 }
  let d := if fcs.2 then d1.cnt prtPortDInjFcs 0 p else d1
  let ok : Bool := f.fcsOk && !f.cut
  if 65536 ≤ d.sw.descUsed then ((d.cnt ethCntRxDropPool p).cnt swcDescDrop).raiseHeld 0x0501 0 1000000
  else if len < 64 then d.cnt ethCntRunt p
  else if d.rd ethMaxlen p < len then d.rxBad p f.bytes stamp pos ethCntOversize
  else if ok = fcs.2 then d.rxBad p f.bytes stamp pos ethCntFcsErr
  else d.rxGood p f.bytes stamp pos origin

/-- The receive stamp of a port from the stamp at its MII (R199): the constant of its mode and the board correction added. -/
def DieState.rxStamp (d : DieState) (p stamp : Nat) : Nat :=
  if 25 < p then stamp
  else (((stamp : Int) + (d.modeConst p).1 + ethLatLatRx.int (d.rd ethLatLatRx p)) % 2 ^ 32).toNat

/-- The whole position of a base whose 32-bit stamp was `stamp`, the one nearest to now. -/
def DieState.stampPos (d : DieState) (n stamp : Nat) : Nat :=
  (((d.position n : Int) + stampDiff stamp (d.stamp n)) % 2 ^ 64).toNat

/-- Reception on the die's own port: in Vote mode West replicates the frame to East (12 R334). -/
def DieState.ethIngress (d : DieState) (p : Nat) (f : EthFrame) (stamp : Nat) : DieState :=
  if !d.hallOn .swc || !d.portUp p || d.bit ethLinkAsleep p || d.fences.contains (fenceOf 4 p) then d
  else
    let st := d.rxStamp p stamp
    let pos := d.stampPos (d.rd ethTs p) st
    let o := if d.pairMode = 0 then (0, d) else d.newOrigin p 0
    let d1 := if d.pairMode = 2 ∧ d.die = .west ∧ p ≤ 25 ∧ o.2.linkUp then o.2.sendVc 3 (.ingress p f st pos o.1) else o.2
    d1.ethReceive p f st pos o.1

/-- ETH_FRAME_RECEIVE (R182). `stamp` is the port's time base at its MII. On P_28 the frame is the one that waits at the front of
the VC_3 landing, if one does (12 Table 12.1). -/
def execEthFrameReceive (d : Die) (p : Fin 29) (f : EthFrame) (stamp : Word) (s : State) : Host.Outcome State Fault Refusal :=
  s.doOn d fun d =>
    match p.val, d.stw.landing.get (3 : Fin 4) with
    | 28, .trunk g :: _ => (d.popLanding 3).ethIngress 28 g stamp.toNat
    | p, _ => d.ethIngress p f stamp.toNat

/-- PAUSE_EXPIRY (R190). -/
def execPauseExpiry (d : Die) (p : Fin 26) (s : State) : Host.Outcome State Fault Refusal :=
  s.doOn d fun d =>
    let x := d.portOf p
    if d.hallOn .swc ∧ x.pauseEnd ≠ 0 ∧ x.pauseEnd ≤ d.now then
      d.onPort p fun x => { x with pauseSum := d.pausedNs p, pauseFrom := d.now, pauseEnd := 0 }
    else d

/-- PAUSE_WINDOW_END (R190). -/
def execPauseWindowEnd (d : Die) (p : Fin 26) (s : State) : Host.Outcome State Fault Refusal :=
  s.doOn d fun d => if d.hallOn .swc then d.pauseRoll p else d

/-- PAUSE_REFRESH (R189). -/
def execPauseRefresh (d : Die) (p : Fin 26) (s : State) : Host.Outcome State Fault Refusal :=
  s.doOn d fun d =>
    if d.hallOn .swc ∧ d.bit ethPauseATxen p ∧ d.bit ethPauseDXoff p ∧ d.rd ethPauseBLow p < d.rd ethPauseBHigh p
        ∧ d.rd ethPauseBLow p ≤ d.ingressCells p ∧ (d.portOf p).xoffAt + 1000 * d.rd ethPauseCRefresh p ≤ d.now then
      (d.onPort p fun x => { x with xoffAt := d.now }).sendPause p (d.rd ethPauseAQuanta p)
    else d

/-! ### Links (R181, R204) -/

/-- The hall of a port's PHY or SerDes. -/
def portHall (p : Nat) : Hall := if p ≤ 5 then .ser else .phy

/-- A rate code fits the port's mode (Table 7.1). -/
def DieState.rateFits (d : DieState) (p rate : Nat) : Bool :=
  match d.rd ethModeKind p with
  | 1 => rate = 1
  | 2 => rate = 2
  | 3 => if d.rd ethModeUsxrate p = 0 then rate = 2 || rate = 3 || rate = 4 else rate = d.rd ethModeUsxrate p + 1
  | 4 => rate = 5
  | 5 => rate = 6
  | 6 => rate = 7
  | _ => false

/-- A link comes up. -/
def DieState.linkRise (d : DieState) (p rate : Nat) : DieState :=
  let d1 := (((((d.creditUpdate p).wr ethLinkUp 1 p).wr ethLinkRate rate p).wr ethLinkAsleep 0 p).wr ethStepCRate 1 p).wr ethStepCState 0 p
  ((d1.onPort p fun x => { x with idleSince := d.now, asleep := false, light := 0, txBytes := 0, rxBytes := 0, switchAt := none }).startVerify
    p).raise 0x0401 rate p

/-- ETH_LINK_UP: the port's hall is on and its mode gives the rate. P_26 to P_28 have no link of this kind (R180). -/
def execEthLinkUp (d : Die) (p : Fin 29) (rate : Fin 8) (s : State) : Host.Outcome State Fault Refusal :=
  s.doOn d fun d =>
    if p.val ≤ 25 ∧ d.hallOn .swc ∧ d.hallOn (portHall p) ∧ !d.bit ethLinkUp p ∧ d.rateFits p rate then d.linkRise p rate else d

/-- What a cut transmission held is given back: its key and its copy. -/
def DieState.dropTx (d : DieState) (t : Option TxCur) : DieState :=
  match t with
  | none => d
  | some cur =>
    let d1 := match cur.sak with
      | some (k, g) => d.releaseKey k g
      | none => d
    match cur.desc with
    | some n => d1.releaseFrame n
    | none => d1

/-- The queues of a port are flushed; the copies freed count in `cause`. -/
def DieState.flushQueues (d : DieState) (p : Nat) (cause : Fld) : DieState :=
  (List.range 8).foldl (fun d t =>
    (d.outQueue p t).foldl (fun d c => (d.releaseFrame c.desc).cnt cause p) (d.setQueue p t [])) d

/-- Copies queued on a port. -/
def DieState.queuedCopies (d : DieState) (p : Nat) : Nat := ((List.range 8).map fun t => (d.outQueue p t).length).foldl (· + ·) 0

/-- The transmissions of a port are cut. -/
def DieState.cutTx (d : DieState) (p : Nat) : DieState :=
  let x := d.portOf p
  (((d.creditUpdate p).dropTx x.tx).dropTx x.held).onPort p fun x => { x with tx := none, held := none, ctl := [] }

/-- A link goes down (R181); FLUSH_DOWN flushes what was learned on the port (09 R240). -/
def DieState.linkFall (d : DieState) (p : Nat) : DieState :=
  let n := d.queuedCopies p
  let d1 := (d.cutTx p).flushQueues p ethCntTxDropLink
  let d2 := (((((d1.wr ethLinkUp 0 p).wr ethLinkRate 0 p).wr ethLinkLpi 0 p).wr ethStepCRate 1 p).wr ethStepCState 0 p).wr swcPreStatVstate 0 0 p
  let d3 := d2.onPort p fun x => { x with pauseEnd := 0, switchAt := none, reverted := false, sleepWish := false }
  let d4 := if (d3.rd fwtFlushDown).testBit p then d3.flushPush (.flush (some p) none) else d3
  (d4.cnt ethCntLinkDown p).raise 0x0402 n p

/-- ETH_LINK_DOWN (R181). -/
def execEthLinkDown (d : Die) (p : Fin 29) (s : State) : Host.Outcome State Fault Refusal :=
  s.doOn d fun d => if p.val ≤ 25 ∧ d.hallOn .swc ∧ d.bit ethLinkUp p then d.linkFall p else d

/-- LPI_ENTER (R191). -/
def execLpiEnter (d : Die) (p : Fin 26) (s : State) : Host.Outcome State Fault Refusal :=
  s.doOn d fun d =>
    let x := d.portOf p
    let kind := d.rd ethModeKind p
    if d.hallOn .swc ∧ d.bit ethLpiEn p ∧ d.bit ethLinkUp p ∧ !d.bit ethLinkLpi p ∧ 1 ≤ kind ∧ kind ≤ 4 ∧ !d.gateOn p ∧ !d.releaseArmed p
        ∧ d.queuesEmpty p ∧ x.tx.isNone ∧ x.held.isNone ∧ x.ctl.isEmpty ∧ x.idleSince + 1000 * d.rd ethLpiIdle p ≤ d.now then
      (d.wr ethLinkLpi 1 p).cnt ethCntLpiEntries p
    else d

/-! ### The commands of rate stepping -/

/-- STEP_WINDOW_END (R192): the window is light when both directions stayed below LO percent of 10 Gbit/s. -/
def execStepWindowEnd (d : Die) (p : Fin 2) (s : State) : Host.Outcome State Fault Refusal :=
  s.doOn d fun d =>
    if !d.hallOn .swc ∨ !d.stepPort p ∨ !d.bit ethStepAEn p then d
    else
      let x := d.portOf p
      let lim := 100000 * d.rd ethStepALo p
      let light := if 8 * x.txBytes < lim ∧ 8 * x.rxBytes < lim then min 255 (x.light + 1) else 0
      let d1 := d.onPort p fun x => { x with light := light, txBytes := 0, rxBytes := 0 }
      if d.rd ethStepADwell p ≤ light ∧ d.bit ethStepCRate p ∧ !d.stepBarred p then d1.stepRequest p 0x0A else d1

/-- STEP_UP_TRIGGER (R192). -/
def execStepUpTrigger (d : Die) (p : Fin 2) (s : State) : Host.Outcome State Fault Refusal :=
  s.doOn d fun d =>
    if d.hallOn .swc ∧ d.stepPort p ∧ !d.bit ethStepCRate p ∧ !d.stepBarred p
        ∧ (d.rd ethStepB p ≤ d.portQueued p ∨ !d.bit ethStepAEn p) then d.stepRequest p 0x19
    else d

/-- STEP_REQ_RECEIVE (R194, R195). -/
def execStepReqReceive (d : Die) (p : Fin 2) (f : StepFrame) (s : State) : Host.Outcome State Fault Refusal :=
  s.doOn d fun d => if d.hallOn .swc then d.stepReq p f.target.toNat f.token.toNat f.dly else d

/-- STEP_ACK_RECEIVE (R194). -/
def execStepAckReceive (d : Die) (p : Fin 2) (f : StepFrame) (s : State) : Host.Outcome State Fault Refusal :=
  s.doOn d fun d => if d.hallOn .swc then d.stepAck p f.target.toNat f.token.toNat else d

/-- STEP_NAK_RECEIVE (R194). -/
def execStepNakReceive (d : Die) (p : Fin 2) (f : StepFrame) (s : State) : Host.Outcome State Fault Refusal :=
  s.doOn d fun d => if d.hallOn .swc then d.stepNak p f.target.toNat f.reason.toNat f.token.toNat else d

/-- A port takes a rate: 1 25.78125, 0 10.3125 Gbaud. -/
def DieState.stepRate (d : DieState) (p rate : Nat) : DieState :=
  ((d.creditUpdate p).wr ethStepCRate rate p).wr ethLinkRate (2 - rate) p

/-- STEP_SWITCH (R194): DLY µs after the agreement. -/
def execStepSwitch (d : Die) (p : Fin 2) (s : State) : Host.Outcome State Fault Refusal :=
  s.doOn d fun d =>
    let x := d.portOf p
    match x.switchAt with
    | some t =>
      if d.hallOn .swc ∧ d.rd ethStepCState p = 2 ∧ t ≤ d.now then
        (d.onPort p fun x => { x with former := d.rd ethStepCRate p, switchAt := none, reverted := false, reqAt := d.now }).stepRate p
          (if x.target = 0x19 then 1 else 0)
      else d
    | none => d

/-- STEP_LOCK (R194): frames resume; a lock after the return to the former rate ends the failed step (R196). -/
def execStepLock (d : Die) (p : Fin 2) (s : State) : Host.Outcome State Fault Refusal :=
  s.doOn d fun d =>
    let x := d.portOf p
    if d.hallOn .swc ∧ d.rd ethStepCState p = 2 ∧ x.switchAt.isNone then
      let gap := ceilDiv (d.now - x.stopAt) 1000
      let d1 := (d.wr ethStepCState (if d.now < x.holdoff then 3 else 0) p).peak ethStepCGapMax gap p
      let d2 := d1.onPort p fun x => { x with light := 0, txBytes := 0, rxBytes := 0 }
      if x.reverted then d2
      else (d2.cnt ethCntStepOk p).raise 0x0404 (d.rd ethStepCRate p + min gap 65535 * 65536) p
    else d

/-- STEP_REQ_TIMEOUT (R196). -/
def execStepReqTimeout (d : Die) (p : Fin 2) (s : State) : Host.Outcome State Fault Refusal :=
  s.doOn d fun d =>
    let x := d.portOf p
    if d.hallOn .swc ∧ d.rd ethStepCState p = 1 ∧ x.reqAt + 1000000 ≤ d.now then
      if x.reqTries < 3 then
        (d.onPort p fun x => { x with reqAt := d.now, reqTries := x.reqTries + 1 }).stepSend p 1 x.target 0 x.token x.dly
      else (d.stepHold p).stepFail p 1
    else d

/-- STEP_LOCK_TIMEOUT (R196). -/
def execStepLockTimeout (d : Die) (p : Fin 2) (s : State) : Host.Outcome State Fault Refusal :=
  s.doOn d fun d =>
    let x := d.portOf p
    if d.hallOn .swc ∧ d.rd ethStepCState p = 2 ∧ x.switchAt.isNone ∧ x.reqAt + 1000000 ≤ d.now then
      if x.reverted then (d.linkFall p).stepFail p 5
      else ((d.onPort p fun x => { x with reverted := true, reqAt := d.now }).stepRate p x.former).stepFail p 4
    else d

/-- STEP_HOLDOFF_END (R196). -/
def execStepHoldoffEnd (d : Die) (p : Fin 2) (s : State) : Host.Outcome State Fault Refusal :=
  s.doOn d fun d =>
    if d.hallOn .swc ∧ d.rd ethStepCState p = 3 ∧ (d.portOf p).holdoff ≤ d.now then d.wr ethStepCState 0 p else d

/-! ### PLCA (R197; 17 R435) -/

/-- The port runs PLCA. -/
def DieState.plcaOn (d : DieState) (p : Nat) : Bool := decide (d.rd ethModeKind p = 6) && d.bit ethPlcaAEn p && d.hallOn .phy

/-- PLCA_CONFLICT_DETECT: four detections within 50 ms make the coordinator yield for 500 ms. -/
def execPlcaConflictDetect (d : Die) (p : Fin 26) (s : State) : Host.Outcome State Fault Refusal :=
  s.doOn d fun d =>
    if d.plcaOn p ∧ d.rd ethPlcaAId p = 0 ∧ (d.portOf p).yield.isNone then
      let ts := d.now :: (Tab.get [] d.guard.beacons p).filter fun t => decide (d.now < t + 50000000)
      let put (d : DieState) (l : List Nat) : DieState := { d with guard := { d.guard with beacons := Tab.put [] d.guard.beacons p l } }
      let d1 := (d.cnt ethCntPlcaConflict p).raise 0x0406 0 p
      if 4 ≤ ts.length then
        (((put d1 []).onPort p fun x => { x with yield := some (d.now + 500000000) }).wr ethPlcaC 0 p).cnt prtVcntPlcaYield
      else put d1 ts
    else d

/-- PLCA_YIELD_END: coordination resumes. -/
def execPlcaYieldEnd (d : Die) (p : Fin 26) (s : State) : Host.Outcome State Fault Refusal :=
  s.doOn d fun d =>
    match (d.portOf p).yield with
    | some t => if d.plcaOn p ∧ t ≤ d.now then (d.onPort p fun x => { x with yield := none }).wr ethPlcaC 1 p else d
    | none => d

/-- PLCA_STATUS_CHANGE: PLCA or CSMA/CD from here on. -/
def execPlcaStatusChange (d : Die) (p : Fin 26) (active : Bool) (s : State) : Host.Outcome State Fault Refusal :=
  s.doOn d fun d =>
    if d.plcaOn p ∧ ((d.portOf p).yield.isNone ∨ !active) then d.wr ethPlcaC (if active then 1 else 0) p else d

/-! ### TC10 (R198) -/

/-- The port has TC10. -/
def DieState.tc10Port (d : DieState) (p : Nat) : Bool := d.rd ethModeKind p = 4 || d.rd ethModeKind p = 5

/-- Nothing waits on the egress of the port. -/
def DieState.egressIdle (d : DieState) (p : Nat) : Bool :=
  d.queuesEmpty p && (d.portOf p).tx.isNone && (d.portOf p).held.isNone && (d.portOf p).ctl.isEmpty

/-- The link sleeps; no LINK_DOWN is raised (DEDUCED, log 34). -/
def DieState.portSleep (d : DieState) (p : Nat) : DieState :=
  ((((d.onPort p fun x => { x with asleep := true, sleepWish := false }).wr ethLinkAsleep 1 p).wr ethLinkUp 0 p).wr ethLinkRate 0 p).raise
    0x0408 0 p

/-- A port that slept trains as at start. -/
def DieState.portRouse (d : DieState) (p : Nat) : DieState := (d.onPort p fun x => { x with asleep := false }).wr ethLinkAsleep 0 p

/-- A wake-up pulse on a port. -/
def DieState.sendWup (d : DieState) (p : Nat) : DieState :=
  if d.tc10Port p then (d.onPort p fun x => { x with wupSent := x.wupSent + 1 }).portRouse p else d

/-- The action of a write of ETH.TC10. -/
def DieState.tc10Act (d : DieState) (p : Nat) (v : Word) : DieState :=
  let d1 := if v.getLsbD 0 ∧ d.tc10Port p ∧ d.bit ethLinkUp p then d.onPort p fun x => { x with sleepWish := true } else d
  if v.getLsbD 1 then d1.sendWup p else d1

/-- TC10_SLEEP_REQUEST: a write of ETH.TC10. -/
def execTc10SleepRequest (a : Acc) (p : Fin 26) (v : Word) (s : State) : Host.Outcome State Fault Refusal :=
  s.doOn a.die fun d => d.writeReg a.req 4 p 0x3D0 v fun d => d.tc10Act p v

/-- TC10_PARTNER_SLEEP: accepted with ACCEPT = 1 and empty egress queues, else rejected. -/
def execTc10PartnerSleep (d : Die) (p : Fin 26) (s : State) : Host.Outcome State Fault Refusal :=
  s.doOn d fun d =>
    if d.hallOn .phy ∧ d.hallOn .swc ∧ d.tc10Port p ∧ d.bit ethLinkUp p ∧ d.bit ethTc10Accept p ∧ d.egressIdle p then d.portSleep p else d

/-- TC10_SLEEP_ACK: the request was sent when the egress queues were empty. -/
def execTc10SleepAck (d : Die) (p : Fin 26) (s : State) : Host.Outcome State Fault Refusal :=
  s.doOn d fun d =>
    if d.hallOn .phy ∧ d.hallOn .swc ∧ d.tc10Port p ∧ d.bit ethLinkUp p ∧ (d.portOf p).sleepWish ∧ d.egressIdle p then d.portSleep p else d

/-- TC10_WAKE: the wake detector lies in the AON hall. -/
def execTc10Wake (d : Die) (p : Fin 26) (s : State) : Host.Outcome State Fault Refusal :=
  s.doOn d fun d =>
    if (d.portOf p).asleep ∧ d.bit ethTc10WakeEn p then
      let d1 := ((d.portRouse p).wr ethWake (Nat.lor (d.rd ethWake) (2 ^ p.val))).raise 0x0407 0 p
      (((List.range 26).filter fun q => (d.rd ethTc10Fwd p).testBit q).foldl (fun d q => d.sendWup q) d1).wakeDie 2
    else d

/-- TC10_WUP: a write of ETH.TC10. -/
def execTc10Wup (a : Acc) (p : Fin 26) (v : Word) (s : State) : Host.Outcome State Fault Refusal :=
  s.doOn a.die fun d => d.writeReg a.req 4 p 0x3D0 v fun d => d.tc10Act p v

/-! ### The end of a transmission (R201, R202; 08 R213, R224) -/

/-- The timestamp entry of Table 7.5. -/
def DieState.tsEntry (d : DieState) (p : Nat) (t : TxCur) (f : SFrame) (txid : Nat) (stomped : Bool) : List Word :=
  let bs := d.egressBytes f p
  let ptp := isPtp bs
  let sec := t.pos / 1000000000
  [BitVec.ofNat 32 (txid + t.key * 65536), BitVec.ofNat 32 (t.pos % 1000000000), BitVec.ofNat 32 sec,
   BitVec.ofNat 32 (sec / 2 ^ 32 % 65536 + (if ptp then ptpType bs * 65536 else 0) + t.src * 2 ^ 20 + (if ptp then 2 ^ 24 else 0)
     + (if stomped then 2 ^ 25 else 0) + d.rd ethTs p * 2 ^ 28)]

/-- A stamp is written to the port's queue block, or discarded at a full one (R202). -/
def DieState.tsWrite (d : DieState) (p : Nat) (t : TxCur) (f : SFrame) (txid : Nat) (stomped : Bool) : DieState :=
  let n := d.rd ethTsqQb p
  let lost (d : DieState) : DieState := (d.cnt ethCntTsOvf p).raiseHeld 0x0409 p 1000000 txid p
  if !d.bit ethTsqEn p then lost d
  else if 64 ≤ d.qbHeld n ∨ !d.qbRoom n 4 ∨ !d.hallOn .host then lost d
  else (d.qbWrite n (d.tsEntry p t f txid stomped)).2

/-- A transmission that MACsec stomps (08 R224; 11 R303, R305): TX_STOMPED of its port, and RX_STOMPED of the frame's ingress
unless another copy of it is stomped already. -/
def DieState.stompCount (d : DieState) (p : Nat) (t : TxCur) : DieState :=
  let d1 := d.cnt ethCntTxStomped p
  match t.desc.bind d.frameOf with
  | some f =>
    if (List.range 29).any fun q => decide (q ≠ p) && (d.portOf q).tx.any fun u => decide (u.desc = t.desc) && u.stomped then d1
    else d1.cnt ethCntRxStomped f.ingress
  | none => d1

/-- Bytes sent count in TX_OK and TX_BYTES. -/
def DieState.txCount (d : DieState) (p len : Nat) : DieState :=
  let d1 := d.cnt ethCntTxOk p
  let n := d1.rd ethCntTxBytesLo p + len
  (d1.wr ethCntTxBytesLo n p).cnt ethCntTxBytesHi p 0 0 (n / 2 ^ 32)

/-- A copy has left: its counters, stamp, key and storage; what P_28 sends goes over the Stairwell in Split mode. -/
def DieState.txFinish (d : DieState) (p : Nat) (t : TxCur) (n : Nat) (f : SFrame) : DieState :=
  let gone := match t.sak with
    | some (k, g) => !d.keyHeld k g
    | none => false
  let stomped := t.stomped || gone
  let d0 := if gone && !t.stomped then d.stompCount p t else d
  let d1 := if stomped then d0 else (d0.txCount p (t.bytes.length + 4)).cnt swcQcntA 0 p t.tc
  let d2 := match t.txid with
    | some x => d1.tsWrite p t f x stomped
    | none => d1
  let d3 := match f.tsReq with
    | some (2, u) => if p ≤ 25 then d2.ptpSyncSent u p else d2
    | _ => d2
  let d4 := match t.sak with
    | some (k, g) => d3.releaseKey k g
    | none => d3
  let d5 := if p = 28 ∧ d4.pairMode = 0 ∧ d4.linkUp then
      d4.sendVc 3 (.trunk { bytes := t.bytes, fcsOk := !stomped && !t.badFcs, cut := false })
    else d4
  d5.releaseFrame n

/-- ETH_TX_END (R201). -/
def execEthTxEnd (d : Die) (p : Fin 29) (s : State) : Host.Outcome State Fault Refusal :=
  s.doOn d fun d =>
    match (d.portOf p).tx with
    | none => d
    | some t =>
      if !d.hallOn .swc then d
      else
        let d1 := (d.creditUpdate p).onPort p fun x =>
          { x with tx := none, idleSince := d.now, txBytes := x.txBytes + t.bytes.length + 24 }
        match t.desc.bind fun n => (d1.frameOf n).map fun f => (n, f) with
        | some (n, f) => d1.txFinish p t n f
        | none => d1.dropTx (some { t with desc := none })

end Sys2Proof.Machine
end

