-- ==== Sys2Proof/Machine/NwLink.lean ====
section
/-! DEFINITION. Machine/NwLink.lean: the die's end of its Newel link (14 R369 to R371): commands queue, wait for their answers
and stall; and register words as the register file shows them. -/

namespace Sys2Proof.Machine

/-- CTRL codes (14 Table 14.2). -/
inductive NlCtrl where
  | wdArm
  | slExit
  | ownerSet
  | pairPrep
  | switch
  | resync
  | eeRead
  | eeWrite
  | pwrRetry
  deriving DecidableEq, Repr

/-- The code of a CTRL. -/
def NlCtrl.code (c : NlCtrl) : Nat :=
  match c with
  | .wdArm => 1
  | .slExit => 2
  | .ownerSet => 3
  | .pairPrep => 4
  | .switch => 5
  | .resync => 6
  | .eeRead => 7
  | .eeWrite => 8
  | .pwrRetry => 9

/-- The ARG of a CTRL that carries a value: the spec names the codes only; the value stands above the code (DESIGN CHOICE,
log 39). -/
def NlCtrl.arg (c : NlCtrl) (v : Nat) : Nat := c.code + 16 * v

/-- The command takes the next SEQ and is sent (R369). -/
def DieState.nlEmit (d : DieState) (c : NlCmd) : DieState :=
  let n := d.nl
  { d with nl := { n with sent := n.sent ++ [{ c with seq := n.next, at_ := d.now }], next := (n.next + 1) % 16 } }

/-- A command for the Newel (R369, R371): sent, or stalled behind eight unanswered ones, or counted in LINK_DROP while the
link is down. -/
def DieState.nlSend (d : DieState) (op arg : Nat) (data : List Byte := []) : DieState :=
  if !d.bit nwlLinkUp then d.cnt nwlCntLinkDrop
  else if d.nl.sent.length < 8 ∧ d.nl.stalled.isEmpty then d.nlEmit { op := op, arg := arg, data := data }
  else { d with nl := { d.nl with stalled := d.nl.stalled ++ [{ op := op, arg := arg, data := data }] } }

/-- A CTRL command. -/
def DieState.nlCtrl (d : DieState) (c : NlCtrl) (v : Nat := 0) (data : List Byte := []) : DieState := d.nlSend 9 (c.arg v) data

/-- A register word of a register file. -/
def wordOf (regs : Tab Nat) (blk ch off : Nat) : Nat :=
  (fieldsAt blk off).foldl (fun a p => a + Tab.get p.1.reset regs (p.1.key ch p.2.1 p.2.2) * 2 ^ p.1.lo) 0

/-- Sends the halves of a configuration register that changed: the Newel words at o/2 and o/2 + 1 (R375, R394). -/
def DieState.nlWord (d : DieState) (old : Tab Nat) (off : Nat) : DieState :=
  let v := wordOf d.regs 16 0 off
  let o := wordOf old 16 0 off
  let d1 := if v % 65536 = o % 65536 then d else (d.nlSend 1 (off / 2)).nlSend 2 (v % 65536)
  if v / 65536 = o / 65536 then d1 else (d1.nlSend 1 (off / 2 + 1)).nlSend 2 (v / 65536)

/-- A commit that changed configuration words of the Newel sends them and then APPLY; PENDING reads 1 until APPLY is answered
(R375). -/
def DieState.nlConfig (d : DieState) (old : Tab Nat) (offs : List Nat) : DieState :=
  if offs.isEmpty then d
  else
    let d1 := (offs.foldl (fun d o => d.nlWord old o) d).nlSend 8 0
    if d.bit nwlLinkUp then d1.wr nwlLinkPending 1 else d1

end Sys2Proof.Machine
end

