-- ==== Sys2Proof/Machine/Commit.lean ====
section
/-! DEFINITION. Machine/Commit.lean: the commit machine (02 R48 to R52, Tables 2.11 to 2.13): GO, validation, the commit
instant and what each block does at it, the drain. -/

namespace Sys2Proof.Machine

/-! ### The staged set -/

/-- The field that a register-file key stands for. -/
def fieldOfKey (k : Nat) : Option Fld := (blockFields (keyBlk k)).find? fun f => decide (f.lo = k % 32) && (f.at? (keyOff k)).isSome

/-- The array indices of a key in its field. -/
def indexOfKey (f : Fld) (k : Nat) : Nat × Nat := (f.at? (keyOff k)).getD (0, 0)

/-- Staged values over active ones. -/
def mergeStaged (regs staged : Tab Nat) : Tab Nat :=
  staged.foldl (fun r e => match fieldOfKey e.1 with
    | some f => Tab.put f.reset r e.1 e.2
    | none => r) regs

/-- The die as the whole staged set would make it: what validation judges (R50). -/
def DieState.future (d : DieState) : DieState := { d with regs := mergeStaged d.regs d.staged }

/-- Channel, indices and value of every listed instance of a field. -/
def DieState.listed (d : DieState) (f : Fld) : List (Nat × Nat × Nat × Nat) :=
  d.regs.filterMap fun e =>
    if keyBlk e.1 = f.blk ∧ e.1 % 32 = f.lo then (f.at? (keyOff e.1)).map fun p => (keyChan e.1, p.1, p.2, e.2) else none

/-- The least of a list. -/
def least (l : List Nat) : Option Nat :=
  match l with
  | [] => none
  | a :: r => some (r.foldl min a)

/-! ### The checks of Table 2.13: DETAIL when a rule fails. `d` is the die, `f` its future. -/

/-- PAIR_MODE (R52, 12 R327). -/
def DieState.checkPair (d f : DieState) : Option Nat :=
  if f.pairMode ≠ d.pairMode ∧ (d.cm.mode ≠ 1 ∨ !d.bit stwPairStatArmed) then some d.pairMode
  else if d.pairMode ≠ 0 ∧ d.cm.mode ≠ 1 then some d.pairMode
  else none

/-- CUE_IDLE: judged by the active cue list (R50). -/
def DieState.checkCue (d : DieState) : Option Nat :=
  if d.cm.mode = 1 ∧ (Tab.get? d.tim.next d.cm.cue).isNone then some d.cm.cue else none

/-- PIN_CONFLICT: pads G10 to G12 (18 R449, R450). -/
def DieState.checkPins (f : DieState) : Option Nat :=
  if f.bit timPhCfgEn 0 3 then
    (least (((f.setIdx timCueAEn).filter fun n => decide (f.rd timCueAAction 0 n = 6) && decide (5 ≤ f.rd timCueAArg 0 n % 8)).map
      fun n => f.rd timCueAArg 0 n % 8)).map fun k => (if f.die = .west then 0 else 0x8000) + 0x600 + k + 5
  else none

/-- The bit time of a phase in CAN clocks (06 R146). -/
def DieState.bitClocks (f : DieState) (brp t1 t2 : Fld) (ch : Nat) : Nat := (f.rd brp ch + 1) * (3 + f.rd t1 ch + f.rd t2 ch)

/-- The channel runs on a Newel transceiver (06 Table 6.1). -/
def DieState.canOnNewel (f : DieState) (ch : Nat) : Bool := if f.pairMode = 0 then decide (ch < 12) else decide (ch < 24)

/-- XCVR_MODE (06 R145). Every LIN channel has a binding in every pairing mode (R172). -/
def DieState.checkXcvr (f : DieState) : Option Nat :=
  least (((f.listed canCtrlEn).map Prod.fst).filter fun ch =>
    let op := f.rd canCtrlOpmode ch
    let fast := f.bit canCtrlXlfast ch
    let xl := f.bitClocks canXbtBrp canXbtTseg1 canXbtTseg2 ch
    decide (f.bitClocks canNbtBrp canNbtTseg1 canNbtTseg2 ch < 160)
      || (decide (1 ≤ op) && decide (f.bitClocks canDbtBrp canDbtTseg1 canDbtTseg2 ch < 16))
      || (decide (op = 2) && decide (xl < if fast then 8 else 16))
      || (fast && f.canOnNewel ch))

/-- Engine timers that two clusters own, and the first timer past a range's end (03 R73). -/
def DieState.timerClash (f : DieState) : List Nat :=
  let b := fun c => f.rd fkeEtRangeBase c
  let e := fun c => f.rd fkeEtRangeBase c + f.rd fkeEtRangeCount c
  ((List.range 4).flatMap fun c => if 256 < e c then [256] else []) ++
  ((List.range 4).flatMap fun c => (List.range c).flatMap fun k => if max (b c) (b k) < min (e c) (e k) then [max (b c) (b k)] else [])

/-- PWM timers claimed with two frequencies (14 R376). -/
def DieState.pwmClash (f : DieState) : List Nat :=
  let ns := (f.setIdx nwlChAEn).filter fun n => f.bit nwlChAMode 0 n
  ns.flatMap fun n => (ns.filter fun m =>
    decide (f.rd nwlChAPwt 0 m = f.rd nwlChAPwt 0 n) && decide (f.rd nwlChAFreq 0 m ≠ f.rd nwlChAFreq 0 n)).map fun m => f.rd nwlChAPwt 0 m

/-- TIMER_CONFLICT. -/
def DieState.checkTimers (f : DieState) : Option Nat := least (f.timerClash ++ f.pwmClash)

/-- The bases that settings name where a clock is required. -/
def DieState.clockNames (f : DieState) : List Nat :=
  ((f.setIdx brgTkAValid).map fun t => f.rd brgTkATb 0 t)
    ++ ((f.listed canTmAEn).map fun e => f.rd canTmBTb e.1)
    ++ ((List.range 29).map fun p => f.rd ethTs p)
    ++ [f.rd fwtLearn, f.rd timPpsCtlTb]
    ++ ((List.range 4).map fun k => f.rd timPhMsgReftb 0 k)
    ++ ((List.range 4).map fun u => f.rd timPtpATb 0 u)

/-- TB_KIND. -/
def DieState.checkBases (f : DieState) : Option Nat := least (f.clockNames.filter fun n => f.isAngle n)

/-- BUFFER_OVER: the pool at which the sum of reserved parts passes 98,304 (08 R209). -/
def DieState.checkPools (f : DieState) : Option Nat :=
  (List.range 4).find? fun q => decide (98304 < ((List.range (q + 1)).map fun k => f.rd swcPoolARsv 0 k).foldl (· + ·) 0)

/-- QUEUE_OVER (13 R349). -/
def DieState.checkQueues (f : DieState) : Option Nat :=
  let ns := (f.listed qbkCfgAEn).map Prod.fst
  let lo := fun n => f.rd qbkCfgABase n
  let hi := fun n => f.rd qbkCfgABase n + f.qbSize n
  least (ns.filter fun n => decide (lo n % f.qbSize n ≠ 0) || decide (131072 < hi n)
    || ns.any fun m => decide (m ≠ n) && decide (max (lo n) (lo m) < min (hi n) (hi m)))

/-- HANDLE_OVERLAP (05 R127). -/
def DieState.checkWindows (f : DieState) : Option Nat :=
  let ns := f.setIdx brgWinBCount
  let lo := fun n => f.rd brgWinABase 0 n
  let hi := fun n => f.rd brgWinABase 0 n + f.rd brgWinBCount 0 n
  least (ns.filter fun n => decide (65536 < hi n) || ns.any fun m => decide (n < m) && decide (max (lo n) (lo m) < min (hi n) (hi m)))

/-- Lowest port, highest port and highest FEC code of a KIND (07 Table 7.1), with the top rate in kbit/s. -/
def kindRow (k : Nat) : Option (Nat × Nat × Nat × Nat) :=
  match k with
  | 1 => some (0, 1, 2, 25000000)
  | 2 => some (0, 1, 1, 10000000)
  | 3 => some (2, 5, 0, 10000000)
  | 4 => some (6, 13, 0, 1000000)
  | 5 => some (6, 21, 0, 100000)
  | 6 => some (22, 25, 0, 10000)
  | _ => none

/-- The idleSlopes that a port's shapers ask for. -/
def DieState.slopes (f : DieState) (p : Nat) : Nat :=
  ((List.range 8).map fun t => if f.bit swcQcBCbsen 0 p t then f.rd swcQcBIdleslope 0 p t else 0).foldl (· + ·) 0

/-- Register-file keys of a gate-list bank: its configuration and its entries. -/
def bankKey (p b k : Nat) : Bool :=
  keyBlk k = 5 && ((decide (0x1020 + 0x100 * p + 16 * b ≤ keyOff k) && decide (keyOff k < 0x1030 + 0x100 * p + 16 * b))
    || (decide (0x40000 + 0x800 * (2 * p + b) ≤ keyOff k) && decide (keyOff k < 0x40800 + 0x800 * (2 * p + b))))

/-- The applied keys change what the port's running list is: GC_A, or the running bank (08 R218). -/
def DieState.gateTouched (d : DieState) (p : Nat) (ks : List Nat) : Bool :=
  ks.any fun k => (keyBlk k = 5 && keyOff k = 0x1010 + 0x100 * p) || bankKey p (d.gateBank p) k

/-- The settings of a port that PORT_MODE refuses. -/
def DieState.portBad (d f : DieState) (p : Nat) : Bool :=
  let k := f.rd ethModeKind p
  let row := kindRow k
  let kindBad : Bool := decide (p ≤ 25) && match row with
    | some (lo, hi, fec, _) => decide (p < lo) || decide (hi < p) || decide (fec < f.rd ethModeFec p)
    | none => decide (k ≠ 0)
  let rate := if p ≤ 25 then row.map fun r => r.2.2.2 else some (1000 * f.portMbps p)
  let slopeBad : Bool := match rate with
    | some r => decide (r < f.slopes p)
    | none => false
  let zero : Bool := (List.range 8).any fun t => f.bit swcQcBCbsen 0 p t && decide (f.rd swcQcBIdleslope 0 p t = 0)
  let b := if d.gateTouched p (d.staged.map Prod.fst) then f.rd swcGcAStart 0 p else d.gateBank p
  let gateBad : Bool := f.gateOn p && (decide (f.rd swcGcbALen 0 p b = 0) || decide (f.gateCycle p b = 0))
  let opBad : Bool := decide (13 < p) && (f.listed swcGclAOp).any fun e =>
    decide (e.2.1 / 2 = p) && (decide (e.2.2.2 = 1) || decide (e.2.2.2 = 2))
  let penBad : Bool := decide (13 < p) && f.bit swcPrePen 0 p
  let trunkBad : Bool := decide (p = 28) && decide (f.pairMode ≠ 0) && ((f.rd fwtFloodUc).testBit 28 || (f.rd fwtFloodMc).testBit 28)
  let voteBad : Bool := decide (f.pairMode = 2) && decide (f.die = .east) && decide (p ≤ 25) && decide (k ≠ 0)
  kindBad || slopeBad || zero || gateBad || opBad || penBad || trunkBad || voteBad

/-- Flash regions that overlap, or that are named while the unit is off (11 R308). -/
def DieState.xtsBad (f : DieState) : Option Nat :=
  let ns := (List.range 4).filter fun r => decide (f.rd cipXrLimit 0 r ≠ 0)
  least (ns.filter fun r => !f.bit cipXtsEn || ns.any fun q => decide (q ≠ r)
    && decide (max (f.rd cipXrBase 0 r) (f.rd cipXrBase 0 q) < min (f.rd cipXrLimit 0 r) (f.rd cipXrLimit 0 q)))

/-- PORT_MODE. -/
def DieState.checkPorts (d f : DieState) : Option Nat :=
  match (List.range 29).find? fun p => d.portBad f p with
  | some p => some p
  | none => f.xtsBad.map fun r => 0x100 + r

/-- The handler-table entries that enabled event sources name (03 R59), as cluster × 256 + entry. -/
def DieState.sources (f : DieState) : List Nat :=
  let ce := fun (c e : Nat) => 256 * c + e
  ((f.setIdx swcP27MapEn).map fun i => ce (f.rd swcP27MapCluster 0 i) (f.rd swcP27MapEntry 0 i))
    ++ ((f.listed canFltCEn).filterMap fun e =>
        if (f.rd canFltCDest e.1 e.2.1).testBit 4 then some (ce (f.rd canFltCCluster e.1 e.2.1) (f.rd canFltCEntry e.1 e.2.1)) else none)
    ++ ((f.listed linIdcfgDest).filterMap fun e =>
        if e.2.2.2.testBit 3 then some (ce (f.rd linIdcfgCluster e.1 e.2.1) (f.rd linIdcfgEntry e.1 e.2.1)) else none)
    ++ ((f.setIdx galGwAEn).map fun n => ce (f.rd galGwACluster 0 n) (f.rd galGwAEntry 0 n))
    ++ ((f.setIdx timCueAEn).filterMap fun n =>
        if f.rd timCueAAction 0 n = 1 then some (ce (f.rd timCueAArg 0 n % 4) (f.rd timCueAArg 0 n / 4 % 256)) else none)
    ++ ((f.listed qbkCfgAEn).filterMap fun e =>
        if f.bit qbkCfgCEven e.1 then some (ce (f.rd qbkCfgCCluster e.1) (f.rd qbkCfgCEntry e.1)) else none)
    ++ ((f.listed mbxCfgAEn).flatMap fun e =>
        let a := f.rd mbxCfgAEndA e.1
        let b := f.rd mbxCfgAEndB e.1
        (if 8 ≤ a ∧ a ≤ 11 then [ce (a - 8) (f.rd mbxCfgCEntry e.1)] else [])
          ++ (if 8 ≤ b ∧ b ≤ 11 then [ce (b - 8) (f.rd mbxCfgDEntry e.1)] else []))
    ++ ((f.setIdx mbxDbeEn).map fun c => ce c (f.rd mbxDbeEntry 0 c))
    ++ (f.eng.timers.map fun e => ce e.2.cluster e.2.entry)

/-- HANDLER_MISSING: an entry that the future set could not use. -/
def DieState.checkHandlers (f : DieState) : Option Nat := least (f.sources.filter fun x => !f.usable f.gen (x / 256) (x % 256))

/-- BUDGET: the pairs of 17 Table 17.2. -/
def DieState.checkBudget (f : DieState) : Option Nat :=
  let upper := f.rd stwHbPeriod * f.rd stwHbMiss
  if upper ≤ f.rd stwRetry then some 1
  else if f.pairMode = 2 ∧ upper ≤ f.rd stwVoteWin then some 2
  else
    (least (((f.listed canCtrlEn).map Prod.fst).filter fun ch =>
      let lim := f.rd canTxtmo ch
      decide (lim ≠ 0) && (decide (f.rd canRetryTime ch = 0) || decide (lim ≤ f.rd canRetryTime ch)))).map fun ch => 3 + 256 * ch

/-- The first rule that fails, in table order, with its DETAIL. -/
def DieState.validate (d : DieState) : Option (Nat × Nat) :=
  let f := d.future
  ([(2, if d.cm.mode = 3 then some 0 else none), (3, d.checkPair f), (4, d.checkCue), (0x10, f.checkPins), (0x11, f.checkXcvr),
    (0x20, f.checkTimers), (0x21, f.checkBases), (0x30, f.checkPools), (0x31, f.checkQueues), (0x32, f.checkWindows),
    (0x40, d.checkPorts f), (0x50, f.checkHandlers), (0x60, f.checkBudget)] : List (Nat × Option Nat)).findSome? fun c => c.2.map fun x => (c.1, x)

/-! ### States of the commit machine -/

/-- STATE. -/
def DieState.commitState (d : DieState) : Nat := d.rd sysCommitStatState

/-- REASON and DETAIL. -/
def DieState.setReason (d : DieState) (reason detail : Nat) : DieState :=
  (d.wr sysCommitStatReason reason).wr sysCommitStatDetail detail

/-- A refusal: REASON and DETAIL, and COMMIT_REFUSED. -/
def DieState.commitRefused (d : DieState) (reason detail : Nat) : DieState :=
  (d.setReason reason detail).raise 0x0002 (reason + detail % 65536 * 65536)

/-- GO (R50). -/
def DieState.commitStart (d : DieState) : DieState :=
  if d.commitOpen then
    ({ d with cm := { mode := d.rd sysCommitMode, dry := d.bit sysCommitDry, cue := d.rd sysCommitCue } }).wr sysCommitStatState 1
  else d.commitRefused 1 d.commitState

/-- ABORT: an ARMED commit returns to IDLE. -/
def DieState.commitAbortNow (d : DieState) : DieState := if d.commitState = 2 then d.wr sysCommitStatState 0 else d

/-- DISCARD: the staged copies, the edit buffer and the binding buffer are given up (05 R114, 09 R249). -/
def DieState.commitDiscardNow (d : DieState) : DieState :=
  if d.commitOpen then
    { d with staged := [], gal := { d.gal with bind := [] }, tbl := { d.tbl with edits := [] } }
  else d

/-- The action bits of a write of SYS.COMMIT, in their order (R50). -/
def DieState.commitAct (d : DieState) (v : Word) : DieState :=
  let d1 := if v.getLsbD 30 then d.commitAbortNow else d
  let d2 := if v.getLsbD 29 then d1.commitDiscardNow else d1
  if v.getLsbD 31 then d2.commitStart else d2

/-- COMMIT_DONE: the outcome of a commit or of a dry run. -/
def DieState.commitDone (d : DieState) (dry : Bool) : DieState :=
  let d1 := (d.setReason 0 0).wr sysCommitStatState 4
  let d2 := if dry then d1 else d1.cnt sysCommitSeqCount
  d2.raise 0x0001 (d2.rd sysCommitSeqCount + if dry then 65536 else 0)

/-- Validation ends. -/
def DieState.commitValidated (d : DieState) : DieState :=
  if d.commitState ≠ 1 ∨ d.cm.passed then d
  else
    match d.validate with
    | some (reason, detail) => (d.wr sysCommitStatState 5).commitRefused reason detail
    | none =>
      if d.cm.dry then d.commitDone true
      else if d.cm.mode = 1 then d.wr sysCommitStatState 2
      else { d with cm := { d.cm with passed := true } }

/-! ### What the blocks do at a commit instant. `o` is the register file before it, `ks` the keys that changed. -/

/-- Units that a BOUNDARY commit switches on their own: a port, 64 + a CAN channel, 128 + a LIN channel (R50). -/
def unitOfKey (k : Nat) : Option Nat :=
  let o := keyOff k
  match keyBlk k with
  | 2 => if 0x100 ≤ o then some (64 + keyChan k) else none
  | 3 => if 0x100 ≤ o then some (128 + keyChan k) else none
  | 4 => if 0x100 ≤ o then some (keyChan k) else none
  | 5 =>
    if 0x200 ≤ o ∧ o < 0x3D0 then some ((o - 0x200) / 16)
    else if 0x1000 ≤ o ∧ o < 0x2D00 then some ((o - 0x1000) / 0x100)
    else if 0x40000 ≤ o ∧ o < 0x5A000 then some ((o - 0x40000) / 0x1000)
    else none
  | _ => none

/-- The first index of each changed instance of a field's register, for the register's block and offset. -/
def touched (f : Fld) (ks : List Nat) : List Nat :=
  (ks.filterMap fun k => if keyBlk k = f.blk then (f.at? (keyOff k)).map Prod.fst else none).eraseDups

/-- The channels of the changed instances of a windowed register. -/
def touchedCh (f : Fld) (ks : List Nat) : List Nat :=
  (ks.filterMap fun k => if keyBlk k = f.blk ∧ keyOff k = f.off then some (keyChan k) else none).eraseDups

/-- A queue block whose place or enable changes is emptied (13 R349). -/
def DieState.qbEmpty (d : DieState) (n : Nat) : DieState :=
  let d1 := ((((d.wr qbkWp 0 n).wr qbkRp 0 n).wr qbkRel 0 n).wr qbkMark 0 n).wr qbkStatStale 0 n
  { d1 with host := { d1.host with stale := Tab.erase d1.host.stale n } }

/-- A base whose KIND changes restarts (10 R259). -/
def DieState.baseRestart (d : DieState) (n : Nat) : DieState :=
  if d.isAngle n then
    let a := (d.baseAngle n (d.phase (d.rd timTbCfgSrc 0 n)) % 2 ^ 32).toNat
    (d.onBase n fun _ => { angle := a }).wr timTbAdj 0 0 n
  else ((((d.onBase n fun _ => {}).wr timTbAdj 0 0 n).wr timTbRateLo 0 0 n)).wr timTbRateHi 0 0 n

/-- Changes of a base's settings: KIND restarts it; SRC or AOFS alone make ANGLE step to its new value, and COUNT takes the
carry or borrow of a step across angle 0. The direction of that step is a free value (10 R258, R259, R267; log 40). -/
def DieState.baseCommit (d : DieState) (o : Tab Nat) (n : Nat) : DieState :=
  if Tab.get 0 o (timTbCfgKind.key 0 n 0) ≠ d.rd timTbCfgKind 0 n then d.baseRestart n
  else if d.isAngle n ∧ !d.bit timStatFollowing then
    let a := (d.baseAngle n (d.phase (d.rd timTbCfgSrc 0 n)) % 2 ^ 32).toNat
    let up := d.freshVal.getLsbD 0
    d.drawn.onBase n fun t =>
      let c := if up && decide (a < t.angle) then t.count + 1 else if !up && decide (t.angle < a) then t.count + 4294967295 else t.count
      { t with angle := a, count := c % 4294967296 }
  else d

/-- NEXT of a cue that a commit enables or changes (10 R269). -/
def DieState.cueSet (d : DieState) (n : Nat) : DieState :=
  let thr := d.rd timCueB 0 n + 2 ^ 32 * d.rd timCueC 0 n
  let per := d.rd timCueD 0 n + 2 ^ 32 * d.rd timCueAPerhi 0 n
  let diff := posDiff (d.position (d.rd timCueATb 0 n)) thr
  let next := if !d.bit timCueAEn 0 n then none
    else if diff < 0 then some thr
    else if per = 0 then none
    else some ((thr + (diff.toNat / per + 1) * per) % 2 ^ 64)
  { d with tim := { d.tim with next := match next with
    | some x => Tab.insert d.tim.next n x
    | none => Tab.erase d.tim.next n } }

/-- ABOVE of a watch that a commit enables (05 R126). -/
def DieState.watchEnabled (d : DieState) (n : Nat) : DieState :=
  if d.bit galGwAEn 0 n then
    let v := (d.galSlot (d.rd galGwAHandle 0 n)).value.toInt
    d.wr galGwD (if int32 (d.rd galGwB 0 n) ≤ v then 1 else 0) 0 n
  else d

/-- A phase input under changed settings (10 R263, R266): a change of MODE, INV, CPR or MSG of an enabled input, or a
cleared EN, sends the tracker to OFF. -/
def DieState.phaseCommit (d : DieState) (ks : List Nat) (k : Nat) : DieState :=
  let hit := fun (f : Fld) => ks.contains (f.key 0 k 0)
  if hit timPhCfgMode || hit timPhCfgEn || hit timPhCfgInv || hit timPhCpr || hit timPhMsgHandle || hit timPhMsgReftb then d.phaseOff k
  else d

/-- Entry into a pairing mode (12 R326, R329, R338): roles, the end of silence, the trunk P_28 of Split mode, the command to the
Newel. -/
def DieState.pairEnter (d : DieState) : DieState :=
  let m := d.pairMode
  let pref : Die := if d.bit stwPairPref then .east else .west
  let role := if m = 0 then 0 else if m = 2 then 3 else if d.die = pref then 1 else 2
  let d1 := ((((d.wr stwPairStatRole role).wr stwPairStatSilent 0).wr stwPairStatDegraded 0).wr stwPairStatIsolated 0)
  let d2 := if m = 0 then (d1.wr timStatFollowing 0).wr timStatFollowLost 0 else d1
  let d3 := if m = 0 then d2.wr ethLinkUp (d2.rd stwLinkUp) 28 else if d2.bit ethLinkUp 28 then d2.linkFall 28 else d2
  d3.nlCtrl .switch m

/-- A port whose KIND changes has no link until it trains again, and its PAUSE windows count from there (07 R179, R189). -/
def DieState.kindCommit (d : DieState) (ks : List Nat) (p : Nat) : DieState :=
  if ks.contains (ethModeKind.key p 0 0) then
    let d1 := if d.bit ethLinkUp p then d.linkFall p else d
    d1.onPort p fun x => { x with winStart := d.now, pauseSum := 0, winRaised := false }
  else d

/-- A gate list that a commit changes starts in bank START (08 R218). -/
def DieState.gateCommit (d : DieState) (ks : List Nat) (p : Nat) : DieState :=
  let d1 := if d.gateTouched p ks then d.wr swcGcSBank (d.rd swcGcAStart 0 p) 0 p else d
  d1.gateUpdate p

/-- A held queue starts without allowance (08 R219). -/
def DieState.holdCommit (d : DieState) (ks : List Nat) : DieState :=
  ks.foldl (fun d k =>
    if keyBlk k = 5 ∧ k % 32 = swcQcAHold.lo then
      match swcQcAHold.at? (keyOff k) with
      | some (p, t) => d.wr swcQcDAllow 0 0 p t
      | none => d
    else d) d

/-- A grandmaster that a commit enables counts Sync instants from there (10 R279). -/
def DieState.ptpCommit (d : DieState) (u : Nat) : DieState :=
  d.onPtp u fun x => { x with lastGm := d.position (d.rd timPtpATb 0 u) / d.ptpInterval u, sync := none, fup := none, gmSeq := none, tx := [] }

/-- Whole seconds plus OFS that the PPS base has passed (10 R275). -/
def DieState.ppsSeconds (d : DieState) : Int :=
  ((d.position (d.rd timPpsCtlTb) : Int) - timPpsOfs.int (d.rd timPpsOfs)) / 1000000000

/-- What the changed keys set off. -/
def DieState.commitHooks (d : DieState) (o : Tab Nat) (ks : List Nat) : DieState :=
  let d1 := (touchedCh qbkCfgABase ks).foldl (fun d n => d.qbEmpty n) d
  let d2 := (touched brgBkAInterval ks).foldl (fun d n => d.bucketRestart n) d1
  let d2 := ((touchedCh canCtrlEn ks).filter fun ch => ks.contains (canCtrlEn.key ch 0 0)).foldl (fun d ch => d.canEnable ch) d2
  let maps := touched brgMapAMatch ks ++ touched brgMapB ks ++ touched brgMapCChan ks
  let d2 := { d2 with tbl := { d2.tbl with ue := d2.tbl.ue.filter fun k => !(decide (k / 65536 = 6) && maps.contains (k % 65536)) } }
  let d3 := (touched timPhCfgEn ks ++ touched timPhCpr ks ++ touched timPhMsgHandle ks).eraseDups.foldl (fun d k => d.phaseCommit ks k) d2
  let d4 := (touched timTbCfgKind ks ++ touched timTbAofs ks).eraseDups.foldl (fun d n => d.baseCommit o n) d3
  let d5 := (touched timCueAEn ks ++ touched timCueB ks ++ touched timCueC ks ++ touched timCueD ks).eraseDups.foldl (fun d n => d.cueSet n) d4
  let d6 := ((touched galGwAEn ks).filter fun n => ks.contains (galGwAEn.key 0 n 0)).foldl (fun d n => d.watchEnabled n) d5
  let d7 := if (touched prtCuejAFirst ks ++ touched prtCuejBJit ks).isEmpty then d6
    else { d6 with tim := { d6.tim with lfsr := if d6.rd prtCuejBSeed = 0 then d6.tim.lfsr else d6.rd prtCuejBSeed } }
  let d7 := if (touched timPpsCtlTb ks ++ touched timPpsOfs ks).isEmpty then d7
    else { d7 with tim := { d7.tim with ppsSec := d7.ppsSeconds } }
  let ports := (ks.filterMap unitOfKey).eraseDups.filter fun u => decide (u < 29)
  let d8 := ports.foldl (fun d p => (d.kindCommit ks p).gateCommit ks p) d7
  let d9 := (touched swcPrePen ks).foldl (fun d p => d.startVerify p) (d8.holdCommit ks)
  let d10 := ((touched timPtpAEn ks).filter fun u => ks.contains (timPtpAEn.key 0 u 0)).foldl (fun d u => d.ptpCommit u) d9
  let d10 := if (touched timPtpAEn ks).isEmpty then d10 else d10.ptpHoldFlags
  let d11 := if ks.contains (stwPairMode.key 0 0 0) then d10.pairEnter else d10
  d11.nlConfig o ((ks.filter fun k => keyBlk k = 16).map keyOff).eraseDups

/-- The credits of the ports that a commit touches are brought up to date under the former settings (08 R215). -/
def DieState.creditsBefore (d : DieState) (ks : List Nat) : DieState :=
  ((ks.filterMap unitOfKey).eraseDups.filter fun u => decide (u < 29)).foldl (fun d p => d.creditUpdate p) d

/-- A port that a change has taken down loses what was queued for it (07 R181; 13 R363 for P_26). -/
def DieState.portFell (d : DieState) (was : Bool) (p : Nat) : DieState := if was && !d.portUp p then d.linkFall p else d

/-- NOTE of a queue block that a changed watermark makes true rises (13 R353). -/
def DieState.noteCommit (d was : DieState) (n : Nat) : DieState :=
  if !was.qbNote n && d.qbNote n then
    let p := d.noteRise n
    p.1.settle 256 p.2
  else d

/-- Staged keys become active, and the blocks act on them. -/
def DieState.activate (d : DieState) (part : Nat → Bool) : DieState :=
  let mine := d.staged.filter fun e => part e.1
  let ks := mine.map Prod.fst
  let d1 := d.creditsBefore ks
  let o := d1.regs
  let d2 := (({ d1 with regs := mergeStaged o mine, staged := d1.staged.filter fun e => !part e.1 }).commitHooks o ks).portFell (d.portUp 26) 26
  (touchedCh qbkCfgB ks).foldl (fun x n => x.noteCommit d n) d2

/-- The commit instant (R50, R51): every hall takes the new set, whole or, in BOUNDARY mode, but for the ports and channels;
staged edits and bindings are applied; the drain begins. A RELOCK waits for this instant (17 R439). -/
def DieState.commitNow (d : DieState) : DieState :=
  let later := if d.cm.mode = 2 then (d.staged.filterMap fun e => unitOfKey e.1).eraseDups else []
  let d0 := { d with old := d.regs, gen := d.gen + 1, cm := { d.cm with passed := false, units := later, drainAt := d.now } }
  let d1 := (d0.wr sysCommitStatState 3).activate fun k => decide (d.cm.mode ≠ 2) || (unitOfKey k).isNone
  let d2 := d1.applyBindings.editsApply
  let d3 := { d2 with gal := { d2.gal with bind := [] } }
  if d3.guard.relock then ({ d3 with guard := { d3.guard with relock := false } }).raise 0x1312 else d3

/-- COMMIT_APPLY. -/
def DieState.commitApply (d : DieState) : DieState := if d.commitState = 1 ∧ d.cm.passed then d.commitNow else d

/-- A unit of a BOUNDARY commit is between frames. -/
def DieState.unitIdle (d : DieState) (u : Nat) : Bool :=
  if u < 64 then (d.portOf u).tx.isNone && (d.portOf u).held.isNone
  else if u < 128 then (d.canCh (u - 64)).onWire.isNone
  else (d.linCh (u - 128)).cur.isNone

/-- A port or channel switches. -/
def DieState.unitSwitch (d : DieState) (u : Nat) : DieState :=
  ({ d with cm := { d.cm with units := d.cm.units.filter fun x => decide (x ≠ u) } }).activate fun k => decide (unitOfKey k = some u)

/-- The number of a unit. -/
def unitNum (u : BoundaryUnit) : Nat :=
  match u with
  | .port p => p.val
  | .can c => 64 + c.val
  | .lin l => 128 + l.val

/-! ### The drain (R51) -/

/-- Items of the old set are still in the die. -/
def DieState.oldLeft (d : DieState) : Bool :=
  d.sw.frames.any (fun e => decide (e.2.tag ≠ d.gen))
    || d.eng.cls.toList.any (fun c => c.evq.any fun e => decide (e.tag ≠ d.gen))
    || d.eng.ctxs.any (fun e => decide (e.2.state ≠ .free) && decide (e.2.tag ≠ d.gen))
    || d.can.any (fun e => e.2.q.any fun x => decide (x.tag ≠ d.gen))
    || d.lin.any (fun e => match e.2.cur with
        | some c => decide (c.tag ≠ d.gen)
        | none => false)
    || d.rte.fifo.any (fun f => decide (f.tag ≠ d.gen))
    || d.rte.talkers.any (fun e => !e.2.msgs.isEmpty && decide (e.2.tag ≠ d.gen))

/-- The commit reaches DONE. -/
def DieState.drainEnd (d : DieState) : DieState :=
  let d1 := d.cm.units.foldl (fun d u => d.unitSwitch u) d
  ({ d1 with old := [], staged := [], tbl := { d1.tbl with former := [] } }).commitDone false

/-- A stored frame is of the old set. -/
def DieState.frameOld (d : DieState) (n : Nat) : Bool :=
  match d.frameOf n with
  | some f => decide (f.tag ≠ d.gen)
  | none => false

/-- Copies of the old set leave the output queues; the number dropped. -/
def DieState.dropCopies (d : DieState) : Nat × DieState :=
  d.sw.outq.foldl (fun (a : Nat × DieState) e =>
    let gone := e.2.filter fun c => d.frameOld c.desc
    let d1 := a.2.setQueue (e.1 / 8) (e.1 % 8) (e.2.filter fun c => !d.frameOld c.desc)
    (a.1 + gone.length, gone.foldl (fun d c => d.releaseFrame c.desc) d1)) (0, d)

/-- Frames of the old set leave the lookup FIFO, and those that wait at the ports. -/
def DieState.dropLookups (d : DieState) : Nat × Nat × DieState :=
  let gone := d.sw.fifo.filter fun n => d.frameOld n
  let d1 := gone.foldl (fun d n => d.releaseFrame n) { d with sw := { d.sw with fifo := d.sw.fifo.filter fun n => !d.frameOld n } }
  let r := d.port.foldl (fun (a : Nat × DieState) e =>
    let g := e.2.rx.filter fun n => d.frameOld n
    let x := a.2.onPort e.1 fun q => { q with rx := q.rx.filter fun n => !d.frameOld n }
    (a.1 + g.length, g.foldl (fun d n => d.releaseFrame n) x)) (0, d1)
  (gone.length, r)

/-- Transmit entries of the old set leave the CAN queues; one on the wire finishes its attempt. -/
def DieState.dropCan (d : DieState) : Nat × DieState :=
  d.can.foldl (fun (a : Nat × DieState) e =>
    let gone := e.2.q.filter fun x => decide (x.tag ≠ d.gen) && !x.wire
    (a.1 + gone.length, gone.foldl (fun d x => d.canRetire e.1 x 3 0) a.2)) (0, d)

/-- Frames of the old set leave the route pipeline and the talkers. -/
def DieState.dropRoutes (d : DieState) : Nat × DieState :=
  let r := d.rte
  let ts := r.talkers.filter fun e => !e.2.msgs.isEmpty && decide (e.2.tag ≠ d.gen)
  let n := (r.fifo.filter fun f => decide (f.tag ≠ d.gen)).length + (ts.map fun e => e.2.msgs.length).foldl (· + ·) 0
  (n, { d with rte := { r with fifo := r.fifo.filter fun f => decide (f.tag = d.gen),
                               talkers := r.talkers.filter fun e => e.2.msgs.isEmpty || decide (e.2.tag = d.gen) } })

/-- Events of the old set leave the cluster event queues, their frames freed whatever POLICY says. -/
def DieState.dropEvents (d : DieState) : Nat × DieState :=
  (List.range 4).foldl (fun (a : Nat × DieState) cl =>
    let gone := (d.cluster cl).evq.filter fun e => decide (e.tag ≠ d.gen)
    let d1 := a.2.onCluster cl fun c => { c with evq := c.evq.filter fun e => decide (e.tag = d.gen) }
    (a.1 + gone.length, gone.foldl (fun d e => match e.frame with
      | some f => d.freeEFrame f
      | none => d) d1)) (0, d)

/-- Invocations of the old set end as RESIDENCE aborts, their frames freed whatever POLICY says. -/
def DieState.dropContexts (d : DieState) : Nat × DieState :=
  d.eng.ctxs.foldl (fun (a : Nat × DieState) e =>
    if e.2.state ≠ .free ∧ e.2.tag ≠ d.gen then
      (a.1 + 1, (a.2.setCtx e.1 { a.2.ctx e.1 with released := true }).abort e.1 .residence)
    else a) (0, d)

/-- Counts a class's losses. -/
def DieState.drainLoss (d : DieState) (cls n : Nat) : DieState := if n = 0 then d else d.cnt sysDrainLoss 0 cls 0 n

/-- Every item of the old set is dropped and counted in its class; COMMIT_DRAIN_LOSS tells the total. -/
def DieState.dropOld (d : DieState) : DieState :=
  let a := d.dropCopies
  let b := a.2.dropLookups
  let c := b.2.2.dropCan
  let r := c.2.dropRoutes
  let e := r.2.dropEvents
  let x := e.2.dropContexts
  let d1 := ((((x.2.drainLoss 5 (a.1 + b.1)).drainLoss 4 b.2.1).drainLoss 2 c.1).drainLoss 9 r.1).drainLoss 7 (e.1 + x.1)
  let n := a.1 + b.1 + b.2.1 + c.1 + r.1 + e.1 + x.1
  if n = 0 then d1 else d1.raise 0x0003 n

/-! ### The commands -/

/-- The action bits of a commit command: GO 31, ABORT 30 or DISCARD 29 is set, the rest as written. -/
def commitWord (v : Word) (bit : Nat) : Word := v ||| BitVec.ofNat 32 (2 ^ bit)

/-- COMMIT_GO: a write of SYS.COMMIT with GO (R50). -/
def execCommitGo (a : Acc) (v : Word) (s : State) : Host.Outcome State Fault Refusal :=
  s.doOn a.die fun d => let w := commitWord v 31; d.writeReg a.req 0 0 0x40 w fun d => d.commitAct w

/-- COMMIT_ABORT. -/
def execCommitAbort (a : Acc) (v : Word) (s : State) : Host.Outcome State Fault Refusal :=
  s.doOn a.die fun d => let w := commitWord v 30; d.writeReg a.req 0 0 0x40 w fun d => d.commitAct w

/-- COMMIT_DISCARD. -/
def execCommitDiscard (a : Acc) (v : Word) (s : State) : Host.Outcome State Fault Refusal :=
  s.doOn a.die fun d => let w := commitWord v 29; d.writeReg a.req 0 0 0x40 w fun d => d.commitAct w

/-- COMMIT_VALIDATION_DONE. -/
def execCommitValidationDone (d : Die) (s : State) : Host.Outcome State Fault Refusal := s.doOn d fun d => d.commitValidated

/-- COMMIT_APPLY: the first time-base clock edge after validation. -/
def execCommitApply (d : Die) (s : State) : Host.Outcome State Fault Refusal := s.doOn d fun d => d.commitApply

/-- COMMIT_BOUNDARY_APPLY: the first gap between frames of a port or channel. -/
def execCommitBoundaryApply (d : Die) (u : BoundaryUnit) (s : State) : Host.Outcome State Fault Refusal :=
  s.doOn d fun d =>
    let n := unitNum u
    if d.commitState = 3 ∧ d.cm.units.contains n ∧ d.unitIdle n then d.unitSwitch n else d

/-- COMMIT_DRAIN_DONE: the last item of the old set has left. -/
def execCommitDrainDone (d : Die) (s : State) : Host.Outcome State Fault Refusal :=
  s.doOn d fun d => if d.commitState = 3 ∧ d.cm.units.isEmpty ∧ !d.oldLeft then d.drainEnd else d

/-- COMMIT_DRAIN_LIMIT: LIMIT has expired. -/
def execCommitDrainLimit (d : Die) (s : State) : Host.Outcome State Fault Refusal :=
  s.doOn d fun d =>
    if d.commitState = 3 ∧ d.cm.drainAt + 1000 * d.rd sysCommitDrain ≤ d.now then (d.dropOld).drainEnd else d

end Sys2Proof.Machine
end

