-- ==== Sys2Proof/Machine/Time.lean ====
section
/-! DEFINITION. Machine/Time.lean: time bases, cues, capture sets, PPS, following the other die (chapter 10), and what one
nanosecond does. -/

namespace Sys2Proof.Machine

/-! ### The bases (R257 to R262) -/

/-- A clock base moves on by `n` units of 2^-32 ns: NS carries into SEC at 10^9, SEC wraps at 2^48. -/
def TBase.advance (b : TBase) (n : Int) : TBase :=
  let whole : Int := ((b.sec * 1000000000 + b.ns : Nat) : Int) * 2 ^ 32 + b.frac + n
  let ns := (whole / 2 ^ 32) % (2 ^ 48 * 1000000000)
  { b with sec := (ns / 1000000000).toNat, ns := (ns % 1000000000).toNat, frac := (whole % 2 ^ 32).toNat }

/-- An angle base moves on by `n` units of 2^-32 of an angle unit; COUNT takes the carries and borrows of ANGLE (R258). -/
def TBase.turn (b : TBase) (n : Int) : TBase :=
  let a : Int := (b.angle : Int) * 2 ^ 32 + b.frac + n
  { b with count := ((b.count + a / 2 ^ 64) % 2 ^ 32).toNat, angle := (a / 2 ^ 32 % 2 ^ 32).toNat, frac := (a % 2 ^ 32).toNat }

/-- ADJ of a base, signed. -/
def DieState.adj (d : DieState) (n : Nat) : Int := timTbAdj.int (d.rd timTbAdj 0 n)

/-- RATE of a base is shown in its registers. -/
def DieState.setRate (d : DieState) (n : Nat) (w : Int) : DieState :=
  (d.wr timTbRateLo (w % 2 ^ 32).toNat 0 n).wr timTbRateHi (w / 2 ^ 32 % 2 ^ 32).toNat 0 n

/-- The steps and the set that wait act on this clock, each with TB_STEP (R259). -/
def DieState.baseJump (d : DieState) (n : Nat) : DieState :=
  let b := d.base n
  let d1 := d.onBase n fun b => ({ b with step := [] }).advance (b.step.foldl (· + ·) 0 * 2 ^ 32)
  let d2 := b.step.foldl (fun d _ => d.raise 0x0A01 0 n) d1
  match b.set with
  | none => d2
  | some (sec, ns) => (d2.onBase n fun b => { b with sec := sec, ns := ns, frac := 0, set := none }).raise 0x0A01 1 n

/-- One 1.0 GHz clock of a base (R258); in Rest, the 25 ns of a crystal cycle together (R262). A following angle base runs at
the rate it follows (R281). -/
def DieState.baseTick (d : DieState) (n : Nat) : DieState :=
  let k : Int := if d.pow.alive then 1 else if d.now % 25 = 0 then 25 else 0
  if d.isAngle n then
    if d.bit timStatFollowing then d.onBase n fun b => b.turn (d.baseRate n * k)
    else d.setRate n (d.phase (d.rd timTbCfgSrc 0 n)).omega
  else
    let b := d.base n
    if k = 0 then d
    else if b.step.isEmpty ∧ b.set.isNone then d.onBase n fun b => b.advance (k * (2 ^ 32 + d.adj n))
    else (d.onBase n fun b => b.advance (k * (2 ^ 32 + d.adj n))).baseJump n

/-- θ advances by ω (R265); in Rest it is held (R262). -/
def DieState.phaseTick (d : DieState) (k : Nat) : DieState :=
  let x := d.phase k
  if x.omega = 0 ∨ !d.pow.alive then d else d.setPhase k { x with theta := x.theta + x.omega }

/-- One nanosecond of a die. A paused sweep of the Proofer does not count its pause (09 R253). -/
def DieState.tick (d : DieState) : DieState :=
  let d1 := { d with now := d.now + 1 }
  let d2 := (List.range 4).foldl (fun d k => d.phaseTick k) d1
  let d3 := (List.range 8).foldl (fun d n => d.baseTick n) d2
  if d3.tbl.sweeping && d3.proofPaused then { d3 with tbl := { d3.tbl with swStart := d3.tbl.swStart + 1 } } else d3

/-- A voter takes the silence of the package; a die that has been reset is JOINING and does not (12 R338). -/
def DieState.hush (d : DieState) : DieState := if d.votes && decide (d.role = 3) then d.wr stwPairStatSilent 1 else d

/-- Silence is that of both dies (12 R338). -/
def State.silence (s : State) : State :=
  if s.west.bit stwPairStatSilent || s.east.bit stwPairStatSilent then { s with west := s.west.hush, east := s.east.hush } else s

/-- One nanosecond of the package: what a step does when no command waits. -/
def State.tick (s : State) : State :=
  ({ s with west := s.west.tick, east := s.east.tick, newel := { s.newel with now := s.newel.now + 1 } }).silence

/-- Writes of ADJ, STEP and SET are refused while the die follows the other (R281). -/
def DieState.followShut (d : DieState) : Bool := d.bit timStatFollowing

/-- A written STEP waits for the next clock; an angle base takes none (R259). -/
def DieState.stepAct (d : DieState) (n : Nat) (v : Word) : DieState :=
  if d.isAngle n then d else d.onBase n fun b => { b with step := b.step ++ [v.toInt] }

/-- GO of SET_SEC_HI loads the base on the next clock (R259). -/
def DieState.setAct (d : DieState) (n : Nat) (v : Word) : DieState :=
  if d.isAngle n ∨ !v.msb then d
  else d.onBase n fun b =>
    { b with set := some (d.rd timTbSetSecHiSec 0 n * 2 ^ 32 + d.rd timTbSetSecLo 0 n, d.rd timTbSetNs 0 n) }

/-- The three words of a base as it stands (R274): NS or ANGLE; SEC or COUNT; SEC_HI and FRAC, or 0. -/
def DieState.baseWords (d : DieState) (n : Nat) : Nat × Nat × Nat :=
  let b := d.base n
  if d.isAngle n then (b.angle, b.count, 0) else (b.ns, b.sec % 2 ^ 32, b.sec / 2 ^ 32 + b.frac / 65536 * 65536)

/-- NOW_MID and NOW_HI are latched in a requester's copy (R261). -/
def DieState.nowLatch (d : DieState) (copy n : Nat) : DieState :=
  let w := d.baseWords n
  ((d.wr timTbNowMid w.2.1 copy n).wr timTbNowHiSecHi w.2.2 copy n).wr timTbNowHiFrac (w.2.2 / 65536) copy n

/-! ### Capture sets (R274) -/

/-- A capture of every base into a set; `src` 0 cue, 1 CAP_NOW, 2 PPS_IN. -/
def DieState.capture (d : DieState) (k src cue : Nat) : DieState :=
  let d1 := (List.range 8).foldl (fun d n =>
    let w := d.baseWords n
    (((d.wr timCap w.1 0 k n).wr timCapW1 w.2.1 0 k n).wr timCapW2 w.2.2 0 k n).wr timCapW3 0 0 k n) d
  let d2 := if d1.bit timCapstatValid 0 k then d1.wr timCapstatOvf 1 0 k else d1
  ((d2.wr timCapstatValid 1 0 k).wr timCapstatSrc src 0 k).wr timCapstatCue cue 0 k

/-! ### Cues (R269 to R273) -/

/-- A pulse that has run its WIDTH ends. -/
def DieState.pulseEnd (d : DieState) (k : Nat) : DieState :=
  match Tab.get? d.tim.pulse k with
  | some t => if t ≤ d.now then ({ d with tim := { d.tim with pulse := Tab.erase d.tim.pulse k } }).wr timTpLevel 0 0 k else d
  | none => d

/-- A PIN operation: 0 toggle, 1 high, 2 low, 3 pulse. It cancels the end of a running pulse (R272). -/
def DieState.pinOp (d0 : DieState) (k op : Nat) : DieState :=
  let d := d0.pulseEnd k
  let d1 := { d with tim := { d.tim with pulse := Tab.erase d.tim.pulse k } }
  match op with
  | 0 => d1.wr timTpLevel (1 - d.rd timTpLevel 0 k) 0 k
  | 1 => d1.wr timTpLevel 1 0 k
  | 2 => d1.wr timTpLevel 0 0 k
  | _ => ({ d1 with tim := { d1.tim with pulse := Tab.insert d1.tim.pulse k (d.now + d.rd timTpWidth 0 k) } }).wr timTpLevel 1 0 k

/-- The action of cue `n`, whose NEXT `next` fired (Table 10.4). A target in a hall that is off is not reached (R273). -/
def DieState.cueAction (d : DieState) (n next action arg : Nat) : DieState :=
  let origin := 0x80 * 2 ^ 56 + n * 2 ^ 32 + next % 2 ^ 32
  match action with
  | 1 => d.engineEvent (arg % 4)
      { typ := 2, entry := arg / 4 % 256, cls := 10, unit := n, w1 := n, w2 := next % 2 ^ 32, origin := origin }
  | 2 => if d.hallOn .swc then d.queueRelease (arg % 32) (arg / 32 % 8) else d
  | 3 => if d.hallOn .swc then d.gateSwitch (arg % 32) else d
  | 4 => d.cmbTrigger d.gen (arg % 32) (arg / 32 % 32) origin
  | 5 => d.linTrigger d.gen (arg % 8) (arg / 8 % 64)
  | 6 => d.pinOp (arg % 8) (arg / 8 % 4)
  | 7 => d.capture (arg % 4) 0 n
  | _ => d

/-- After firing: NEXT moves on by whole periods until it lies ahead, or the cue is spent; periods missed are counted (R270). -/
def DieState.cueRearm (d : DieState) (n next per : Nat) (late : Int) : DieState :=
  if per = 0 then { d with tim := { d.tim with next := Tab.erase d.tim.next n } }
  else
    let k := late.toNat / per + 1
    let d1 := { d with tim := { d.tim with next := Tab.insert d.tim.next n ((next + k * per) % 2 ^ 64) } }
    if k = 1 then d1 else (d1.cnt timCueMissed 0 0 0 (k - 1)).raiseHeld 0x0A02 0 1000000 (n + min (k - 1) 65535 * 65536)

/-- The words of a cue entry. -/
def DieState.cueWords (d : DieState) (n : Nat) : List Nat :=
  [wordOf d.regs 10 0 (0x10000 + 16 * n), d.rd timCueB 0 n, d.rd timCueC 0 n, d.rd timCueD 0 n]

/-- A role swap or a join that names the cue begins at it (12 R332, R333). -/
def DieState.cueRoles (d : DieState) (n : Nat) : DieState :=
  let d1 :=
    if d.stw.hoCue = some n then
      let r := d.role
      ({ d with stw := { d.stw with hoCue := none, hoAt := some d.now, hoMoved := [] } }).wr stwPairStatRole
        (if r = 1 then 2 else if r = 2 then 1 else r)
    else d
  if d1.stw.joinCue = some n then { d1 with stw := { d1.stw with joinCue := none, joining := true } } else d1

/-- The delay of a cue in the jitter range (17 R441): the LFSR steps and gives it. -/
def DieState.cueJitter (d : DieState) (n : Nat) : Nat × DieState :=
  if d.rd prtCuejAFirst ≤ n ∧ n ≤ d.rd prtCuejALast ∧ d.rd prtCuejBJit ≠ 0 then
    let x := d.tim.lfsr
    let y := Nat.xor (x / 2) (if x % 2 = 1 then 0xB400 else 0)
    (y % (d.rd prtCuejBJit + 1), { d with tim := { d.tim with lfsr := y } })
  else (0, d)

/-- A cue performs: counted, a WAKE cue wakes the die, its roles and its action follow. -/
def DieState.cuePerform (d : DieState) (n next action arg : Nat) (wake : Bool) : DieState :=
  let d1 := d.cnt timCueFired
  let d2 := if wake then d1.wakeDie 4 else d1
  (d2.cueRoles n).cueAction n next action arg

/-- The cue is compared: always, but in Rest only with WAKE on a clock base (R273). -/
def DieState.cueCompared (d : DieState) (n : Nat) : Bool :=
  d.pow.alive || (d.bit timCueAWake 0 n && !d.isAngle (d.rd timCueATb 0 n))

/-- A cue meets its threshold. A commit that waits for it is applied first; the action is that of the definition before the
edge, its target is taken in the set after it (R272). -/
def DieState.cueFire (d : DieState) (n : Nat) : DieState :=
  match Tab.get? d.tim.cueDelay n with
  | some t =>
    if t / 2 ^ 64 ≤ d.now then
      ({ d with tim := { d.tim with cueDelay := Tab.erase d.tim.cueDelay n } }).cuePerform n (t % 2 ^ 64)
        (d.rd timCueAAction 0 n) (d.rd timCueAArg 0 n) (d.bit timCueAWake 0 n)
    else d
  | none =>
    match Tab.get? d.tim.next n with
    | none => d
    | some next =>
      let late := posDiff (d.position (d.rd timCueATb 0 n)) next
      if late < 0 ∨ !d.cueCompared n then d
      else
        let per := d.rd timCueD 0 n + 2 ^ 32 * d.rd timCueAPerhi 0 n
        let waits : Bool := decide (d.commitState = 2) && decide (d.cm.cue = n)
        let d1 := if waits then d.commitNow else d
        let d2 := if d1.cueWords n = d.cueWords n then d1.cueRearm n next per late else d1
        let j := if waits then (0, d2) else d2.cueJitter n
        if j.1 = 0 then j.2.cuePerform n next (d.rd timCueAAction 0 n) (d.rd timCueAArg 0 n) (d.bit timCueAWake 0 n)
        else { j.2 with tim := { j.2.tim with cueDelay := Tab.insert j.2.tim.cueDelay n ((d.now + j.1) * 2 ^ 64 + next) } }

/-! ### Following (R281, R282) -/

/-- The largest distance of East's clock bases from West's, in ps. -/
def followErr (w e : DieState) : Nat :=
  (List.range 8).foldl (fun a n =>
    if w.isAngle n then a
    else
      let x := w.base n
      let y := e.base n
      let dx : Int := posDiff (w.position n) (e.position n) * 2 ^ 32 + x.frac - y.frac
      max a (dx.natAbs * 1000 / 2 ^ 32)) 0

/-- East takes the state of West's bases, with their rates. -/
def DieState.followBases (e w : DieState) : DieState :=
  (List.range 8).foldl (fun e n =>
    let b := w.base n
    (((e.onBase n fun x => { x with sec := b.sec, ns := b.ns, frac := b.frac, count := b.count, angle := b.angle, step := [], set := none }).wr
      timTbAdj (w.rd timTbAdj 0 n) 0 n).wr timTbRateLo (w.rd timTbRateLo 0 n) 0 n).wr timTbRateHi (w.rd timTbRateHi 0 n) 0 n) e

/-- A base-state message of West reaches East. -/
def DieState.followState (e w : DieState) : DieState :=
  let e1 := if e.bit timStatFollowing then e.peak timFollowErr (followErr w e) else e
  let e2 := (e1.followBases w).wr timStatFollowing 1
  { e2 with stw := { e2.stw with tsAt := e2.now } }

/-- An input's tracker takes over from the followed angle and rate of a base (R282). -/
def DieState.takeOver (d : DieState) (n : Nat) : DieState :=
  let k := d.rd timTbCfgSrc 0 n
  if d.isAngle n ∧ d.phaseEn k then
    let b := d.base n
    let th : Int := ((b.count : Int) * 2 ^ 32 + b.angle - d.rd timTbAofs 0 n) * 2 ^ 32 + b.frac
    let w := d.baseRate n
    (d.onPhase k fun x => { x with theta := th, omega := w, back := decide (w < 0), lastM := b.angle, lastT := d.now, stamps := [d.now],
                                   since := 3 }).wr timPhStatState 2 0 k
  else d

/-- East's bases run free. -/
def DieState.followLost (d : DieState) : DieState :=
  let d1 := [7, 6, 5, 4, 3, 2, 1, 0].foldl (fun d n => d.takeOver n) ((d.wr timStatFollowing 0).wr timStatFollowLost 1)
  d1.raise 0x0A07

/-! ### The commands -/

/-- TB_ADJ. -/
def execTbAdj (a : Acc) (n : Fin 8) (v : Word) (s : State) : Host.Outcome State Fault Refusal :=
  s.doOn a.die fun d => d.writeReg a.req 10 0 (0x108 + 0x40 * n) v (fun d => d) (blocked := d.followShut)

/-- TB_STEP. -/
def execTbStep (a : Acc) (n : Fin 8) (v : Word) (s : State) : Host.Outcome State Fault Refusal :=
  s.doOn a.die fun d => d.writeReg a.req 10 0 (0x10C + 0x40 * n) v (fun d => d.stepAct n v) (blocked := d.followShut)

/-- TB_SET: a write of SET_SEC_HI with GO. -/
def execTbSet (a : Acc) (n : Fin 8) (v : Word) (s : State) : Host.Outcome State Fault Refusal :=
  s.doOn a.die fun d =>
    let w := commitWord v 31
    d.writeReg a.req 10 0 (0x118 + 0x40 * n) w (fun d => d.setAct n w) (blocked := d.followShut)

/-- TB_NOW_READ. -/
def execTbNowRead (a : Acc) (n : Fin 8) (s : State) : Host.Outcome State Fault Refusal :=
  s.doOn a.die fun d =>
    d.readReg a.req 10 0 (0x120 + 0x40 * n) (fun d => (d.baseWords n).1) fun d => d.nowLatch (reqCopy a.req) n

/-- The Newel follows a role swap at its cue: the load-command source moves (12 R332). -/
def State.swapSource (s : State) (d : Die) (n : Nat) : State :=
  if (s.get d).stw.hoCue = some n ∧ (Tab.get? (s.get d).tim.next n).isSome then
    if (s.get d).role = 1 then { s with newel := { s.newel with active := d.other } }
    else if (s.get d).role = 2 then { s with newel := { s.newel with active := d } }
    else s
  else s

/-- CUE_FIRE: the first clock edge at which T − NEXT ≥ 0. -/
def execCueFire (d : Die) (n : Fin 1024) (s : State) : Host.Outcome State Fault Refusal :=
  let t := s.on d fun d => d.cueFire n
  .next (if (t.get d).stw.hoCue = (s.get d).stw.hoCue then t else { t with newel := (s.swapSource d n).newel })

/-- TP_PULSE_END. -/
def execTpPulseEnd (d : Die) (k : Fin 8) (s : State) : Host.Outcome State Fault Refusal := s.doOn d fun d => d.pulseEnd k

/-- CAPTURE_NOW: a write of CAP_NOW with GO. -/
def execCaptureNow (a : Acc) (v : Word) (s : State) : Host.Outcome State Fault Refusal :=
  s.doOn a.die fun d => d.writeReg a.req 10 0 0x0C (commitWord v 31) fun d => d.capture (v.toNat % 4) 1 0

/-- PPS_IN_EDGE: edges closer together than 100 µs are ignored. -/
def execPpsInEdge (d : Die) (s : State) : Host.Outcome State Fault Refusal :=
  s.doOn d fun d =>
    let near : Bool := match d.tim.ppsLast with
      | some t => decide (d.now < t + 100000)
      | none => false
    if !d.bit timPpsCtlInEn ∨ near then d
    else
      let k := d.rd timPpsCtlCapset
      (({ d with tim := { d.tim with ppsLast := some d.now } }).capture k 2 0).raise 0x0A08 k

/-- PPS_OUT_RISE: the base has passed a whole second plus OFS, by its run or by a step. -/
def execPpsOutRise (d : Die) (s : State) : Host.Outcome State Fault Refusal :=
  s.doOn d fun d =>
    if d.bit timPpsCtlOutEn ∧ d.ppsSeconds ≠ d.tim.ppsSec then
      { d with tim := { d.tim with ppsSec := d.ppsSeconds, ppsHigh := some (d.now + 1000 * d.rd timPpsCtlWidth) } }
    else d

/-- PPS_OUT_FALL. -/
def execPpsOutFall (d : Die) (s : State) : Host.Outcome State Fault Refusal :=
  s.doOn d fun d =>
    match d.tim.ppsHigh with
    | some t => if t ≤ d.now then { d with tim := { d.tim with ppsHigh := none } } else d
    | none => d

/-- TB_FOLLOW_STATE: in Mirror and Vote mode, over a link that is up; after FOLLOW_LOST the bases run free. -/
def execTbFollowState (s : State) : Host.Outcome State Fault Refusal :=
  if s.east.pairMode ≠ 0 ∧ s.west.pairMode ≠ 0 ∧ s.east.linkUp ∧ s.west.linkUp ∧ !s.east.bit timStatFollowLost then
    .next { s with east := s.east.followState s.west }
  else .next s

/-- TB_FOLLOW_LOST: link-down, or four messages missed. -/
def execTbFollowLost (s : State) : Host.Outcome State Fault Refusal :=
  s.doOn .east fun d =>
    if d.bit timStatFollowing ∧ (!d.linkUp ∨ d.stw.tsAt + 4000 ≤ d.now) then d.followLost else d

end Sys2Proof.Machine
end

