-- ==== Sys2Proof/Machine/Security.lean ====
section
/-! DEFINITION. Machine/Security.lean: the cipher engine's look-aside jobs, the Darkroom's commands, epochs, freshness and
debug authentication (chapter 11). -/

namespace Sys2Proof.Machine

/-! ### Job operations (R299, R300) -/

/-- OP of a job descriptor (11 Table 11.3). -/
inductive CipOp where
  | gcmEnc
  | gcmDec
  | gmacGen
  | gmacVer
  | cmacGen
  | cmacVer
  | ctrEnc
  | ctrDec
  | xtsEnc
  | xtsDec
  | wrap
  | unwrap
  | sha256
  | sha384
  | hmac256
  | hmac384
  deriving DecidableEq, Repr

/-- The operation of a code, 0 to 15. -/
def cipOp (n : Nat) : CipOp :=
  match n with
  | 0 => .gcmEnc
  | 1 => .gcmDec
  | 2 => .gmacGen
  | 3 => .gmacVer
  | 4 => .cmacGen
  | 5 => .cmacVer
  | 6 => .ctrEnc
  | 7 => .ctrDec
  | 8 => .xtsEnc
  | 9 => .xtsDec
  | 10 => .wrap
  | 11 => .unwrap
  | 12 => .sha256
  | 13 => .sha384
  | 14 => .hmac256
  | _ => .hmac384

/-- The usage bit an operation needs; the SHA operations use no key. -/
def CipOp.usage (o : CipOp) : Option Usage :=
  match o with
  | .gcmEnc => some .enc
  | .gmacGen => some .enc
  | .ctrEnc => some .enc
  | .gcmDec => some .dec
  | .gmacVer => some .dec
  | .ctrDec => some .dec
  | .cmacGen => some .mac
  | .cmacVer => some .mac
  | .hmac256 => some .mac
  | .hmac384 => some .mac
  | .xtsEnc => some .xts
  | .xtsDec => some .xts
  | .wrap => some .kek
  | .unwrap => some .kek
  | .sha256 => none
  | .sha384 => none

/-- The operation takes a counter (R289). -/
def CipOp.takes (o : CipOp) : Bool := o = .gcmEnc || o = .gmacGen || o = .ctrEnc

/-- The operation has a tag (GCM, GMAC, CMAC). -/
def CipOp.tagged (o : CipOp) : Bool :=
  o = .gcmEnc || o = .gcmDec || o = .gmacGen || o = .gmacVer || o = .cmacGen || o = .cmacVer

/-- CIN carries a value: the received counter or the sector number; else it must be 0. -/
def CipOp.reads (o : CipOp) : Bool :=
  o = .gcmDec || o = .gmacVer || o = .cmacVer || o = .ctrDec || o = .xtsEnc || o = .xtsDec

/-- XTS: the slot pair KS, KS + 1. -/
def CipOp.pair (o : CipOp) : Bool := o = .xtsEnc || o = .xtsDec

/-- The fields of Table 11.3. -/
structure CipDesc where
  op     : CipOp
  ks     : Nat
  taglen : Nat
  src    : Nat
  dst    : Nat
  len    : Nat
  aadlen : Nat
  cin    : Nat
  taga   : Nat
  zero   : Nat
  deriving DecidableEq, Repr

/-- A descriptor's fields. -/
def cipDesc (ws : List Word) : CipDesc :=
  let w (k : Nat) : Nat := (ws.getD k 0).toNat
  { op := cipOp (w 0 % 16), ks := w 0 / 16 % 256, taglen := w 0 / 2 ^ 18 % 64, src := w 1, dst := w 2, len := w 3 % 65536,
    aadlen := w 3 / 65536, cin := w 4 + 2 ^ 32 * w 5, taga := w 6, zero := w 7 }

/-- The descriptor is well formed (R300): else BAD_DESC. -/
def CipDesc.good (x : CipDesc) : Bool :=
  decide (x.zero = 0) && (x.op.reads || decide (x.cin = 0))
    && (if x.op.tagged then decide (4 ≤ x.taglen) && decide (x.taglen ≤ 16) else decide (x.taglen = 0))
    && (!x.op.pair || (decide (16 ≤ x.len) && decide (x.len % 16 = 0) && decide (x.ks % 2 = 0)))
    && (!(x.op = .wrap || x.op = .unwrap) || (decide (16 ≤ x.len) && decide (x.len ≤ 40) && decide (x.len % 8 = 0)))

/-- The bytes an operation writes to DST. -/
def CipDesc.outLen (x : CipDesc) : Nat :=
  match x.op with
  | .gmacGen => 0
  | .gmacVer => 0
  | .cmacGen => 0
  | .cmacVer => 0
  | .wrap => x.len + 8
  | .unwrap => x.len - 8
  | .sha256 => 32
  | .sha384 => 48
  | .hmac256 => 32
  | .hmac384 => 48
  | _ => x.len

/-! ### Job memory (R299, 02 R44) -/

/-- Host SRAM holds `n` bytes from `a` on (02 Table 2.1). -/
def inSram (a n : Nat) : Bool := decide (0x10000000 ≤ a) && decide (a + n ≤ 0x10400000)

/-- The engine data window holds them. -/
def inData (a n : Nat) : Bool := decide (0x30100000 ≤ a) && decide (a + n ≤ 0x30180000)

/-- A non-secure access may touch host SRAM from an address on (R44). -/
def DieState.sramOpen (d : DieState) (secure : Bool) (a : Nat) : Bool :=
  secure || decide (d.rd sysHsramNsbase * 4096 ≤ a - 0x10000000)

/-- The engines whose data memories `n` bytes from `a` on touch answer: their hall has power, their cluster is not fenced. -/
def DieState.dataOpen (d : DieState) (a n : Nat) : Bool :=
  (List.range 32).all fun e =>
    decide (a + n ≤ 0x30100000 + 0x4000 * e) || decide (0x30104000 + 0x4000 * e ≤ a)
      || (d.hallOn (hallOfCluster (e / 8)) && !(d.cluster (e / 8)).fenced)

/-- Every byte of a range is within reach of a job. -/
def DieState.jobReach (d : DieState) (secure : Bool) (a n : Nat) : Bool :=
  n = 0 || (inSram a n && d.hallOn .host && d.sramOpen secure a) || (inData a n && d.dataOpen a n)

/-- Bytes a job reads. -/
def DieState.jobRead (d : DieState) (a n : Nat) : List Byte :=
  if a < 0x30000000 then d.host.sram.bytes (a - 0x10000000) n else d.eng.data.bytes (a - 0x30100000) n

/-- Bytes a job writes. -/
def DieState.jobWrite (d : DieState) (a : Nat) (bs : List Byte) : DieState :=
  if a < 0x30000000 then d.sramStore (a - 0x10000000) bs
  else { d with eng := { d.eng with data := d.eng.data.setBytes (a - 0x30100000) bs } }

/-- The job's accesses are all within reach. -/
def DieState.jobOpen (d : DieState) (secure : Bool) (x : CipDesc) : Bool :=
  d.jobReach secure x.src (x.aadlen + x.len) && d.jobReach secure x.dst x.outLen && d.jobReach secure x.taga x.taglen

/-! ### What an operation computes (R300, R302) -/

/-- The result of an operation: bytes for DST, bytes for TAGA, whether its check passed. -/
structure CipRes where
  out : List Byte := []
  tag : List Byte := []
  ok  : Bool := true
  deriving DecidableEq, Repr

/-- Exactly `n` bytes of a cryptographic function's output. -/
def fit (n : Nat) (bs : List Byte) : List Byte := (List.range n).map (byteAt bs)

/-- The result of an operation on its keys, salt, counter, AAD, data and the tag that is read. -/
def CipDesc.run (x : CipDesc) (keys : List (List Byte)) (salt c : Nat) (aad data tag : List Byte) : CipRes :=
  let key := keys.headD []
  let iv := gcmIv salt c
  let ctr := iv ++ [0, 0, 0, 1]
  let t (bs : List Byte) := fit x.taglen bs
  match x.op with
  | .gcmEnc => let o := fit x.len (Config.gcmCrypt key iv data); { out := o, tag := t (Config.gcmTag key iv aad o) }
  | .gcmDec => { out := fit x.len (Config.gcmCrypt key iv data), ok := decide (t (Config.gcmTag key iv aad data) = tag) }
  | .gmacGen => { tag := t (Config.gcmTag key iv (aad ++ data) []) }
  | .gmacVer => { ok := decide (t (Config.gcmTag key iv (aad ++ data) []) = tag) }
  | .cmacGen => { tag := t (Config.cmac key data) }
  | .cmacVer => { ok := decide (t (Config.cmac key data) = tag) }
  | .ctrEnc => { out := fit x.len (Config.ctrCrypt key ctr data) }
  | .ctrDec => { out := fit x.len (Config.ctrCrypt key ctr data) }
  | .xtsEnc => { out := fit x.len (Config.xts true key (keys.getD 1 []) x.cin data) }
  | .xtsDec => { out := fit x.len (Config.xts false key (keys.getD 1 []) x.cin data) }
  | .wrap => { out := fit (x.len + 8) (Config.keyWrap key data) }
  | .unwrap => { out := fit (x.len - 8) (Config.keyUnwrapData key data), ok := (Config.keyUnwrap key data).isSome }
  | .sha256 => { out := fit 32 (Config.sha256 data) }
  | .sha384 => { out := fit 48 (Config.sha384 data) }
  | .hmac256 => { out := fit 32 (Config.hmac256 key data) }
  | .hmac384 => { out := fit 48 (Config.hmac384 key data) }

/-- The result of a running job on the memory as it stands. -/
def DieState.jobResult (d : DieState) (j : CJob) : CipRes :=
  let x := cipDesc j.desc
  let c := if x.op.takes then j.c else x.cin
  x.run j.keys j.salt c (d.jobRead x.src x.aadlen) (d.jobRead (x.src + x.aadlen) x.len) (d.jobRead x.taga x.taglen)

/-- A job stops before its end with a status: how many bytes it had written to DST is open, so a free value says; a decrypting
job whose DST holds bytes is UNTRUSTED (R302). -/
def DieState.cipBreak (d : DieState) (j : CJob) (status : Nat) : DieState :=
  let x := cipDesc j.desc
  let n := if d.jobOpen j.secure x then d.freshVal.toNat % (x.outLen + 1) else 0
  let d1 := if n = 0 then d.drawn else d.drawn.jobWrite x.dst ((d.jobResult j).out.take n)
  d1.cipEnd j.num status j.c n ((x.op = .gcmDec || x.op = .unwrap) && decide (0 < n))

/-- Every running job that holds a copy which is gone ends with KEY_GONE (R296). -/
def DieState.cipKeyGone (d : DieState) : DieState :=
  (d.sec.jobs.filter fun j => !j.ended && j.refs.any fun p => !d.keyHeld p.1 p.2).foldl (fun d j => d.cipBreak j 4) d

/-- ZEROIZE of a slot (R296): the key, the shadow and every consumer's copy are wiped, epoch retries stop. An exhausted slot
stays exhausted (R291). -/
def DieState.zeroize (d : DieState) (k : Nat) : DieState :=
  let x := d.slot k
  d.setSlot k { x with active := none, shadow := none, write := none, n := 0, e := 0, res := 0, waited := false }

/-- ZEROIZE with its event; jobs that hold a copy end. -/
def DieState.zeroizeOne (d : DieState) (k : Nat) : DieState := ((d.zeroize k).cipKeyGone).raise 0x0C01 k k

/-- ZEROIZE_ALL. -/
def DieState.zeroizeAll (d : DieState) : DieState :=
  ((d.sec.slots.foldl (fun d e => d.zeroize e.1) d).cipKeyGone).raise 0x0C01 0xFFFFFFFF

/-- Every slot and shadow is wiped (R287): the Darkroom hall loses power or is reset. The jobs in flight that use a key end with
KEY_GONE, those that have not fetched it among them. -/
def DieState.wipeKeys (d : DieState) : DieState :=
  let d1 := ({ d with sec := { d.sec with slots := [], cmd := none } }).cipKeyGone
  (d1.sec.jobs.filter fun j => !j.ended && (cipDesc j.desc).op.usage.isSome).foldl (fun d j => d.cipEnd j.num 4) d1

/-! ### Lanes (R298, R303) -/

/-- A lane takes a job: it is in service, not in self-test, and no job runs on it. -/
def DieState.laneFree (d : DieState) (l : Nat) : Bool :=
  (d.rd cipLaneUp).testBit l && !(d.rd cipLaneTesting).testBit l && d.sec.jobs.all fun j => j.ended || decide (j.lane ≠ l)

/-- Changes a job in flight. -/
def DieState.onJob (d : DieState) (num : Nat) (g : CJob → CJob) : DieState :=
  { d with sec := { d.sec with jobs := d.sec.jobs.map fun j => if j.num = num ∧ !j.ended then g j else j } }

/-- A job on a lane fetches its keys (R293): the second of a pair once the first has come. -/
def DieState.jobFetch (d : DieState) (j : CJob) (l : Nat) (x : CipDesc) (u : Usage) : DieState :=
  let i : Issuer := { secure := j.secure, cluster := j.cluster }
  let (f, d1) := d.fetchKey l x.ks u x.op.takes (some i)
  if f.status ≠ 0 then d1.cipEnd j.num f.status
  else
    let d2 := d1.onJob j.num fun j => { j with keys := [f.key], refs := [(x.ks, f.gen)], salt := f.salt, c := f.c }
    if !x.op.pair then d2
    else
      let (g, d3) := d2.fetchKey l (x.ks + 1) u false (some i)
      if g.status ≠ 0 then d3.cipEnd j.num g.status
      else d3.onJob j.num fun j => { j with keys := [f.key, g.key], refs := [(x.ks, f.gen), (x.ks + 1, g.gen)] }

/-- A job starts on a lane: its descriptor, its accesses and its keys are checked in that order. -/
def DieState.jobStart (d : DieState) (j : CJob) (l : Nat) : DieState :=
  let x := cipDesc j.desc
  let d1 := d.onJob j.num fun j => { j with lane := l }
  if !x.good then d1.cipEnd j.num 8
  else if !d1.jobOpen j.secure x then d1.cipEnd j.num 9
  else
    match x.op.usage with
    | none => d1
    | some u => d1.jobFetch j l x u

/-- CIP_JOB_START: the job at the head of the queue goes to the lowest free lane; with no lane in service it ends with FAULT
(R298, R303). -/
def execCipJobStart (die : Die) (s : State) : Host.Outcome State Fault Refusal :=
  s.doOn die fun d =>
    match d.sec.jobs.find? fun j => decide (j.lane = 7) && !j.ended with
    | none => d
    | some j =>
      if !d.hallOn .engA then d
      else if d.rd cipLaneUp = 0 then d.cipEnd j.num 7
      else
        match (List.range 4).find? d.laneFree with
        | none => d
        | some l => d.jobStart j l

/-- A job completes (R301, R302): its output and tag are written, then its record. A check that fails leaves the output. -/
def DieState.jobDone (d : DieState) (j : CJob) : DieState :=
  let x := cipDesc j.desc
  if !d.jobOpen j.secure x then d.cipEnd j.num 9 j.c
  else
    let r := d.jobResult j
    let d1 := (d.jobWrite x.dst r.out).jobWrite x.taga r.tag
    d1.cipEnd j.num (if r.ok then 0 else 1) j.c r.out.length (!r.ok && (x.op = .gcmDec || x.op = .unwrap))

/-- CIP_JOB_COMPLETE: a job that runs on a lane completes (R301). -/
def execCipJobComplete (die : Die) (job : Byte) (s : State) : Host.Outcome State Fault Refusal :=
  s.doOn die fun d =>
    match d.sec.jobs.find? fun j => decide (j.num = job.toNat) && !j.ended && decide (j.lane < 4) with
    | none => d
    | some j => if d.hallOn .engA then d.jobDone j else d

/-- HOST_JOB_ISSUE: a write of CIP.HJOB_CTL with GO (R298). -/
def execHostJobIssue (a : Acc) (v : Word) (s : State) : Host.Outcome State Fault Refusal :=
  s.doOn a.die fun d =>
    d.writeReg a.req 11 0 0x60 (commitWord v 31) fun d =>
      let ch := reqCopy a.req
      let desc := (List.range 8).map fun k => BitVec.ofNat 32 (d.rd cipHjob ch k)
      match d.cipIssue (reqId a.req) (d.secure a.req) none desc with
      | some (n, d1) => (d1.wr cipHjobStatResult 1 ch).wr cipHjobStatJob n ch
      | none => d.wr cipHjobStatResult 2 ch

/-- Counts a parity error and raises CIP_PARITY (R303). -/
def DieState.parity (d : DieState) (unit info : Nat) : DieState := (d.cnt cipCntParity).raise 0x0B01 info unit

/-- A parity error in a unit (R303). -/
def DieState.parityError (d : DieState) (u : CipherUnit) : DieState :=
  match u with
  | .lane l =>
    if !(d.rd cipLaneUp).testBit l.val then d
    else
      let d1 :=
        match d.sec.jobs.find? fun j => !j.ended && decide (j.lane = l.val) with
        | some j => d.cipBreak j 7
        | none => d
      ((d1.wr cipLaneUp (d1.rd cipLaneUp - 2 ^ l.val)).wr cipLaneTesting (Nat.lor (d1.rd cipLaneTesting) (2 ^ l.val))).parity
        l.val l.val
  | .macsec p =>
    let d1 :=
      match (d.portOf p.val).rx.reverse with
      | n :: r => (d.onPort p.val fun x => { x with rx := r.reverse }).releaseFrame n
      | [] => d
    ({ d1 with sec := { d1.sec with testEnd := Tab.insert d1.sec.testEnd p.val (d1.now + 2000) } }).parity p.val
      (4 + p.val * 65536)
  | .macsecEgress p =>
    let d0 := match (d.portOf p.val).tx with
      | some t => if t.sak.isSome && !t.stomped then d.stompCount p.val t else d
      | none => d
    let d1 := d0.onPort p.val fun x =>
      { x with tx := x.tx.map fun t => if t.sak.isSome then { t with stomped := true } else t }
    ({ d1 with sec := { d1.sec with testEnd := Tab.insert d1.sec.testEnd p.val (d1.now + 2000) } }).parity p.val
      (4 + p.val * 65536)
  | .seal =>
    let d1 :=
      match d.rte.fifo with
      | f :: r => ({ d with rte := { d.rte with fifo := r } }).cnt brgCntSeal 0 f.ch
      | [] => d
    d1.parity 0 5
  | .xts => d.parity 0 6

/-- CIP_PARITY_ERROR (R303): counted, its job or frame is lost, and the unit tests itself; the flash XTS unit recomputes the
block. -/
def execCipParityError (die : Die) (u : CipherUnit) (s : State) : Host.Outcome State Fault Refusal :=
  s.doOn die fun d => d.parityError u

/-- LANE_SELFTEST_DONE (R303). -/
def execLaneSelftestDone (die : Die) (l : Fin 4) (pass : Bool) (s : State) : Host.Outcome State Fault Refusal :=
  s.doOn die fun d =>
    if !(d.rd cipLaneTesting).testBit l.val then d
    else
      let d1 := d.wr cipLaneTesting (d.rd cipLaneTesting - 2 ^ l.val)
      if pass then d1.wr cipLaneUp (Nat.lor (d1.rd cipLaneUp) (2 ^ l.val))
      else (d1.wr cipLaneFailed (Nat.lor (d1.rd cipLaneFailed) (2 ^ l.val))).raise 0x0B02 l.val l.val

/-- MACSEC_SELFTEST_DONE: the port stops counting as a closed gate once its 2 µs are over (R303). -/
def execMacsecSelftestDone (die : Die) (p : Fin 26) (s : State) : Host.Outcome State Fault Refusal :=
  s.doOn die fun d =>
    match Tab.get? d.sec.testEnd p.val with
    | some t => if t ≤ d.now then { d with sec := { d.sec with testEnd := Tab.erase d.sec.testEnd p.val } } else d
    | none => d

/-- FRESHNESS_SET: a write of CIP.FW_k_CTL (R307). -/
def execFreshnessSet (a : Acc) (k : Byte) (v : Word) (s : State) : Host.Outcome State Fault Refusal :=
  s.doOn a.die fun d => d.writeReg a.req 11 0 (0x100C + 32 * k.toNat) (commitWord v 0) fun d => d.fwSet k.toNat

/-! ### The Darkroom's commands (R288, R295, R296, R310) -/

/-- RESULT codes of DRK.CMD_STAT (11 Table 11.10). -/
inductive DrkRes where
  | ok
  | badBlob
  | slotBusy
  | notKek
  | badAttr
  | emptySlot
  | range
  | badSig
  | revoked
  deriving DecidableEq, Repr

/-- The code of a result. -/
def DrkRes.code (r : DrkRes) : Nat :=
  match r with
  | .ok => 0
  | .badBlob => 1
  | .slotBusy => 2
  | .notKek => 3
  | .badAttr => 4
  | .emptySlot => 5
  | .range => 6
  | .badSig => 7
  | .revoked => 8

/-- A GO starts a command, unless one runs (R288). The zeroizing commands wipe at once (R296). -/
def DieState.drkGo (d : DieState) : DieState :=
  if d.bit drkCmdStatBusy then d
  else
    let op := d.rd drkCmdOp
    let k := d.rd drkCmdSlot
    let d1 := { d.wr drkCmdStatBusy 1 with sec := { d.sec with cmd := some (op, k, d.rd drkCmdKek) } }
    if op = 5 then d1.zeroizeOne k else if op = 6 then d1.zeroizeAll else d1

/-- The word of a DRK.CMD write that names an operation and GO. -/
def drkWord (v : Word) (op : Nat) : Word := ((v >>> 4) <<< 4) ||| BitVec.ofNat 32 (2 ^ 31 + op)

/-- A write of DRK.CMD that starts an operation. -/
def DieState.drkStart (d : DieState) (req : Requester) (v : Word) (op : Nat) : DieState :=
  d.writeReg req 12 0 4 (drkWord v op) DieState.drkGo

/-- DRK_LOAD (R288). -/
def execDrkLoad (a : Acc) (v : Word) (s : State) : Host.Outcome State Fault Refusal := s.doOn a.die fun d => d.drkStart a.req v 1

/-- DRK_GENERATE (R288). -/
def execDrkGenerate (a : Acc) (v : Word) (s : State) : Host.Outcome State Fault Refusal :=
  s.doOn a.die fun d => d.drkStart a.req v 2

/-- DRK_IMPORT (R288). -/
def execDrkImport (a : Acc) (v : Word) (s : State) : Host.Outcome State Fault Refusal :=
  s.doOn a.die fun d => d.drkStart a.req v 3

/-- DRK_ERASE (R296). -/
def execDrkErase (a : Acc) (v : Word) (s : State) : Host.Outcome State Fault Refusal :=
  s.doOn a.die fun d => d.drkStart a.req v 4

/-- DRK_ZEROIZE (R296). -/
def execDrkZeroize (a : Acc) (v : Word) (s : State) : Host.Outcome State Fault Refusal :=
  s.doOn a.die fun d => d.drkStart a.req v 5

/-- DRK_ZEROIZE_ALL (R296). -/
def execDrkZeroizeAll (a : Acc) (v : Word) (s : State) : Host.Outcome State Fault Refusal :=
  s.doOn a.die fun d => d.drkStart a.req v 6

/-- DRK_SIGVERIFY (R310). -/
def execDrkSigverify (a : Acc) (v : Word) (s : State) : Host.Outcome State Fault Refusal :=
  s.doOn a.die fun d => d.drkStart a.req v 7

/-- Attributes of a key are legal (Table 11.1): no reserved bit, MACsec only with a 256-bit key. -/
def attrOk (a : Nat) : Bool := decide (a < 2 ^ 17) && (a.testBit 11 || (!a.testBit 0 && !a.testBit 1))

/-- A key is placed in a slot (R290, R295): a held key moves into the shadow, and the counter starts from the epoch record.
False: the shadow is still held. -/
def State.placeKey (s : State) (die : Die) (k : Nat) (key : List Byte) (a b : Nat) : Bool × State :=
  let d := s.get die
  let x := d.slot k
  if x.active.isSome && x.shadow.isSome then (false, s)
  else
    let sh := match x.active with
      | some c => if c.refs = 0 then none else some c
      | none => x.shadow
    let used := if a.testBit 11 then fit 32 key else fit 16 key
    let kv := (Config.kcv used).toNat
    let ek := 256 * d.num + k
    let rec_ := Tab.get? s.newel.epochs ek
    let res := match rec_ with
      | some (v, r) => if v = kv then some r else none
      | none => none
    let e := res.getD 0
    let full := decide (e = 2 ^ 32 - 1)
    let y : KeySlot :=
      { active := some { key := used, attrA := a, attrB := b, refs := 0, gen := d.sec.nextGen }, shadow := sh, kcv := kv,
        n := if res.isSome then 0 else 1, e := e, res := e, write := if full then none else some (e + 1, d.now),
        exhausted := x.exhausted && decide (x.kcv = kv), waited := false }
    let d1 := { (d.setSlot k y) with sec := { (d.setSlot k y).sec with nextGen := d.sec.nextGen + 1 } }
    let d2 := if full then d1.exhaust k else d1
    let blob := Config.keyWrap (Config.deviceKey d.num) (leBytes 4 a ++ leBytes 4 b ++ fit 32 used)
    let d3 := (List.range 12).foldl (fun d i => d.wr drkBlob (leAt blob (4 * i) 4) 0 i) d2
    let s1 := s.set die d3
    (true, if res.isSome then s1 else { s1 with newel := { s1.newel with epochs := Tab.insert s1.newel.epochs ek (kv, 0) } })

/-- The bytes of BLOB_0 on. -/
def DieState.blobBytes (d : DieState) (n : Nat) : List Byte := ((List.range n).map fun i => leBytes 4 (d.rd drkBlob 0 i)).flatten

/-- Random bytes of the generator. -/
def DieState.randomBytes (d : DieState) (n : Nat) : List Byte × DieState :=
  ((List.range n).map fun i => Config.random d.num (d.sec.rng + i), { d with sec := { d.sec with rng := d.sec.rng + n } })

/-- A signature by algorithm (0 ECDSA, 1 ML-DSA) and key position over the digest (R309, R310). -/
def DieState.sigCheck (d : DieState) (alg pos : Nat) (pub sig digest : List Byte) : DrkRes :=
  if 3 < pos then .range
  else if (Config.fuseRevoked d.num).getLsbD (4 * alg + pos) then .revoked
  else if Config.sha384 pub ≠ Config.fuseKeyHash d.num (4 * alg + pos) then .badSig
  else if alg = 0 then (if Config.ecdsaVerify pub sig digest then .ok else .badSig)
  else (if Config.mldsaVerify pub sig digest then .ok else .badSig)

/-- SIGVERIFY (R310): the public key and the signature lie as the signature block of an image lays them out (16 Table 16.4). -/
def DieState.sigverify (d : DieState) (operand : Nat) : DrkRes :=
  let a := d.rd drkSigAddr
  let alg := operand % 2
  let n := if alg = 0 then 0xC8 else 1952 + 3309
  if !inSram a n || !d.hallOn .host then .range
  else
    let m := d.host.sram.bytes (a - 0x10000000) n
    let digest := d.blobBytes 12
    if alg = 0 then d.sigCheck 0 (operand / 2 % 8) (m.take 97) ((m.drop 0x68).take 96) digest
    else d.sigCheck 1 (operand / 2 % 8) (m.take 1952) (m.drop 1952) digest

/-- A placing command with the key and its attributes. -/
def State.drkPlace (s : State) (die : Die) (k : Nat) (key : List Byte) (a b : Nat) : DrkRes × State :=
  if !attrOk a then (.badAttr, s)
  else
    let p := s.placeKey die k key a b
    (if p.1 then .ok else .slotBusy, p.2)

/-- ERASE of a slot (R296). -/
def DieState.erase (d : DieState) (k : Nat) : DrkRes × DieState :=
  let x := d.slot k
  match x.active, x.shadow with
  | _, some _ => (.slotBusy, d)
  | none, none => (.emptySlot, d)
  | some c, none =>
    (.ok, d.setSlot k { x with active := none, shadow := if c.refs = 0 then none else some c, write := none, n := 0, e := 0,
                               res := 0, waited := false })

/-- What a command does at its end, and its RESULT (11 Table 11.2). -/
def State.drkEnd (s : State) (die : Die) (op k kek : Nat) : DrkRes × State :=
  let d := s.get die
  match op with
  | 1 =>
    match Config.keyUnwrap (Config.deviceKey d.num) (d.blobBytes 12) with
    | none => (.badBlob, s)
    | some bs => s.drkPlace die k ((bs.drop 8).take 32) (leAt bs 0 4) (leAt bs 4 4)
  | 2 =>
    let p := d.randomBytes 32
    (s.set die p.2).drkPlace die k p.1 (d.rd drkAttrA) (d.rd drkAttrB)
  | 3 =>
    match (d.slot kek).active with
    | none => (.notKek, s)
    | some c =>
      if !c.attrA.testBit Usage.kek.bit then (.notKek, s)
      else
        match Config.keyUnwrap c.key (d.blobBytes 10) with
        | none => (.badBlob, s)
        | some bs => s.drkPlace die k bs (d.rd drkAttrA) (d.rd drkAttrB)
  | 4 => let p := d.erase k; (p.1, s.set die p.2)
  | 5 => (.ok, s)
  | 6 => (.ok, s)
  | 7 => (d.sigverify k, s)
  | _ => (.range, s)

/-- DRK_COMMAND_DONE (R288): the running command completes with its RESULT. GENERATE waits for the seeded generator. -/
def execDrkCommandDone (die : Die) (s : State) : Host.Outcome State Fault Refusal :=
  let d := s.get die
  match d.sec.cmd with
  | none => .next s
  | some (op, k, kek) =>
    if (op = 2 && !d.sec.seeded) || !d.hallOn .drk then .next s
    else
      let p := s.drkEnd die op k kek
      p.2.doOn die fun d =>
        ({ d with sec := { d.sec with cmd := none } }.wr drkCmdStatResult p.1.code).wr drkCmdStatBusy 0

/-- RNG_SEEDED (R288). -/
def execRngSeeded (die : Die) (s : State) : Host.Outcome State Fault Refusal :=
  s.doOn die fun d => { d with sec := { d.sec with seeded := true } }

/-! ### Epoch records (R290) -/

/-- EPOCH_WRITE_DONE: the record holds the reserved epoch; a count that waited at its wrap moves into the next epoch. -/
def execEpochWriteDone (die : Die) (k : Byte) (s : State) : Host.Outcome State Fault Refusal :=
  let d := s.get die
  let x := d.slot k.toNat
  match x.write with
  | none => .next s
  | some (res, _) =>
    if !d.bit nwlLinkUp then .next s
    else
      let y := { x with res := res, write := none }
      let z := if y.n = 2 ^ 32 ∧ y.e + 2 ≤ y.res then { y with n := 0, e := y.e + 1 } else y
      let s1 := s.set die (d.setSlot k.toNat z)
      .next { s1 with newel := { s1.newel with epochs := Tab.insert s1.newel.epochs (256 * d.num + k.toNat) (x.kcv, res) } }

/-- EPOCH_WRITE_RETRY: a write that has not completed within 10 ms is raised as failed and started again. -/
def execEpochWriteRetry (die : Die) (k : Byte) (s : State) : Host.Outcome State Fault Refusal :=
  s.doOn die fun d =>
    let x := d.slot k.toNat
    match x.write with
    | none => d
    | some (res, t) =>
      if d.now < t + 10000000 then d
      else (d.setSlot k.toNat { x with write := some (res, d.now) }).raiseHeld 0x0C02 k.toNat 1000000000 k.toNat k.toNat

/-! ### Debug authentication (R311) -/

/-- The challenge that a request has, drawn at its first read; none without a level or after three failures. -/
def DieState.drawChal (d : DieState) : DieState :=
  if d.rd drkDbgStatFails = 3 ∨ d.rd drkDbgReqLevel = 0 ∨ d.sec.chal.isSome then d
  else
    let p := d.randomBytes 16
    let bs := p.1 ++ fit 8 (Config.uid d.num) ++ leBytes 4 (d.rd drkDbgReqLevel) ++ leBytes 4 0
    { p.2 with sec := { p.2.sec with chal := some (bs, d.rd drkDbgReqLevel, d.now) } }

/-- Word `k` of the challenge. -/
def DieState.chalWord (d : DieState) (k : Nat) : Nat :=
  if d.rd drkDbgStatFails = 3 then 0
  else
    match d.drawChal.sec.chal with
    | some (bs, _, _) => leAt bs (4 * k) 4
    | none => 0

/-- DBG_CHALLENGE_READ (R311): a read of DRK.DBG_CHAL_k. -/
def execDbgChallengeRead (a : Acc) (k : Fin 8) (s : State) : Host.Outcome State Fault Refusal :=
  s.doOn a.die fun d => d.readReg a.req 12 0 (0x90 + 4 * k.val) (fun d => d.chalWord k.val) DieState.drawChal

/-- Every slot with NODEBUG is zeroized (R296, R311). -/
def DieState.noDebug (d : DieState) : DieState :=
  (d.sec.slots.filter fun e => (e.2.active.any fun c => c.attrA.testBit 10) || (e.2.shadow.any fun c => c.attrA.testBit 10)).foldl
    (fun d e => d.zeroizeOne e.1) d

/-- The response is tried against the debug key positions that are not revoked (R309, R311). -/
def DieState.dbgValid (d : DieState) (chal : List Byte) : Bool :=
  let sig := ((List.range 24).map fun i => leBytes 4 (Tab.get 0 d.sec.resp i)).flatten
  (List.range 2).any fun p =>
    !Config.fuseDebugRevoked d.num p && Config.ecdsaVerify (Config.fuseDebugKey d.num p) sig (Config.sha384 chal)

/-- GO submits the response (R311): one response per challenge, within 60 s of its read. -/
def DieState.dbgGo (d : DieState) : DieState :=
  let lvl := d.rd drkDbgReqLevel
  if Config.fuseDbgLock d.num then d.raise 0x0C04 lvl
  else
    match d.sec.chal with
    | none => d.raise 0x0C04 lvl
    | some (bs, l, t) =>
      let d1 := { d with sec := { d.sec with chal := none } }
      if t + 60000000000 < d.now then d1.raise 0x0C04 l
      else if d.dbgValid bs then ((if l = 2 then d1.noDebug else d1).wr drkDbgStatGranted l).raise 0x0C03 l
      else (d1.cnt drkDbgStatFails).raise 0x0C04 l

/-- DBG_RESPONSE: a write of DRK.DBG_REQ with GO (R311). -/
def execDbgResponse (a : Acc) (v : Word) (s : State) : Host.Outcome State Fault Refusal :=
  s.doOn a.die fun d => d.writeReg a.req 12 0 0x80 (commitWord v 31) DieState.dbgGo

/-- DBG_CLOSE: a write of DRK.DBG_REQ with CLOSE (R311). -/
def execDbgClose (a : Acc) (v : Word) (s : State) : Host.Outcome State Fault Refusal :=
  s.doOn a.die fun d => d.writeReg a.req 12 0 0x80 (commitWord v 30) fun d => d.wr drkDbgStatGranted 0

/-- DBG_RESPONSE_TIMEOUT: 60 s after its read a challenge has lapsed (R311). -/
def execDbgResponseTimeout (die : Die) (s : State) : Host.Outcome State Fault Refusal :=
  s.doOn die fun d =>
    match d.sec.chal with
    | some (_, _, t) => if t + 60000000000 ≤ d.now then { d with sec := { d.sec with chal := none } } else d
    | none => d

end Sys2Proof.Machine
end

