-- ==== Sys2Proof/Machine/Stairwell.lean ====
section
/-! DEFINITION. Machine/Stairwell.lean: the Stairwell link with its retry and loss, atomics of the bridge, heartbeats, the messages
of Mirror and Vote mode, role changes (chapter 12). -/

namespace Sys2Proof.Machine

/-! ### Loss of the partner and of the link (R317, R325, R331, R338; 17 R431) -/

/-- The CAN entry or LIN response that a tag names leaves with its lost vote (R336). -/
def DieState.voteDropBus (d : DieState) (origin egress : Nat) : DieState :=
  if egress < 0x60 then
    let ch := egress - 0x40
    match (d.canCh ch).q.find? fun e => e.eligible.isNone && decide (e.origin = origin) with
    | none => d
    | some e =>
      let d1 := d.onCan ch fun c => { c with q := c.q.erase e }
      if e.src = 2 then d1.wr canCmbCtrlPend 0 ch e.buf else d1
  else
    let ch := egress - 0x60
    match (d.linCh ch).tags.find? fun e => decide (e.2 = origin) && decide (Tab.get? (d.linCh ch).waits e.1 = some 0) with
    | none => d
    | some e => d.linClear ch e.1

/-- An item of the vote stage is dropped; its partner's digest, should it come, will be late. -/
def DieState.voteDrop (d : DieState) (it : VoteItem) : DieState :=
  let d1 := { d with stw := { d.stw with stage := d.stw.stage.erase it, late := ((it.origin, it.egress) :: d.stw.late).take 4096 } }
  match it.desc with
  | some n => (d1.releaseFrame n).voteRelease
  | none => d1.voteDropBus it.origin it.egress

/-- Every output that waits for its vote is dropped and counted in VOTE_TIMEOUT (17 R431). -/
def DieState.voteCut (d : DieState) : DieState :=
  (d.stw.stage.filter fun it => !it.matched).foldl (fun d it => (d.cnt stwCntVoteTimeout).voteDrop it) d

/-- The partner counts as lost: MISS misses have passed. -/
def DieState.partnerGone (d : DieState) : Bool := decide (d.rd stwHbMiss ≤ d.stw.hbMiss)

/-- A standby, or a voter with DEGRADE, asks the Newel to confirm the loss (R331, R338). -/
def DieState.askNewel (d : DieState) (cause : Nat) : DieState :=
  let ask := (decide (d.pairMode = 1) && decide (d.role = 2)) || (d.votes && d.bit stwPairDegrade)
  { d with stw := { d.stw with failover := if ask then some (cause + 1, d.now) else d.stw.failover } }

/-- The partner is lost (R324, R325): `cause` 0 heartbeats, 1 link-down. `retry` names the steps of a Stairwell retry that the loss
superseded; a vote that waited is superseded too. -/
def DieState.partnerLost (d : DieState) (cause : Nat) (retry : Option Nat) : DieState :=
  let waiting := (d.stw.stage.filter fun it => !it.matched).length
  let voting := d.votes && decide (waiting ≠ 0)
  let d1 := d.cnt stwCntPartnerLost
  let d2 := match retry with
    | some n => d1.raise 0x1401 (1 + min n 255 * 65536)
    | none => d1
  let d3 := if voting then d2.voteCut.raise 0x1401 (2 + min waiting 255 * 65536) else d2
  let d4 := if retry.isNone && !voting then d3.raise 0x0F03 cause else d3
  d4.askNewel cause

/-- One end of the link goes down (R317): landings and the replay buffer are flushed, outstanding requests complete with
LINK_DOWN, messages in flight are lost, P_28 goes down, semaphores of the other die are released. -/
def DieState.endDown (d : DieState) (info : Nat) (quiet : Bool) : DieState :=
  let x := d.stw
  let lost := x.replay.length + ((List.range 4).map fun v => (x.landing.toList.getD v []).length).foldl (· + ·) 0
  let d1 := { d with
    stw := { x with out := Vector.replicate 4 [], landing := Vector.replicate 4 [], replay := [], txSeq := 0, rxSeq := 0, retries := 0,
                    failAt := none, retryNow := false, downAt := d.now }
    bus := { d.bus with waiting := d.bus.waiting.filter fun p => decide (p.addr < 0x1000000000) } }
  let d2 := (((((d1.wr stwLinkUp 0).wr stwLinkTraining 0).wr stwLinkLanes 0).cnt stwCntLostFlits 0 0 0 lost).cnt stwCntLinkDowns)
  let d3 := (d.bus.waiting.filter fun p => !p.timedOut && decide (0x1000000000 ≤ p.addr)).foldl (fun d p => d.complete p.req p.addr .linkDown) d2
  let d4 := if d3.bit ethLinkUp 28 then d3.linkFall 28 else d3
  let d5 := d4.semLinkLost
  if quiet then d5 else d5.raise 0x0F02 info

/-- What the loss of the link is to one die; `sup`: partner loss by heartbeats has superseded its retry. -/
def DieState.linkLost (d : DieState) (info : Nat) (sup : Bool) : DieState :=
  if !d.linkUp then d
  else
    let gone := d.partnerGone
    let d1 := d.endDown info sup
    if sup then d1.partnerLost 0 (some d.stw.retries)
    else if gone then d1
    else ({ d1 with stw := { d1.stw with hbMiss := d1.rd stwHbMiss } }).partnerLost 1 none

/-- The link is declared down on both dies. -/
def State.linkDown (s : State) (info : Nat) (sup : Option Die := none) : State :=
  (s.on .west fun d => d.linkLost info (sup = some Die.west)).on .east fun d => d.linkLost info (sup = some Die.east)

/-! ### Flits (R314, R316, R318) -/

/-- A flit is accepted: its message lands, the sender's window moves on. -/
def State.flitAccept (s : State) (d : Die) (v : Fin 4) (m : VMsg) (replayed : Bool) : State :=
  let s1 := s.on d fun x =>
    let l := x.stw.landing.get v ++ [m]
    (({ x with stw := { x.stw with landing := x.stw.landing.set v l, rxSeq := (x.stw.rxSeq + 1) % 256 } }).cnt stwCntFlitsRx).peak
      stwVcPeak l.length 0 v.val
  s1.on d.other fun y =>
    let t := y.stw
    let t1 := if replayed then { t with replay := t.replay.tail, retryNow := !t.replay.tail.isEmpty }
      else { t with out := t.out.set v (t.out.get v).tail }
    ({ y with stw := { t1 with txSeq := (t.txSeq + 1) % 256, retries := 0, failAt := none } }).cnt stwCntFlitsTx

/-- A flit is discarded: it stays in, or joins, the replay buffer. -/
def State.flitDiscard (s : State) (d : Die) (v : Fin 4) (m : VMsg) (bad replayed : Bool) : State :=
  let s1 := if bad then s.on d fun x => x.cnt stwCntCrcErr else s
  s1.on d.other fun y =>
    let t := y.stw
    let t1 := if replayed then { t with retryNow := false, retries := t.retries + 1 }
      else { t with out := t.out.set v (t.out.get v).tail, replay := t.replay ++ [(v.val, m)] }
    ({ y with stw := { t1 with failAt := some (t.failAt.getD y.now) } }).cnt stwCntFlitsTx

/-- A flit arrives at a die. In sequence it is the replayed flit, or without a retry the next message of its virtual channel; out
of sequence it is one that follows a bad flit, and is discarded with it. -/
def State.flitArrive (s : State) (d : Die) (f : Flit) : State :=
  let x := s.get d
  let t := (s.get d.other).stw
  if !x.linkUp || !(s.get d.other).linkUp then s
  else if f.seq.toNat = x.stw.rxSeq then
    match t.replay, t.out.get f.vc with
    | e :: _, _ =>
      if !t.retryNow || decide (e.1 ≠ f.vc.val) || decide (32 ≤ (x.stw.landing.get f.vc).length) then s
      else if f.crcOk then s.flitAccept d f.vc e.2 true
      else s.flitDiscard d f.vc e.2 true true
    | [], m :: _ =>
      if 32 ≤ (x.stw.landing.get f.vc).length then s
      else if f.crcOk then s.flitAccept d f.vc m false
      else s.flitDiscard d f.vc m true false
    | [], [] => s
  else
    match t.out.get f.vc with
    | m :: _ =>
      if t.replay.isEmpty || t.retryNow || decide (128 ≤ t.replay.length) then s
      else s.flitDiscard d f.vc m (!f.crcOk) false
    | [] => s

/-- A flit that a die sends while its injection runs: every EVERY-th, and the BURST − 1 that follow it, carry corrupted bits on the
lanes set in LANES, and are counted in INJ (17 R441). -/
def DieState.flitInject (d : DieState) : Bool × DieState :=
  let g := d.guard
  let every := d.rd prtStwAEvery
  let hit := decide (every ≠ 0) && decide ((g.flits + 1) % every = 0)
  let bad := decide (every ≠ 0) && decide (d.rd prtStwB ≠ 0) && (decide (0 < g.burst) || hit)
  let left := if 0 < g.burst then g.burst - 1 else if hit then d.rd prtStwABurst - 1 else 0
  let d1 := { d with guard := { g with flits := if every = 0 then 0 else g.flits + 1, burst := if every = 0 then 0 else left } }
  (bad, if bad then d1.cnt prtStwC else d1)

/-- STW_FLIT_RECEIVE. A flit that the sender's injection has corrupted arrives with a bad CRC. -/
def execStwFlitReceive (d : Die) (f : Flit) (s : State) : Host.Outcome State Fault Refusal :=
  let p := (s.get d.other).flitInject
  let t := s.flitArrive d { f with crcOk := f.crcOk && !p.1 }
  .next (if t = s then s else (s.on d.other fun _ => p.2).flitArrive d { f with crcOk := f.crcOk && !p.1 })

/-- STW_FLIT_REPLAY: a negative acknowledgement reaches the sender, which replays from the bad flit. -/
def execStwFlitReplay (d : Die) (seq : BitVec 8) (s : State) : Host.Outcome State Fault Refusal :=
  s.doOn d fun x =>
    if x.linkUp ∧ !x.stw.replay.isEmpty ∧ !x.stw.retryNow ∧ seq.toNat = x.stw.txSeq then
      ({ x with stw := { x.stw with retryNow := true } }).cnt stwCntRetries
    else x

/-- STW_RETRY_TIMEOUT: 64 consecutive retries of a flit have failed, or the budget has run out since the first failure (R317). -/
def execStwRetryTimeout (d : Die) (s : State) : Host.Outcome State Fault Refusal :=
  let x := s.get d
  if !x.linkUp then .next s
  else if 64 ≤ x.stw.retries then .next (s.linkDown 0)
  else
    match x.stw.failAt with
    | some t => if t + 1000 * x.rd stwRetry ≤ x.now then .next (s.linkDown 1) else .next s
    | none => .next s

/-- The link begins to train. -/
def DieState.train (d : DieState) : DieState :=
  { d.wr stwLinkTraining 1 with stw := { d.stw with downAt := d.now } }

/-- STW_RETRAIN_TIMER: with AUTO, a link that is down trains again 1 ms after it went down or trained last (R317). -/
def execStwRetrainTimer (d : Die) (s : State) : Host.Outcome State Fault Refusal :=
  s.doOn d fun x =>
    if x.hallOn .stw ∧ x.bit stwLinkCtlAuto ∧ !x.linkUp ∧ x.stw.downAt + 1000000 ≤ x.now then x.train else x

/-- STW_RETRAIN: a write of RETRAIN = 1; a link that is up goes down for it (R317). -/
def execStwRetrain (a : Acc) (v : Word) (s : State) : Host.Outcome State Fault Refusal :=
  let ok := decide ((s.get a.die).regStatus a.req 15 0 0x24 true = .okay)
  let s1 := s.on a.die fun d => d.writeReg a.req 15 0 0x24 (commitWord v 0) fun d => d
  .next (if ok then (s1.linkDown 0).on a.die DieState.train else s1)

/-- One end of the link is up (R315); in Split mode P_28 with it. -/
def DieState.endUp (d : DieState) (lanes : Nat) : DieState :=
  let d1 := { d with stw := { d.stw with txSeq := 0, rxSeq := 0, hbMiss := 0, hbSeen := d.now } }
  let d2 := ((d1.wr stwLinkUp 1).wr stwLinkTraining 0).wr stwLinkLanes lanes
  (if d2.pairMode = 0 then d2.wr ethLinkUp 1 28 else d2).raise 0x0F01 lanes

/-- STW_LINK_UP: training ends on the lanes given; both Stairwell halls are on. -/
def execStwLinkUp (lanes : Byte) (s : State) : Host.Outcome State Fault Refusal :=
  if s.west.hallOn .stw ∧ s.east.hallOn .stw ∧ !s.west.linkUp ∧ !s.east.linkUp ∧ lanes ≠ 0 then
    .next ((s.on .west fun d => d.endUp lanes.toNat).on .east fun d => d.endUp lanes.toNat)
  else .next s

/-- STW_RESPONSE_RECEIVE: the response at the front of the VC_2 landing completes its access (R319). -/
def execStwResponseReceive (d : Die) (s : State) : Host.Outcome State Fault Refusal :=
  s.doOn d fun x =>
    match x.stw.landing.get (2 : Fin 4) with
    | .resp tag r :: _ => (x.popLanding 2).answerAcc tag r.status r.value
    | _ => x

/-! ### Atomics of the bridge (R323) -/

/-- Where an AMO, LR or SC is performed, and for whom: a request of the remote die at the die that is named, any other at the
other die, whose window the address may name (02 R37). -/
def bridgeTarget (a : Acc) : Die × Nat :=
  match a.req with
  | .remote o _ => (a.die, o.val)
  | r => (a.die.other, reqId r)

/-- The address at the target. -/
def windowAddr (addr : Nat) : Nat := if addr < 0x1000000000 then addr else addr - 0x1000000000

/-- The status with which an AMO, LR or SC begins at its target. -/
def State.bridgeStatus (s : State) (a : Acc) (addr size : Nat) : Status :=
  let t := s.get (bridgeTarget a).1
  let x := windowAddr addr
  if !(s.get a.die).linkUp then .linkDown
  else if (size ≠ 4 ∧ size ≠ 8) ∨ addr % size ≠ 0 ∨ !inSram x size then .sizeError
  else if !t.hallOn .host then .hallAsleep
  else if !t.sramOpen ((s.get a.die).secure a.req) x then .secureViolation
  else .okay

/-- The bytes of a value. -/
def valueBytes (size : Nat) (v : DWord) : List Byte := leBytes size v.toNat

/-- What an AMO stores: the operation on the old value and the operand, in the width of the access (RV64 A extension). -/
def amoValue (op : AmoOp) (size : Nat) (old v : Nat) : Nat :=
  let w := 8 * size
  let x := BitVec.ofNat w old
  let y := BitVec.ofNat w v
  match op with
  | .swap => y.toNat
  | .add => (x + y).toNat
  | .and => (x &&& y).toNat
  | .or => (x ||| y).toNat
  | .xor => (x ^^^ y).toNat
  | .min => if x.toInt ≤ y.toInt then x.toNat else y.toNat
  | .max => if x.toInt ≤ y.toInt then y.toNat else x.toNat
  | .minu => if x.toNat ≤ y.toNat then x.toNat else y.toNat
  | .maxu => if x.toNat ≤ y.toNat then y.toNat else x.toNat

/-- An atomic access: refused with its status at the requester, or performed on the target, whose answer completes it. -/
def State.bridgeDo (s : State) (a : Acc) (addr size : Nat) (act : DieState → Nat → Nat → Nat × DieState) : State :=
  let st := s.bridgeStatus a addr size
  let t := (bridgeTarget a).1
  if st ≠ .okay then s.on a.die fun d => d.complete a.req addr st
  else
    let r := act (s.get t) (bridgeTarget a).2 (windowAddr addr - 0x10000000)
    (s.set t r.2).on a.die fun d => d.complete a.req addr .okay r.1

/-- STW_AMO. -/
def execStwAmo (a : Acc) (op : AmoOp) (addr size : Nat) (v : DWord) (s : State) : Host.Outcome State Fault Refusal :=
  .next (s.bridgeDo a addr size fun d o off =>
    let old := leNat (d.host.sram.bytes off size)
    (old, d.sramStore off (valueBytes size (BitVec.ofNat 64 (amoValue op size old v.toNat))) (some o)))

/-- STW_LR. -/
def execStwLr (a : Acc) (addr size : Nat) (s : State) : Host.Outcome State Fault Refusal :=
  .next (s.bridgeDo a addr size fun d o off =>
    (leNat (d.host.sram.bytes off size), { d with stw := { d.stw with resv := Tab.insert d.stw.resv o (off / 64, d.now) } }))

/-- An SC finds its reservation unbroken: on the line, less than 2 µs old. -/
def DieState.scWins (d : DieState) (o off : Nat) : Bool :=
  match Tab.get? d.stw.resv o with
  | some (l, t) => decide (l = off / 64) && decide (d.now < t + 2000)
  | none => false

/-- STW_SC: 0 when it wrote, else 1 (the result of the RV64 A extension). -/
def execStwSc (a : Acc) (addr size : Nat) (v : DWord) (s : State) : Host.Outcome State Fault Refusal :=
  .next (s.bridgeDo a addr size fun d o off =>
    if d.scWins o off then
      let d1 := d.sramStore off (valueBytes size v)
      (0, { d1 with stw := { d1.stw with resv := Tab.erase d1.stw.resv o } })
    else (1, d.cnt stwCntLrscBroken))

/-- STW_RESERVATION_EXPIRY. -/
def execStwReservationExpiry (d : Die) (origin : Fin 32) (s : State) : Host.Outcome State Fault Refusal :=
  s.doOn d fun x =>
    match Tab.get? x.stw.resv origin.val with
    | some (_, t) => if t + 2000 ≤ x.now then { x with stw := { x.stw with resv := Tab.erase x.stw.resv origin.val } } else x
    | none => x

/-! ### Heartbeats (R324) -/

/-- STW_HEARTBEAT_SEND: every PERIOD µs. -/
def execStwHeartbeatSend (d : Die) (s : State) : Host.Outcome State Fault Refusal :=
  s.doOn d fun x =>
    if x.linkUp ∧ x.stw.hbSent + 1000 * x.rd stwHbPeriod ≤ x.now then
      ({ x with stw := { x.stw with hbSent := x.now } }).sendVc 0 (.heartbeat x.pairMode x.role)
    else x

/-- STW_HEARTBEAT_RECEIVE: the heartbeat at the front of the VC_0 landing. -/
def execStwHeartbeatReceive (d : Die) (s : State) : Host.Outcome State Fault Refusal :=
  s.doOn d fun x =>
    match x.stw.landing.get (0 : Fin 4) with
    | .heartbeat _ _ :: _ =>
      let y := x.popLanding 0
      { y with stw := { y.stw with hbSeen := y.now, hbMiss := 0 } }
    | _ => x

/-- STW_HEARTBEAT_MISS: a period without a heartbeat; at MISS in a row the partner is lost, and a retry that still runs is
cancelled with the link declared down (R339; 17 R431). -/
def execStwHeartbeatMiss (d : Die) (s : State) : Host.Outcome State Fault Refusal :=
  let x := s.get d
  if x.now < x.stw.hbSeen + 1000 * x.rd stwHbPeriod ∨ !x.hallOn .stw then .next s
  else
    let first := !x.partnerGone
    let y := ({ x with stw := { x.stw with hbSeen := x.now, hbMiss := x.stw.hbMiss + 1 } }).cnt stwCntHbMissed
    let s1 := s.set d y
    if !(first && y.partnerGone) then .next s1
    else if y.linkUp && y.stw.failAt.isSome then .next (s1.linkDown 0 (some d))
    else .next (s1.on d fun z => z.partnerLost 0 none)

/-! ### Mirror mode (R329, R330) -/

/-- A replicated frame enters P_27 as it did on the active die. -/
def DieState.replicaEng (d : DieState) (f : SFrame) : DieState :=
  let p := d.storeFrame { f with refs := 1, tag := d.gen, inv := none, tsReq := none }
  (p.2.enqueueCopy p.1 27 f.tc).releaseFrame p.1

/-- The die takes what the running die replicates: a joining die from the cue of its join on (R333). -/
def DieState.takesReplicas (d : DieState) : Bool := decide (d.role ≠ 4) || d.stw.joining

/-- A replicated item: a frame for P_27 or the routes, a learn item, or in Vote mode a frame as West received it. -/
def DieState.replicaAct (d : DieState) (m : VMsg) : DieState :=
  match m with
  | .replica true f => if d.hallOn .swc then d.replicaEng f else d
  | .replica false f => d.ethRoutes { f with tag := d.gen }
  | .learn i => if d.hallOn .swc then d.learnPush i else d
  | .ingress p f st pos o => if d.hallOn .swc && !d.fences.contains (fenceOf 4 p) then d.ethReceive p f st pos o else d
  | _ => d

/-- A message that replicates something. -/
def VMsg.replicates (m : VMsg) : Bool :=
  match m with
  | .replica _ _ => true
  | .learn _ => true
  | .ingress _ _ _ _ _ => true
  | _ => false

/-- MIRROR_REPLICA_RECEIVE: the item at the front of the VC_3 landing (R329, R333, R334). -/
def execMirrorReplicaReceive (d : Die) (s : State) : Host.Outcome State Fault Refusal :=
  s.doOn d fun x =>
    match x.stw.landing.get (3 : Fin 4) with
    | m :: _ =>
      if !m.replicates then x
      else if x.takesReplicas then (x.popLanding 3).replicaAct m
      else x.popLanding 3
    | [] => x

/-- REPL_DROP: the item that waits at the head of VC_3 has found no credit for 20 µs. -/
def execReplDrop (d : Die) (s : State) : Host.Outcome State Fault Refusal :=
  let full := decide (32 ≤ ((s.get d.other).stw.landing.get (3 : Fin 4)).length)
  s.doOn d fun x =>
    let drop := ({ x with stw := { x.stw with out := x.stw.out.set (3 : Fin 4) (x.stw.out.get (3 : Fin 4)).tail } }).cnt stwCntReplDrop
    match full, x.stw.out.get (3 : Fin 4) with
    | true, .replica _ _ :: _ => drop
    | true, .learn _ :: _ => drop
    | true, .ingress _ _ _ _ _ :: _ => drop
    | _, _ => x

/-- A completion notice retires the standby's entry of its channel and tag (R330). -/
def DieState.noticeAct (d : DieState) (lin : Bool) (ch origin status : Nat) : DieState :=
  if lin then
    match (d.linCh ch).unsent.find? fun i => decide (Tab.get 0 (d.linCh ch).tags i = origin) with
    | some i => d.onLin ch fun c => { c with unsent := c.unsent.erase i }
    | none => d.cnt stwCntNoticeMiss
  else
    match (d.canCh ch).q.find? fun e => decide (e.origin = origin) with
    | some e => d.canRetire ch e status 0
    | none => d.cnt stwCntNoticeMiss

/-- MIRROR_NOTICE_RECEIVE: the notice at the front of the VC_0 landing. -/
def execMirrorNoticeReceive (d : Die) (s : State) : Host.Outcome State Fault Refusal :=
  s.doOn d fun x =>
    match x.stw.landing.get (0 : Fin 4) with
    | .notice lin ch o st :: _ => (x.popLanding 0).noticeAct lin ch o st
    | _ => x

/-! ### Role swap (R332) and joining (R333) -/

/-- HANDOVER_GO: a write of STW.HANDOVER with GO names the cue of a role swap. -/
def execHandoverGo (a : Acc) (v : Word) (s : State) : Host.Outcome State Fault Refusal :=
  s.doOn a.die fun d =>
    d.writeReg a.req 15 0 0x10 (commitWord v 31) fun d =>
      if d.pairMode = 1 then { d with stw := { d.stw with hoCue := some (v.toNat % 1024) } } else d

/-- The number of a shared channel. -/
def sharedNum (u : BoundaryUnit) : Option Nat :=
  match u with
  | .port _ => none
  | .can c => if c.val < 24 then some (64 + c.val) else none
  | .lin l => some (128 + l.val)

/-- The shared channels that run on a die. -/
def DieState.sharedRunning (d : DieState) : List Nat :=
  ((List.range 24).filter d.canLive).map (64 + ·) ++ ((List.range 8).filter d.linUp).map (128 + ·)

/-- A notice of the channel has not been taken by the standby yet. -/
def State.noticeWaits (s : State) (old : Die) (u : Nat) : Bool :=
  let hit (m : VMsg) : Bool :=
    match m with
    | .notice lin ch _ _ => decide (u = (if lin then 128 else 64) + ch)
    | _ => false
  ((s.get old).stw.out.get (0 : Fin 4)).any hit || ((s.get old.other).stw.landing.get (0 : Fin 4)).any hit

/-- The channel has moved on one die; when all have, HANDOVER_DONE. -/
def DieState.moved (d : DieState) (u : Nat) : DieState :=
  match d.stw.hoAt with
  | none => d
  | some t =>
    let ms := u :: d.stw.hoMoved.erase u
    if d.sharedRunning.all ms.contains then
      ({ d with stw := { d.stw with hoAt := none, hoMoved := [] } }).raise 0x0F06 ((d.now - t) / 1000)
    else { d with stw := { d.stw with hoMoved := ms } }

/-- HANDOVER_CHANNEL_MOVE: the frame in progress on the die that was active has ended, and its notice has reached the standby or
5 µs have passed; the Newel moves the channel. -/
def execHandoverChannelMove (u : BoundaryUnit) (s : State) : Host.Outcome State Fault Refusal :=
  let old : Die := s.newel.active.other
  match sharedNum u, (s.get old).stw.hoAt with
  | some n, some t =>
    if (s.get old).unitIdle n && (!s.noticeWaits old n || decide (t + 5000 ≤ (s.get old).now)) then
      let s1 := (s.on .west fun d => d.moved n).on .east fun d => d.moved n
      .next { s1 with newel := { s1.newel with moved := n :: s1.newel.moved.erase n } }
    else .next s
  | _, _ => .next s

/-- JOIN_TIMEGO: on East, running, West takes East's bases, and East follows West again (R333). -/
def execJoinTimego (a : Acc) (v : Word) (s : State) : Host.Outcome State Fault Refusal :=
  let ok := decide ((s.get a.die).regStatus a.req 15 0 0x14 true = .okay)
  let s1 := s.on a.die fun d => d.writeReg a.req 15 0 0x14 (commitWord v 30) fun d => d
  if ok ∧ a.die = .east ∧ s.east.linkUp ∧ s.east.pairMode ≠ 0 ∧ s.west.role = 4 then
    let s2 := s1.on .west fun w => w.followBases s1.east
    .next (s2.on .east fun e =>
      { (e.wr timStatFollowing 1).wr timStatFollowLost 0 with stw := { e.stw with tsAt := e.now } })
  else .next s1

/-- JOIN_GO: a write of STW.JOIN with GO names the cue of the join (R333). -/
def execJoinGo (a : Acc) (v : Word) (s : State) : Host.Outcome State Fault Refusal :=
  s.doOn a.die fun d =>
    d.writeReg a.req 15 0 0x14 (commitWord v 31) fun d =>
      if d.pairMode ≠ 0 then { d with stw := { d.stw with joinCue := some (v.toNat % 1024) } } else d

/-- A slot of the running die is applied as a put with its own stamp and status (05 R117). -/
def DieState.copySlot (d : DieState) (h : Nat) (x : Slot) : DieState :=
  let old := d.galSlot h
  if x.status = 0 ∨ !old.passes x.stamp then d
  else (d.galUpdate h x.value x.stamp x.status x.source).galUpdated h old 0

/-- A dynamic FDB entry of the running die is taken into its slot, unless the key or the slot is in use. -/
def DieState.copyFdb (d : DieState) (i : Nat) (e : List Nat) : DieState :=
  let k := fdbKey e
  if fdbValid e && !fdbStatic e && !fdbValid (d.entry 0 i) && (d.fdbFindAs d.gen k).isNone then d.setEntry 0 i e else d

/-- JOIN_COPY_DONE: the copy pass ends; a degraded voter votes again (R333, R338). -/
def execJoinCopyDone (d : Die) (s : State) : Host.Outcome State Fault Refusal :=
  let x := s.get d
  let y := s.get d.other
  if x.role = 4 ∧ y.role ≠ 4 ∧ x.stw.joining ∧ y.stw.joining ∧ x.linkUp then
    let z := y.gal.slots.foldl (fun (z : DieState) e => z.copySlot e.1 e.2) x
    let z1 := (y.tbl.ent.filter fun e => decide (e.1 < 65536)).foldl (fun (z : DieState) e => z.copyFdb e.1 (y.entry 0 e.1)) z
    let z2 := ({ z1 with stw := { z1.stw with joining := false } }).wr stwPairStatRole (if z1.pairMode = 1 then 2 else 3)
    let s1 := (s.set d (z2.raise 0x0F07 y.gal.slots.length)).on d.other fun y =>
      let y1 : DieState := { y with stw := { y.stw with joining := false } }
      if y1.bit stwPairStatDegraded then (y1.wr stwPairStatDegraded 0).wr stwPairStatRole 3 else y1
    .next { s1 with newel := { s1.newel with lone := false } }
  else .next s

/-! ### Vote mode (R336, R337) -/

/-- A CAN or LIN entry has its match: it is eligible from the alignment instant (R337). -/
def DieState.voteEligible (d : DieState) (origin egress t : Nat) : DieState :=
  if egress < 0x60 then
    d.onCan (egress - 0x40) fun c =>
      { c with q := c.q.map fun e => if e.origin = origin ∧ e.eligible = none then { e with eligible := some t } else e }
  else
    d.onLin (egress - 0x60) fun c =>
      { c with waits := c.waits.map fun w => if w.2 = 0 ∧ Tab.get 0 c.tags w.1 = origin then (w.1, t + 1) else w }

/-- A digest of the other die meets the output that waits for it, comes late, or waits for it (R336). -/
def DieState.digestAct (d : DieState) (g : VoteItem) : DieState :=
  match d.stw.stage.find? fun it => decide (it.origin = g.origin) && decide (it.egress = g.egress) && !it.matched with
  | some it =>
    if !it.agrees g then (d.voteMismatch it.origin).voteDrop it
    else
      let d1 := d.cnt stwCntVoteMatch
      match it.desc with
      | some _ =>
        ({ d1 with stw := { d1.stw with stage := d1.stw.stage.map fun x => if x = it then { x with matched := true } else x } }).voteRelease
      | none =>
        ({ d1 with stw := { d1.stw with stage := d1.stw.stage.erase it } }).voteEligible it.origin it.egress
          (max it.stamp g.stamp + 2000)
  | none =>
    if d.stw.late.contains (g.origin, g.egress) then
      ({ d with stw := { d.stw with late := d.stw.late.erase (g.origin, g.egress) } }).cnt stwCntVoteLate
    else { d with stw := { d.stw with early := d.stw.early ++ [{ g with until_ := d.now + 1000 * d.rd stwVoteWin }] } }

/-- VOTE_DIGEST_RECEIVE: the digest at the front of the VC_3 landing. -/
def execVoteDigestReceive (d : Die) (s : State) : Host.Outcome State Fault Refusal :=
  s.doOn d fun x =>
    match x.stw.landing.get (3 : Fin 4) with
    | .digest o p t len crc st :: _ =>
      (x.popLanding 3).digestAct { origin := o, egress := p, tc := t, len := len, crc := crc, until_ := 0, stamp := st }
    | _ => x

/-- VOTE_WINDOW_EXPIRY: the window of an output, or of a digest that came before its output, has run out. -/
def execVoteWindowExpiry (d : Die) (tag : DWord) (egress : Byte) (s : State) : Host.Outcome State Fault Refusal :=
  s.doOn d fun x =>
    let hit (it : VoteItem) : Bool :=
      decide (it.origin = tag.toNat) && decide (it.egress = egress.toNat) && !it.matched && decide (it.until_ ≤ x.now)
    match x.stw.stage.find? hit with
    | some it => (x.cnt stwCntVoteTimeout).voteDrop it
    | none => { x with stw := { x.stw with early := x.stw.early.filter fun it => !hit it } }

/-- The alignment instant of a waiting entry has come. -/
def DieState.aligned (d : DieState) (t : Nat) : Bool := decide (0 ≤ posDiff (d.position 0) t)

/-- VOTE_ALIGN (R337). -/
def execVoteAlign (d : Die) (tag : DWord) (egress : Byte) (s : State) : Host.Outcome State Fault Refusal :=
  s.doOn d fun x =>
    let p := egress.toNat
    if p < 0x40 then x
    else if p < 0x60 then
      x.onCan (p - 0x40) fun c =>
        { c with q := c.q.map fun e => if e.origin = tag.toNat ∧ e.eligible.any x.aligned then { e with eligible := some 0 } else e }
    else
      x.onLin (p - 0x60) fun c =>
        { c with waits := c.waits.filter fun w => !(decide (Tab.get 0 c.tags w.1 = tag.toNat) && decide (w.2 ≠ 0) && x.aligned (w.2 - 1)) }

end Sys2Proof.Machine
end

