-- ==== Sys2Proof/Machine/Loads.lean ====
section
/-! DEFINITION. Machine/Loads.lean: the Newel's load channels with their protection, its serial watchdogs, Safelight and its pins
(14 R372 to R393). -/

namespace Sys2Proof.Machine

/-! ### The Newel's words and channels -/

/-- The mode that load commands follow: a Vote pair that has degraded runs as a lone Mirror active die (12 R338). -/
def NewelState.cmdMode (w : NewelState) : Nat := if w.lone then 1 else w.mode

/-- The number of a die: 0 West, 1 East. -/
def dieIdx (d : Die) : Fin 2 := if d = .west then 0 else 1

/-- Changes the Newel. -/
def State.onNewel (s : State) (g : NewelState → NewelState) : State := { s with newel := g s.newel }

/-- The Newel's end of a die's link. -/
def NewelState.linkOf (w : NewelState) (d : Die) : NwLink := w.link.get (dieIdx d)

/-- Changes the Newel's end of a link. -/
def NewelState.onLink (w : NewelState) (d : Die) (g : NwLink → NwLink) : NewelState :=
  { w with link := w.link.set (dieIdx d) (g (w.linkOf d)) }

/-- A die's watchdog. -/
def NewelState.wdOf (w : NewelState) (d : Die) : WdState := w.wd.get (dieIdx d)

/-- Changes a die's watchdog. -/
def NewelState.onWd (w : NewelState) (d : Die) (g : WdState → WdState) : NewelState :=
  { w with wd := w.wd.set (dieIdx d) (g (w.wdOf d)) }

/-- The key of an applied word: WD_CFG is held per die, every other word once. -/
def cfgKey (d : Die) (addr : Nat) : Nat := if addr = 0x18 ∨ addr = 0x19 then 65536 * (1 + (dieIdx d).val) + addr else addr

/-- An applied configuration word; a word never applied holds its reset value. -/
def NewelState.cfgWord (w : NewelState) (d : Die) (addr : Nat) : Nat :=
  Tab.get (wordOf [] 16 0 (4 * (addr / 2)) / 65536 ^ (addr % 2) % 65536) w.cfg (cfgKey d addr)

/-- An applied configuration register: the words at o/2 and o/2 + 1 (R394). -/
def NewelState.cfgReg (w : NewelState) (d : Die) (off : Nat) : Nat := w.cfgWord d (off / 2) + 65536 * w.cfgWord d (off / 2 + 1)

/-- An applied field of a register array at index `n`, or of WD_CFG of a die. -/
def NewelState.par (w : NewelState) (f : Fld) (n : Nat := 0) (d : Die := .west) : Nat :=
  w.cfgReg d (f.off + f.s1 * n) / 2 ^ f.lo % 2 ^ f.width

/-- A load channel. -/
def NewelState.chan (w : NewelState) (n : Nat) : LsChan := Tab.get {} w.ch n

/-- Changes a load channel. -/
def NewelState.onChan (w : NewelState) (n : Nat) (g : LsChan → LsChan) : NewelState :=
  { w with ch := Tab.put {} w.ch n (g (w.chan n)) }

/-- EN of a channel. -/
def NewelState.enabled (w : NewelState) (n : Nat) : Bool := decide (w.par nwlChAEn n = 1)

/-- MODE PWM of a channel. -/
def NewelState.pwm (w : NewelState) (n : Nat) : Bool := decide (w.par nwlChAMode n = 1)

/-- The die that the OWNER map names for a channel (R374). -/
def NewelState.ownerOf (w : NewelState) (n : Nat) : Die := if w.owner.testBit n then .east else .west

/-- The commanded state: outside Vote mode both dies' states are kept equal; in Vote mode a channel is on only while both dies
command it on (R374). -/
def LsChan.cmd (c : LsChan) : Bool := c.cmdW && c.cmdE

/-- The commanded duty: the lower of the two. -/
def LsChan.cmdDuty (c : LsChan) : Nat := min c.dutyW c.dutyE

/-- A protection latch is set. -/
def LsChan.latched (c : LsChan) : Bool := c.therm || c.oc || c.wire

/-- What the output is to be: the fail-safe or Safelight state in force, else the commanded state. -/
def LsChan.wanted (c : LsChan) : Bool := if c.force then c.want else c.cmd

/-! ### Events (R395) -/

/-- The Newel queues an EVENT frame on a die's link. -/
def NewelState.tell (w : NewelState) (d : Die) (code : Nat) (unit : Nat := 0) (info : Nat := 0) : NewelState :=
  w.onLink d fun l => { l with events := l.events ++ [(code, unit, info)] }

/-- The Newel queues an EVENT frame on both links. -/
def NewelState.tellBoth (w : NewelState) (code : Nat) (unit : Nat := 0) (info : Nat := 0) : NewelState :=
  (w.tell .west code unit info).tell .east code unit info

/-- An event of a channel goes to the die that owns it in Split mode, else to both (DESIGN CHOICE, log 41). -/
def NewelState.tellChan (w : NewelState) (n code info : Nat) : NewelState :=
  if w.cmdMode = 0 then w.tell (w.ownerOf n) code n info else w.tellBoth code n info

/-- STAT bits [8:3] of a channel. -/
def LsChan.flags (c : LsChan) : Nat :=
  c.therm.toNat + 2 * c.oc.toNat + 4 * c.wire.toNat + 8 * c.openOn.toNat + 16 * c.openOff.toNat + 32 * c.stb.toNat

/-- CH_FAULT of a channel. -/
def NewelState.chFault (w : NewelState) (n : Nat) : NewelState := w.tellChan n 0x1008 (n + 32 * (w.chan n).flags)

/-! ### Switching a channel (R373, R381) -/

/-- The output turns on with a new window and budget, unless a latch, EN = 0 or a low VBAT holds it off. -/
def NewelState.turnOn (w : NewelState) (n : Nat) : NewelState :=
  if w.enabled n && !(w.chan n).latched && !w.low && !w.rev then
    w.onChan n fun c => { c with on := true, winEnd := w.now + 1000000 * w.par nwlChCWarm n, budget := w.par nwlChBRetryMax n,
                                 retries := 0, tripAt := none }
  else w

/-- The output turns off; no restart waits. With VBAT negative every channel stays closed (18 R444). -/
def NewelState.turnOff (w : NewelState) (n : Nat) : NewelState := w.onChan n fun c => { c with on := w.rev && c.on, tripAt := none }

/-- The output is brought to what is wanted; a channel that is already on keeps its window. -/
def NewelState.obey (w : NewelState) (n : Nat) : NewelState :=
  let c := w.chan n
  if c.wanted then (if c.on then w else w.turnOn n) else w.turnOff n

/-- A disagreement of the two dies' commands begins or ends (R374). -/
def NewelState.trackSplit (w : NewelState) (n : Nat) : NewelState :=
  w.onChan n fun c =>
    if decide (c.cmdW = c.cmdE) && decide (c.dutyW = c.dutyE) then { c with split := none, splitRaised := false }
    else { c with split := some (c.split.getD w.now) }

/-- The commanded state of a die for a channel; outside Vote mode it is the channel's. -/
def NewelState.setCmd (w : NewelState) (d : Die) (n : Nat) (on : Bool) : NewelState :=
  (w.onChan n fun c =>
    let c1 := if w.cmdMode ≠ 2 ∨ d = .west then { c with cmdW := on } else c
    if w.cmdMode ≠ 2 ∨ d = .east then { c1 with cmdE := on } else c1).trackSplit n

/-- The commanded duty likewise; it takes effect at the next period start of the timer (R376). -/
def NewelState.setDuty (w : NewelState) (d : Die) (n duty : Nat) : NewelState :=
  (w.onChan n fun c =>
    let c1 := if w.cmdMode ≠ 2 ∨ d = .west then { c with dutyW := duty } else c
    if w.cmdMode ≠ 2 ∨ d = .east then { c1 with dutyE := duty } else c1).trackSplit n

/-- The NAK of a command for a channel, before LOAD and DUTY look further: no such channel, another die's, a standby's (R374). -/
def NewelState.chNak (w : NewelState) (d : Die) (n : Nat) : Option Nat :=
  if 24 ≤ n then some 2
  else if w.cmdMode = 0 ∧ w.ownerOf n ≠ d then some 3
  else if w.cmdMode = 1 ∧ w.active ≠ d then some 4
  else none

/-- The NAK of a LOAD or DUTY: Safelight, then an expired watchdog (R387, R388). -/
def NewelState.cmdNak (w : NewelState) (d : Die) (n : Nat) : Option Nat :=
  match w.chNak d n with
  | some r => some r
  | none => if w.slOn then some 7 else if (w.wdOf d).state = 2 then some 6 else none

/-- LOAD (R373, R374, R381): the answer's NAK reason, if any, and the effect. A command ends the fail-safe state of the channel;
an ON starts a channel that is off, unless it was on already by command and its other half is missing. -/
def NewelState.load (w : NewelState) (d : Die) (n : Nat) (on : Bool) : Option Nat × NewelState :=
  match w.cmdNak d n with
  | some r => (some r, w)
  | none =>
    if !w.enabled n then (some 2, w)
    else if on && (w.chan n).latched then (some 5, w)
    else (none, ((w.setCmd d n on).onChan n fun c => { c with force := false }).obey n)

/-- DUTY. -/
def NewelState.dutyCmd (w : NewelState) (d : Die) (n duty : Nat) : Option Nat × NewelState :=
  match w.cmdNak d n with
  | some r => (some r, w)
  | none => (none, w.setDuty d n duty)

/-- CLEAR (R378, R379, R381): OC at once, THERM and WIRE where heat allows. -/
def NewelState.clear (w : NewelState) (d : Die) (n : Nat) (therm oc wire : Bool) : Option Nat × NewelState :=
  match w.chNak d n with
  | some r => (some r, w)
  | none =>
    (none, w.onChan n fun c =>
      { c with therm := c.therm && !(therm && !c.hot), oc := c.oc && !oc, wire := c.wire && !(wire && decide (c.e ≤ 1 / 2)) })

/-! ### PWM and current sense (R376, R377) -/

/-- The on-time of a channel in a period, in ns: what D gives, but no on-time or off-time under 10 µs. -/
def NewelState.onTime (w : NewelState) (n : Nat) : Nat :=
  let t := 1000000000 / max 1 (w.par nwlChAFreq n)
  let x := (w.chan n).duty * t / 1023
  if x < 10000 then 0 else if t - x < 10000 then t else x

/-- The ADC samples the channel: it is on, in static mode or with an on-time of at least 20 µs. -/
def NewelState.sampled (w : NewelState) (n : Nat) : Bool := (w.chan n).on && (!w.pwm n || decide (20000 ≤ w.onTime n))

/-- The sense LSB of a channel's class, in A (Table 14.3). -/
def senseLsb (n : Nat) : Rat := if n < 4 then 25 / 1000 else if n < 16 then 10 / 1000 else 25 / 10000

/-- The duty of the next period: FS_DUTY in the fail-safe state PWM, unchanged in any other state in force, else the commanded one. -/
def LsChan.nextDuty (c : LsChan) (fsDuty : Nat) : Nat := if c.force then (if c.fsPwm then fsDuty else c.duty) else c.cmdDuty

/-- PWM_PERIOD_START: new duties of the timer's channels take effect. -/
def execPwmPeriodStart (k : Fin 4) (s : State) : Host.Outcome State Fault Refusal :=
  .next (s.onNewel fun w =>
    ((List.range 24).filter fun n => w.pwm n && decide (w.par nwlChAPwt n = k.val)).foldl (fun w n =>
      w.onChan n fun c => { c with duty := c.nextDuty (w.par nwlChBFsDuty n) }) w)

/-- SENSE_SAMPLE. -/
def execSenseSample (n : Fin 24) (sample : BitVec 12) (s : State) : Host.Outcome State Fault Refusal :=
  .next (s.onNewel fun w => if w.sampled n then w.onChan n fun c => { c with sense := sample.toNat, valid := true } else w)

/-! ### Protection (R378 to R382) -/

/-- A trip inside the window with budget left waits for its restart. -/
def NewelState.retryOpen (w : NewelState) (n : Nat) : Bool := decide (w.now < (w.chan n).winEnd) && decide (0 < (w.chan n).budget)

/-- LOAD_OC_TRIP: the channel turns off; outside the window or with the budget spent the OC latch is set (R381). With VBAT
negative the channel stays closed (18 R444) and no over-current is measured in it. -/
def execLoadOcTrip (n : Fin 24) (s : State) : Host.Outcome State Fault Refusal :=
  .next (s.onNewel fun w =>
    if (w.chan n).on && !w.rev then
      if w.retryOpen n then w.onChan n fun c => { c with on := false, tripAt := some w.now }
      else (w.onChan n fun c => { c with on := false, oc := true, tripAt := none }).chFault n
    else w)

/-- LOAD_THERM_TRIP: the channel turns off and THERM is set; in the window a restart follows once the latch is clear. An OC trip of the
same instant sets its flag too (R382). -/
def execLoadThermTrip (n : Fin 24) (s : State) : Host.Outcome State Fault Refusal :=
  .next (s.onNewel fun w =>
    (w.onChan n fun c =>
      { c with on := w.rev && c.on, therm := true, hot := true, oc := c.oc || decide (c.tripAt = some w.now),
               tripAt := if c.on && w.retryOpen n then some w.now else c.tripAt }).chFault n)

/-- LOAD_THERM_COOL: 155 °C; THERM clears with THERM_AUTO, else it may be cleared from now on. -/
def execLoadThermCool (n : Fin 24) (s : State) : Host.Outcome State Fault Refusal :=
  .next (s.onNewel fun w =>
    w.onChan n fun c => { c with hot := false, therm := c.therm && decide (w.par nwlChAThermAuto n = 0) })

/-- One step of the wire model: e moves towards (i/inom)² by 1 ms / tau (R379). -/
def wireStep (e i inom tau : Rat) : Rat := e + (i * i / (inom * inom) - e) * (1 / 1000) / tau

/-- WIRE_MODEL_TICK. At 1.0 the channel turns off and WIRE is set. -/
def execWireModelTick (n : Fin 24) (s : State) : Host.Outcome State Fault Refusal :=
  .next (s.onNewel fun w =>
    if w.par nwlChCInom n = 0 then w
    else
      let c := w.chan n
      let e := wireStep c.e (c.sense * senseLsb n) (w.par nwlChCInom n / 10) (w.par nwlChCTau n)
      if e < 1 then w.onChan n fun c => { c with e := e }
      else
        let w1 := w.onChan n fun c => { c with e := e, on := w.rev && c.on, wire := true }
        if c.wire then w1 else w1.chFault n)

/-- LOAD_DIAG_DETECT: kind 0 OPEN_ON, 1 OPEN_OFF, 2 STB. A flag that rises raises CH_FAULT (R380). -/
def execLoadDiagDetect (n : Fin 24) (kind : Fin 3) (present : Bool) (s : State) : Host.Outcome State Fault Refusal :=
  .next (s.onNewel fun w =>
    let c := w.chan n
    let can := decide (kind.val = 0) && c.on || decide (kind.val = 1) && !c.on && decide (w.par nwlChAOlOffEn n = 1) || decide (kind.val = 2)
    let was := if kind.val = 0 then c.openOn else if kind.val = 1 then c.openOff else c.stb
    let put (b : Bool) : NewelState := w.onChan n fun c =>
      if kind.val = 0 then { c with openOn := b } else if kind.val = 1 then { c with openOff := b } else { c with stb := b }
    if !present then put false else if can && !was then (put true).chFault n else w)

/-- LOAD_RESTART: the gap has passed since the trip, the THERM and WIRE latches are clear, the budget is not spent and the window has not
ended (R381). -/
def execLoadRestart (n : Fin 24) (s : State) : Host.Outcome State Fault Refusal :=
  .next (s.onNewel fun w =>
    let c := w.chan n
    match c.tripAt with
    | some t =>
      if t + 250000 * w.par nwlChBRetryGap n ≤ w.now ∧ !c.therm ∧ !c.wire ∧ w.retryOpen n ∧ w.enabled n ∧ !w.low then
        w.onChan n fun c => { c with on := true, tripAt := none, budget := c.budget - 1, retries := c.retries + 1 }
      else w
    | none => w)

/-- LOAD_WARM_END: a channel whose window ends while it is off stays off. -/
def execLoadWarmEnd (n : Fin 24) (s : State) : Host.Outcome State Fault Refusal :=
  .next (s.onNewel fun w =>
    if (w.chan n).winEnd ≤ w.now then w.onChan n fun c => { c with tripAt := none, budget := 0 } else w)

/-- LOAD_DISAGREE: a disagreement that has lasted 10 ms, once for each episode (R374). -/
def execLoadDisagree (n : Fin 24) (s : State) : Host.Outcome State Fault Refusal :=
  .next (s.onNewel fun w =>
    match (w.chan n).split with
    | some t =>
      if w.cmdMode = 2 ∧ !(w.chan n).splitRaised ∧ t + 10000000 ≤ w.now then
        (w.onChan n fun c => { c with splitRaised := true }).tellBoth 0x100A n n
      else w
    | none => w)

/-- VBAT_LOW: below 6.0 V every channel turns off (R384). -/
def execVbatLow (v : BitVec 16) (s : State) : Host.Outcome State Fault Refusal :=
  .next (s.onNewel fun w =>
    let w1 := { w with vbat := v.toNat }
    if v.toNat < 600 ∧ !w.low then
      ((List.range 24).foldl (fun w n => w.turnOff n) ({ w1 with low := true } : NewelState)).tellBoth 0x100D 0 v.toNat
    else w1)

/-- VBAT_RECOVER: above 7.0 V each channel returns to its commanded state; one that is on starts anew (R384). -/
def execVbatRecover (v : BitVec 16) (s : State) : Host.Outcome State Fault Refusal :=
  .next (s.onNewel fun w =>
    let w1 := { w with vbat := v.toNat }
    if 700 < v.toNat ∧ w.low then (List.range 24).foldl (fun w n => w.obey n) ({ w1 with low := false } : NewelState) else w1)

/-- REVERSE_BATTERY: while VBAT is negative every channel is closed (18 R444). -/
def execReverseBattery (negative : Bool) (s : State) : Host.Outcome State Fault Refusal :=
  .next (s.onNewel fun w =>
    if negative then (List.range 24).foldl (fun w n => w.onChan n fun c => { c with on := true }) ({ w with rev := true } : NewelState)
    else if w.rev then
      (List.range 24).foldl (fun w n =>
        w.onChan n fun c => { c with on := c.wanted && w.enabled n && !c.latched && !w.low }) ({ w with rev := false } : NewelState)
    else w)

/-! ### Fail-safe states and the serial watchdog (R385 to R387) -/

/-- A channel takes its fail-safe state: 0 off, 1 on, 2 keep, 3 PWM at FS_DUTY (on, for a channel in static mode). -/
def NewelState.failSafe (w : NewelState) (n : Nat) : NewelState :=
  let fs := w.par nwlChAFs n
  let keep := (w.chan n).on
  let w1 := w.onChan n fun c =>
    { c with force := true, want := if fs = 2 then keep else decide (fs ≠ 0), fsPwm := decide (fs = 3) && w.pwm n }
  w1.obey n

/-- The limp-home pin of a privileged channel (Table 14.5). -/
def limpPin (n : Nat) : Option Nat :=
  if n = 0 then some 0 else if n = 1 then some 1 else if 4 ≤ n ∧ n ≤ 7 then some (n - 2) else none

/-- The channel follows its limp-home pin. -/
def NewelState.limp (w : NewelState) (n k : Nat) : NewelState :=
  (w.onChan n fun c => { c with force := true, want := w.lh.testBit k, fsPwm := false }).obey n

/-- The causes of Safelight that hold: 1 pin, 2 an expired watchdog with SL_ON_WD, 4 both links lost (R388). -/
def NewelState.slCause (w : NewelState) : Nat :=
  let wd (d : Die) : Bool := decide ((w.wdOf d).state = 2) && decide (w.par nwlWdCfgSlOnWd 0 d = 1)
  (!w.slPin).toNat + 2 * (wd .west || wd .east).toNat + 4 * ((w.linkOf .west).lost && (w.linkOf .east).lost).toNat

/-- Safelight starts when a cause holds and it is not in force: privileged channels follow their pins, the others take their
fail-safe states. A cause that comes back takes back the SL_EXIT of a die (R389). -/
def NewelState.slCheck (w : NewelState) : NewelState :=
  if w.slCause = 0 then w
  else if w.slOn then { w with slExit := [] }
  else
    ((List.range 24).foldl (fun w n =>
      match limpPin n with
      | some k => w.limp n k
      | none => w.failSafe n) ({ w with slOn := true, slExit := [] } : NewelState)).tellBoth 0x1006 0 (2 * w.slCause)

/-- The Galois LFSR of the challenge, polynomial 0xB400 (R386). -/
def lfsrStep (c : Nat) : Nat := if c % 2 = 1 then Nat.xor (c / 2) 0xB400 else c / 2

/-- The correct answer to a challenge (R386). -/
def wdAnswer (ch cnt : Nat) : Nat :=
  let r := Nat.xor (ch * 32 % 65536 + ch / 2048) 0x5AC3
  (r + cnt) % 65536

/-- The channels in the scope of a die's watchdog (R387); in Safelight the privileged channels follow their pins. -/
def NewelState.wdScope (w : NewelState) (d : Die) : List Nat :=
  (List.range 24).filter fun n =>
    (if w.cmdMode = 0 then decide (w.ownerOf n = d) else if w.cmdMode = 1 then decide (w.active = d) else true) &&
      !(w.slOn && (limpPin n).isSome)

/-- The period, in ns. -/
def NewelState.wdPeriod (w : NewelState) (d : Die) : Nat := 1000000 * w.par nwlWdCfgPeriod 0 d

/-- A miss, with LAST: a new period and challenge; at LIMIT the watchdog expires (R385, R387). -/
def NewelState.wdMiss (w : NewelState) (d : Die) (last : Nat) : NewelState :=
  let w1 := (w.onWd d fun x =>
    { x with last := last, misses := min 3 (x.misses + 1), good := 0, chal := lfsrStep x.chal, start := w.now }).tell d 0x1003 0 last
  let x := w1.wdOf d
  if x.state = 1 ∧ w.par nwlWdCfgLimit 0 d ≤ x.misses then
    let w2 := (w1.onWd d fun x => { x with state := 2 }).tellBoth 0x1004 0 (dieIdx d).val
    ((w2.wdScope d).foldl (fun w n => w.failSafe n) w2).slCheck
  else w1

/-- An accepted answer (R385, R387). -/
def NewelState.wdGood (w : NewelState) (d : Die) : NewelState :=
  let w1 := w.onWd d fun x =>
    { x with last := 1, misses := 0, cnt := (x.cnt + 1) % 256, chal := lfsrStep x.chal, start := w.now,
             good := if x.state = 2 then x.good + 1 else 0 }
  if (w1.wdOf d).state = 2 ∧ w.par nwlWdCfgRecover 0 d ≤ (w1.wdOf d).good then
    (w1.onWd d fun x => { x with state := 1, good := 0 }).tellBoth 0x1005 0 (dieIdx d).val
  else w1

/-- An answer is judged by the instant of its arrival: early before half the period, a miss after its end (R385). -/
def NewelState.wdJudge (w : NewelState) (d : Die) (ans : Nat) : NewelState :=
  let x := w.wdOf d
  let t := w.now - x.start
  if x.state = 0 then w
  else if 2 * t < w.wdPeriod d then w.wdMiss d 2
  else if w.wdPeriod d < t then w.wdMiss d 4
  else if ans = wdAnswer x.chal x.cnt then w.wdGood d
  else w.wdMiss d 3

/-- The watchdog is armed; it stays armed until the next Newel reset. -/
def NewelState.wdArm (w : NewelState) (d : Die) : NewelState :=
  w.onWd d fun x => if x.state = 0 then { x with state := 1, start := w.now } else x

/-- WD_AUTO_ARM: 1,000 ms after a Newel reset, the watchdogs whose EEPROM copy of WD_AUTO is 1. -/
def execWdAutoArm (s : State) : Host.Outcome State Fault Refusal :=
  .next (s.onNewel fun w =>
    match w.wdAuto with
    | some t =>
      if t + 1000000000 ≤ w.now then
        [Die.west, Die.east].foldl (fun w d => if w.par nwlWdCfgWdAuto 0 d = 1 then w.wdArm d else w) ({ w with wdAuto := none } : NewelState)
      else w
    | none => w)

/-- WD_PERIOD_MISS: a period without an answer; the watchdog of a die in Rest is suspended (15 R400). -/
def execWdPeriodMiss (d : Die) (s : State) : Host.Outcome State Fault Refusal :=
  .next (s.onNewel fun w =>
    if (w.wdOf d).state ≠ 0 ∧ !(w.linkOf d).stopped ∧ w.wdPeriod d < w.now - (w.wdOf d).start then w.wdMiss d 4 else w)

/-! ### Safelight and pins (R388 to R393) -/

/-- SAFELIGHT_PIN_CHANGE: a low pin starts Safelight. -/
def execSafelightPinChange (high : Bool) (s : State) : Host.Outcome State Fault Refusal :=
  .next (s.onNewel fun w => { w with slPin := high }.slCheck)

/-- SL_EXIT (R389): NAK 7 while a cause is present. In Vote mode each die has to send one. -/
def NewelState.slLeave (w : NewelState) (d : Die) : Option Nat × NewelState :=
  if !w.slOn then (none, w)
  else if w.slCause ≠ 0 then (some 7, w)
  else
    let ds := (dieIdx d).val :: w.slExit.erase (dieIdx d).val
    if w.cmdMode ≠ 2 ∨ ds.length = 2 then (none, { w with slOn := false, slExit := [] }.tellBoth 0x1007)
    else (none, { w with slExit := ds })

/-- LH_PIN_EDGE: in Safelight the channel follows the pin. -/
def execLhPinEdge (k : Fin 6) (high : Bool) (s : State) : Host.Outcome State Fault Refusal :=
  .next (s.onNewel fun w =>
    let bit := 2 ^ k.val
    let w1 := { w with lh := w.lh / (2 * bit) * (2 * bit) + (if high then bit else 0) + w.lh % bit }
    if w1.slOn then ((List.range 24).filter fun n => decide (limpPin n = some k.val)).foldl (fun w n => w.limp n k.val) w1 else w1)

/-- The dies that a transceiver serves: in Split mode one (06 Table 6.1, R172), else both. -/
def NewelState.tellXcvr (w : NewelState) (lin : Bool) (x code info : Nat) : NewelState :=
  if w.cmdMode = 0 then w.tell (if x < (if lin then 6 else 12) then .west else .east) code x info else w.tellBoth code x info

/-- XCVR_TXD_TIMEOUT: the bus is released and CH_FAULT raised, INFO [11] for a transceiver. -/
def execXcvrTxdTimeout (lin : Bool) (x : Fin 24) (s : State) : Host.Outcome State Fault Refusal :=
  .next (s.onNewel fun w => w.tellXcvr lin x 0x1008 (x.val + 2048))

/-- XCVR_THERMAL_SHUTDOWN. -/
def execXcvrThermalShutdown (lin : Bool) (x : Fin 24) (s : State) : Host.Outcome State Fault Refusal :=
  .next (s.onNewel fun w =>
    let k := x.val + (if lin then 24 else 0)
    { w with shut := k :: w.shut.erase k })

/-- NEWEL_TXD_MISMATCH: in Vote mode the Newel forces the bus recessive and raises TXD_MISMATCH (12 R337). -/
def execNewelTxdMismatch (lin : Bool) (xcvr : Fin 24) (s : State) : Host.Outcome State Fault Refusal :=
  .next (s.onNewel fun w => if w.cmdMode = 2 then w.tellBoth 0x1009 xcvr (xcvr.val + 32 * lin.toNat) else w)

/-- WAKE_PIN_EDGE: a filtered level; an edge that EDGE selects sets WOKE, raises WAKE_PIN on both dies and wakes them (R392). -/
def execWakePinEdge (k : Fin 8) (rising : Bool) (s : State) : Host.Outcome State Fault Refusal :=
  let bit := 2 ^ k.val
  let w := { s.newel with wk := s.newel.wk / (2 * bit) * (2 * bit) + (if rising then bit else 0) + s.newel.wk % bit }
  let e := w.par nwlWkCfgEdge / 4 ^ k.val % 4
  if e.testBit (if rising then 0 else 1) then
    let s1 := { s with newel := { w with woke := Nat.lor w.woke bit }.tellBoth 0x100C k bit }
    .next ((s1.on .west fun d => d.wakeDie 3).on .east fun d => d.wakeDie 3)
  else .next { s with newel := w }

/-- A page of the user area: bytes 0x0100 to 0x0FFF (Table 14.6). -/
def userPage (page : Nat) : Bool := decide (16 ≤ page) && decide (page < 256)

/-- EE_PAGE_DONE: a page write completes. -/
def execEePageDone (ok : Bool) (s : State) : Host.Outcome State Fault Refusal :=
  .next (s.onNewel fun w =>
    match w.eeJob with
    | none => w
    | some (d, p, bs) =>
      { w with eeJob := none, ee := if ok then w.ee.setBytes (16 * p) bs else w.ee }.onLink d fun l =>
        { l with eeRes := if ok then 1 else 3 })

end Sys2Proof.Machine
end

