-- ==== Sys2Proof/Machine/Newel.lean ====
section
/-! DEFINITION. Machine/Newel.lean: the Newel link on both its ends: register writes that send commands, frames that arrive at
the Newel, answers and events that arrive at the die, loss and restart (14 R368 to R371, R373 to R375, R385, R389, R393; 12
R327, R331). -/

namespace Sys2Proof.Machine

/-! ### Register writes that send commands -/

/-- The word written to NWL.CTRL with a code and GO. -/
def nwlCtrlWord (v : Word) (c : NlCtrl) : Word := ((v >>> 4) <<< 4) ||| BitVec.ofNat 32 (2 ^ 31 + c.code)

/-- NWL_LOAD. -/
def execNwlLoad (a : Acc) (v : Word) (s : State) : Host.Outcome State Fault Refusal :=
  s.doOn a.die fun d => d.writeReg a.req 16 0 0x10 (commitWord v 31) fun d => d.nlSend 4 (v.toNat % 64)

/-- NWL_DUTY. -/
def execNwlDuty (a : Acc) (v : Word) (s : State) : Host.Outcome State Fault Refusal :=
  s.doOn a.die fun d => d.writeReg a.req 16 0 0x14 (commitWord v 31) fun d => d.nlSend 5 (v.toNat % 32768)

/-- NWL_CLEAR. -/
def execNwlClear (a : Acc) (v : Word) (s : State) : Host.Outcome State Fault Refusal :=
  s.doOn a.die fun d => d.writeReg a.req 16 0 0x18 (commitWord v 31) fun d => d.nlSend 6 (v.toNat % 256)

/-- NWL_WD_ARM. -/
def execNwlWdArm (a : Acc) (v : Word) (s : State) : Host.Outcome State Fault Refusal :=
  s.doOn a.die fun d => d.writeReg a.req 16 0 0x1C (nwlCtrlWord v .wdArm) fun d => d.nlCtrl .wdArm

/-- NWL_SL_EXIT. -/
def execNwlSlExit (a : Acc) (v : Word) (s : State) : Host.Outcome State Fault Refusal :=
  s.doOn a.die fun d => d.writeReg a.req 16 0 0x1C (nwlCtrlWord v .slExit) fun d => d.nlCtrl .slExit

/-- NWL_PWR_RETRY. -/
def execNwlPwrRetry (a : Acc) (v : Word) (s : State) : Host.Outcome State Fault Refusal :=
  s.doOn a.die fun d => d.writeReg a.req 16 0 0x1C (nwlCtrlWord v .pwrRetry) fun d => d.nlCtrl .pwrRetry

/-- NWL_OWNER_SET. -/
def execNwlOwnerSet (a : Acc) (v : Word) (s : State) : Host.Outcome State Fault Refusal :=
  s.doOn a.die fun d => d.writeReg a.req 16 0 0x24 (commitWord v 31) fun d => d.nlCtrl .ownerSet (v.toNat % 2 ^ 24)

/-- A watchdog answer is sent; while LEFT of the perturbation counts, it is withheld or sent wrong (17 R441). -/
def DieState.wdSend (d : DieState) (ans : Nat) : DieState :=
  let n := d.rd prtWdLeft
  let k := d.rd prtWdKind
  if n = 0 ∨ k = 0 then d.nlSend 7 ans
  else
    let d1 := d.wr prtWdLeft (n - 1)
    if k = 1 then d1 else d1.nlSend 7 (Nat.xor ans 1)

/-- NWL_WD_ANS. -/
def execNwlWdAns (a : Acc) (v : Word) (s : State) : Host.Outcome State Fault Refusal :=
  s.doOn a.die fun d => d.writeReg a.req 16 0 0x38 v fun d => d.wdSend (v.toNat % 65536)

/-- The bytes in EE_DATA_0 to 3, little-endian. -/
def DieState.eeData (d : DieState) : List Byte := (List.range 4).flatMap fun k => leBytes 4 (d.rd nwlEeData 0 k)

/-- A page access is sent: BUSY until the Newel has ended it; none is sent while the link is down (R371, R393). -/
def DieState.eeGo (d : DieState) (c : NlCtrl) (data : List Byte) : DieState :=
  let d1 := d.nlCtrl c (d.rd nwlEeAddr) data
  if d.bit nwlLinkUp then d1.wr nwlEeCtlBusy 1 else d1

/-- NWL_EE_READ. -/
def execNwlEeRead (a : Acc) (v : Word) (s : State) : Host.Outcome State Fault Refusal :=
  s.doOn a.die fun d => d.writeReg a.req 16 0 0x74 (commitWord v 0) fun d => d.eeGo .eeRead []

/-- NWL_EE_WRITE. -/
def execNwlEeWrite (a : Acc) (v : Word) (s : State) : Host.Outcome State Fault Refusal :=
  s.doOn a.die fun d => d.writeReg a.req 16 0 0x74 (commitWord v 1) fun d => d.eeGo .eeWrite d.eeData

/-- PAIR_PREP: a write of STW.PAIR_PREP with GO sends an arm request (12 R327); the reserved mode sends none. -/
def execPairPrep (a : Acc) (v : Word) (s : State) : Host.Outcome State Fault Refusal :=
  s.doOn a.die fun d =>
    d.writeReg a.req 15 0 8 (commitWord v 31) fun d => if v.toNat % 4 = 3 then d else d.nlCtrl .pairPrep (v.toNat % 4)

/-! ### Frames that arrive at the Newel (R369) -/

/-- A valid frame of a die has arrived: its link is neither silent nor lost, and a watchdog suspended in Rest starts a period (15
R400). -/
def NewelState.hear (w : NewelState) (d : Die) : NewelState :=
  let w1 := if (w.linkOf d).stopped then w.onWd d fun x => { x with start := w.now } else w
  w1.onLink d fun l => { l with seen := w.now, silent := false, lost := false, stopped := false }

/-- A frame can arrive: the module and the die run. -/
def State.linkAlive (s : State) (d : Die) : Bool := !s.newel.offline && (s.get d).pow.alive

/-- An answer: OP and ARG. -/
abbrev NlAns := Nat × Nat

/-- ACK, or NAK with its reason. -/
def ansOf (r : Option Nat) : NlAns :=
  match r with
  | some n => (3, n)
  | none => (1, 0)

/-- A command arrives: the one the Newel expects is executed and its answer stored; one of the last eight is answered again from
the store; any other is discarded (R369). -/
def State.nlExec (s : State) (d : Die) (seq : Fin 16) (act : State → NlAns × State) : Host.Outcome State Fault Refusal :=
  if !s.linkAlive d then .next s
  else
    let s1 := s.onNewel fun w => w.hear d
    if (s1.newel.linkOf d).expect = seq.val then
      let r := act s1
      .next (r.2.onNewel fun w =>
        w.onLink d fun l => { l with expect := (seq.val + 1) % 16, answers := ((seq.val, r.1) :: l.answers).take 8 })
    else .next s1

/-- A command that touches the Newel alone. -/
def State.nlDo (s : State) (d : Die) (seq : Fin 16) (act : NewelState → Option Nat × NewelState) : Host.Outcome State Fault Refusal :=
  s.nlExec d seq fun s =>
    let r := act s.newel
    (ansOf r.1, { s with newel := r.2 })

/-- NL_NOP. -/
def execNlNop (d : Die) (s : State) : Host.Outcome State Fault Refusal :=
  .next (if s.linkAlive d then s.onNewel fun w => w.hear d else s)

/-- NL_ADDR. -/
def execNlAddr (d : Die) (seq : Fin 16) (addr : BitVec 16) (s : State) : Host.Outcome State Fault Refusal :=
  s.nlDo d seq fun w => (none, w.onLink d fun l => { l with addr := addr.toNat })

/-- The load channel whose configuration a word belongs to: CH_n_A to CH_n_C. -/
def chanOfWord (addr : Nat) : Option Nat :=
  if 0x80 ≤ addr ∧ addr < 0x140 ∧ (addr - 0x80) % 8 < 6 then some ((addr - 0x80) / 8) else none

/-- A configuration word, which waits for APPLY. -/
def isConfigWord (addr : Nat) : Bool := (chanOfWord addr).isSome || addr = 0x18 || addr = 0x19 || addr = 0x28 || addr = 0x29

/-- A word is written (R375): a configuration word waits for APPLY, but in Split mode one of another die's channel is refused; a
write of WK_STAT clears WOKE. Any other address holds no word to write. -/
def NewelState.wordWrite (w : NewelState) (d : Die) (addr v : Nat) : Option Nat × NewelState :=
  if isConfigWord addr then
    match chanOfWord addr with
    | some n =>
      if w.cmdMode = 0 ∧ w.ownerOf n ≠ d then (some 3, w) else (none, w.onLink d fun l => { l with words := Tab.insert l.words addr v })
    | none => (none, w.onLink d fun l => { l with words := Tab.insert l.words addr v })
  else if addr = 0x2A then (none, { w with woke := w.woke - (w.woke &&& v / 256) })
  else (some 2, w)

/-- NL_DATA: the address then increments. -/
def execNlData (d : Die) (seq : Fin 16) (x : BitVec 16) (s : State) : Host.Outcome State Fault Refusal :=
  s.nlDo d seq fun w =>
    let addr := (w.linkOf d).addr
    let r := w.wordWrite d addr x.toNat
    (r.1, r.2.onLink d fun l => { l with addr := (addr + 1) % 65536 })

/-- STAT of a channel (Table 14.8). -/
def NewelState.chStat (w : NewelState) (n : Nat) : Nat :=
  let c := w.chan n
  (if !c.on then 0 else if w.pwm n && !w.rev then 2 else 1) + 4 * c.cmd.toNat + 8 * c.flags + 512 * (c.retries % 32) +
    16384 * (c.valid && w.sampled n).toNat + 32768 * c.force.toNat + 65536 * (c.sense % 4096)

/-- The register whose words the Newel holds, as a die reads it (R394). -/
def NewelState.register (w : NewelState) (d : Die) (off : Nat) : Option Nat :=
  let x := w.wdOf d
  let l := w.linkOf d
  if off = 0x20 then some w.owner
  else if off = 0x30 ∨ off = 0x50 then some (w.cfgReg d off)
  else if off = 0x34 then some (x.chal + 65536 * x.cnt)
  else if off = 0x3C then some (x.state + 4 * x.misses + 16 * (x.good % 16) + 256 * x.last)
  else if off = 0x40 then some (w.slOn.toNat + 2 * w.slCause + 256 * (w.lh % 64))
  else if off = 0x54 then some (w.wk % 256 + 256 * (w.woke % 256))
  else if off = 0x58 then some (w.vbat % 65536 + 65536 * (w.ntemp % 256))
  else if 0x64 ≤ off ∧ off < 0x74 then some (leAt l.page (off - 0x64) 4)
  else if off = 0x74 then some (256 * (match w.eeJob with
    | some j => (decide (j.1 = d)).toNat
    | none => 0) + 512 * l.eeRes)
  else if 0x100 ≤ off ∧ off < 0x280 then some (if off % 16 = 12 then w.chStat ((off - 0x100) / 16) else w.cfgReg d off)
  else none

/-- NL_READ. -/
def execNlRead (d : Die) (seq : Fin 16) (addr : BitVec 16) (s : State) : Host.Outcome State Fault Refusal :=
  s.nlExec d seq fun s =>
    match s.newel.register d (4 * (addr.toNat / 2)) with
    | some v => ((2, v / 65536 ^ (addr.toNat % 2) % 65536), s)
    | none => ((3, 2), s)

/-- NL_LOAD. -/
def execNlLoad (d : Die) (seq : Fin 16) (ch : Fin 32) (on : Bool) (s : State) : Host.Outcome State Fault Refusal :=
  s.nlDo d seq fun w => w.load d ch on

/-- NL_DUTY. -/
def execNlDuty (d : Die) (seq : Fin 16) (ch : Fin 32) (duty : BitVec 10) (s : State) : Host.Outcome State Fault Refusal :=
  s.nlDo d seq fun w => w.dutyCmd d ch duty.toNat

/-- NL_CLEAR. -/
def execNlClear (d : Die) (seq : Fin 16) (ch : Fin 32) (therm oc wire : Bool) (s : State) : Host.Outcome State Fault Refusal :=
  s.nlDo d seq fun w => w.clear d ch therm oc wire

/-- NL_WD_ANS. -/
def execNlWdAns (d : Die) (seq : Fin 16) (ans : BitVec 16) (s : State) : Host.Outcome State Fault Refusal :=
  s.nlDo d seq fun w => (none, w.wdJudge d ans.toNat)

/-- East's words that differ from West's raise LOAD_DISAGREE with their channel (Vote mode, R375). -/
def NewelState.compareWords (w : NewelState) (ws : Tab Nat) : NewelState :=
  let differs (e : Nat × Nat) : Bool := decide (Tab.get (w.cfgWord .west e.1) (w.linkOf .west).words e.1 ≠ e.2)
  let diff := (ws.filter differs).filterMap fun (e : Nat × Nat) => chanOfWord e.1
  diff.eraseDups.foldl (fun w n => w.tellBoth 0x100A n n) w

/-- A channel after new settings: EN = 0 is off; one that is enabled follows what is wanted of it, without a window. -/
def NewelState.settleChan (w : NewelState) (n : Nat) : NewelState :=
  if !w.enabled n then w.turnOff n
  else
    let c := w.chan n
    if c.wanted && !c.on && !c.latched && c.tripAt.isNone && !w.low then w.onChan n fun c => { c with on := true } else w

/-- APPLY (R375): every word sent since the last APPLY takes effect together. In Mirror mode only the active die's words do, in
Vote mode West's, and East's are compared; WD_CFG is each die's own. -/
def NewelState.apply (w : NewelState) (d : Die) : NewelState :=
  let ws := (w.linkOf d).words
  let mine := if w.cmdMode = 1 then decide (w.active = d) else if w.cmdMode = 2 then decide (d = Die.west) else true
  let take := ws.filter fun e => mine || e.1 = 0x18 || e.1 = 0x19
  let was := (List.range 24).filter w.enabled
  let w1 := { w with cfg := take.foldl (fun t (e : Nat × Nat) => Tab.insert t (cfgKey d e.1) e.2) w.cfg }.onLink d fun l => { l with words := [] }
  let w2 := if w.cmdMode = 2 && decide (d = Die.east) then w1.compareWords ws else w1
  ((List.range 24).filter fun n => decide (w2.enabled n ≠ was.contains n)).foldl (fun w n => w.settleChan n) w2

/-- NL_APPLY. -/
def execNlApply (d : Die) (seq : Fin 16) (s : State) : Host.Outcome State Fault Refusal := s.nlDo d seq fun w => (none, w.apply d)

/-- NL_WD_ARM. -/
def execNlWdArm (d : Die) (seq : Fin 16) (s : State) : Host.Outcome State Fault Refusal := s.nlDo d seq fun w => (none, w.wdArm d)

/-- NL_SL_EXIT. -/
def execNlSlExit (d : Die) (seq : Fin 16) (s : State) : Host.Outcome State Fault Refusal := s.nlDo d seq fun w => w.slLeave d

/-- A request for the OWNER map (R374): the second die's, within 1 ms, decides. -/
def NewelState.ownerSet (w : NewelState) (d : Die) (map : Nat) : NewelState :=
  match w.ownReq with
  | some (e, m, t) =>
    if e = d then { w with ownReq := some (d, map, w.now) }
    else if t + 1000000 < w.now then { w with ownReq := some (d, map, w.now) }.tellBoth 0x100B
    else if m = map then { w with ownReq := none, owner := map }
    else { w with ownReq := none }.tellBoth 0x100B
  | none => { w with ownReq := some (d, map, w.now) }

/-- NL_OWNER_SET. -/
def execNlOwnerSet (d : Die) (seq : Fin 16) (map : BitVec 24) (s : State) : Host.Outcome State Fault Refusal :=
  s.nlDo d seq fun w => (none, w.ownerSet d map.toNat)

/-- OWNER_SET_TIMEOUT: the second request has not come within 1 ms. -/
def execOwnerSetTimeout (s : State) : Host.Outcome State Fault Refusal :=
  .next (s.onNewel fun w =>
    match w.ownReq with
    | some (_, _, t) => if t + 1000000 < w.now then { w with ownReq := none }.tellBoth 0x100B else w
    | none => w)

/-- The Newel's arm request of a die. -/
def NewelState.setArm (w : NewelState) (d : Die) (x : Option (Nat × Nat)) : NewelState := { w with arm := w.arm.set (dieIdx d) x }

/-- ARMED as both dies read it. -/
def State.showArmed (s : State) (v : Nat) : State := (s.on .west fun d => d.wr stwPairStatArmed v).on .east fun d => d.wr stwPairStatArmed v

/-- Requests that do not match: the Newel stays unarmed, and each die that asked hears of it with the mode it asked for. -/
def State.prepFail (s : State) : State :=
  let tell (s : State) (d : Die) : State :=
    match s.newel.arm.get (dieIdx d) with
    | some (m, _) => s.on d fun x => x.raise 0x0F0B m
    | none => s
  let s1 := tell (tell s .west) .east
  { s1 with newel := { s1.newel with arm := Vector.replicate 2 none } }

/-- PAIR_PREP of a die: matching requests within 1 ms arm the Newel (12 R327). -/
def State.prep (s : State) (d : Die) (mode : Nat) : State :=
  let now := s.newel.now
  let s1 := s.onNewel fun w => w.setArm d (some (mode, now))
  match s.newel.arm.get (dieIdx d.other) with
  | some (m, t) =>
    if t + 1000000 < now then
      let s2 := (s.onNewel fun w => w.setArm d none).prepFail
      s2.onNewel fun w => w.setArm d (some (mode, now))
    else if m = mode then { s1 with newel := { s1.newel with armed := some now } }.showArmed 1
    else s1.prepFail
  | none => s1

/-- NL_PAIR_PREP: while armed a further request changes nothing. There is no mode 3: NAK 2 (DESIGN CHOICE, log 39). -/
def execNlPairPrep (d : Die) (seq : Fin 16) (mode : BitVec 2) (s : State) : Host.Outcome State Fault Refusal :=
  s.nlExec d seq fun s =>
    if mode = 3 then ((3, 2), s) else ((1, 0), if s.newel.armed.isSome then s else s.prep d mode.toNat)

/-- PAIR_PREP_TIMEOUT: the second request has not come within 1 ms. -/
def execPairPrepTimeout (s : State) : Host.Outcome State Fault Refusal :=
  let late (x : Option (Nat × Nat)) : Bool :=
    match x with
    | some (_, t) => decide (t + 1000000 < s.newel.now)
    | none => false
  .next (if s.newel.armed.isNone && s.newel.arm.toList.any late then s.prepFail else s)

/-- The Newel is no longer armed. -/
def State.disarm (s : State) : State :=
  { s with newel := { s.newel with armed := none, arm := Vector.replicate 2 none } }.showArmed 0

/-- NEWEL_PAIR_DISARM: 1 s after arming without a switch command. -/
def execNewelPairDisarm (s : State) : Host.Outcome State Fault Refusal :=
  match s.newel.armed with
  | some t => .next (if t + 1000000000 ≤ s.newel.now then s.disarm else s)
  | none => .next s

/-- The Newel's mode as both dies read it; a die whose active set does not match hears PAIR_DISAGREE (12 R327). -/
def State.showMode (s : State) (m : Nat) : State :=
  let show_ (s : State) (d : Die) : State :=
    s.on d fun x => let y := x.wr stwPairStatMode m; if y.pairMode = m then y else y.raise 0x0F0C m
  show_ (show_ s .west) .east

/-- A switch command applies the new mode: the first one of an armed pair. The active die is the one whose role says so. -/
def State.switchMode (s : State) (d : Die) (m : Nat) : NlAns × State :=
  if s.newel.armed.isSome then
    let a := if (s.get d).role = 1 then d else if (s.get d).role = 2 then d.other else s.newel.active
    ((1, 0), ({ s.disarm with newel := { s.disarm.newel with mode := m, active := a, moved := [], lone := false, slExit := [] } }).showMode m)
  else if s.newel.mode = m then ((1, 0), s)
  else ((3, 4), s)

/-- NL_SWITCH. There is no mode 3: NAK 2 (DESIGN CHOICE, log 39). -/
def execNlSwitch (d : Die) (seq : Fin 16) (mode : BitVec 2) (s : State) : Host.Outcome State Fault Refusal :=
  s.nlExec d seq fun s => if mode = 3 then ((3, 2), s) else s.switchMode d mode.toNat

/-- NL_RESYNC: the answer store is emptied and SEQ 1 expected (R371). -/
def execNlResync (d : Die) (s : State) : Host.Outcome State Fault Refusal :=
  .next (if s.linkAlive d then
    s.onNewel fun w => (w.hear d).onLink d fun l => { l with expect := 1, answers := [(0, 1, 0)], words := [], addr := 0 }
  else s)

/-- NL_EE_READ: NAK 8 while a page access runs, NAK 2 outside the user area (R393). -/
def execNlEeRead (d : Die) (seq : Fin 16) (page : BitVec 10) (s : State) : Host.Outcome State Fault Refusal :=
  s.nlDo d seq fun w =>
    if w.eeJob.isSome then (some 8, w)
    else if !userPage page.toNat then (some 2, w.onLink d fun l => { l with eeRes := 2 })
    else (none, w.onLink d fun l => { l with page := w.ee.bytes (16 * page.toNat) 16, eeRes := 1 })

/-- NL_EE_WRITE: the page write runs until EE_PAGE_DONE. -/
def execNlEeWrite (d : Die) (seq : Fin 16) (page : BitVec 10) (data : List Byte) (s : State) : Host.Outcome State Fault Refusal :=
  s.nlDo d seq fun w =>
    if w.eeJob.isSome then (some 8, w)
    else if !userPage page.toNat then (some 2, w.onLink d fun l => { l with eeRes := 2 })
    else (none, { w with eeJob := some (d, page.toNat, (List.range 16).map (byteAt data)) }.onLink d fun l => { l with eeRes := 0 })

/-! ### The die's end: answers, events, resends (R369 to R371) -/

/-- Commands that waited are sent while there is room; then the mirror's own reads. -/
def DieState.nlPump (fuel : Nat) (d : DieState) : DieState :=
  match fuel with
  | 0 => d
  | k + 1 =>
    if 8 ≤ d.nl.sent.length then d
    else
      match d.nl.stalled, d.nl.polls with
      | c :: r, _ => DieState.nlPump k ({ d with nl := { d.nl with stalled := r } }.nlEmit c)
      | [], p :: r => DieState.nlPump k ({ d with nl := { d.nl with polls := r } }.nlEmit { op := 3, arg := p })
      | [], [] => d

/-- Word addresses join the reads that wait. -/
def DieState.nlPoll (d : DieState) (ps : List Nat) : DieState :=
  { d with nl := { d.nl with polls := d.nl.polls ++ ps.filter fun p => !d.nl.polls.contains p } }

/-- The oldest command is answered. -/
def DieState.nlRetire (d : DieState) : DieState := { d with nl := { d.nl with sent := d.nl.sent.tail, resends := 0 } }

/-- The words that the mirror holds (R370, R394). -/
def mirrorWords : List Nat :=
  [0x10, 0x11, 0x1A, 0x1B, 0x1E, 0x20, 0x2A, 0x2C, 0x2D, 0x3A] ++ (List.range 24).flatMap fun n => [0x86 + 8 * n, 0x87 + 8 * n]

/-- What the die reads after a command is answered: the challenge and state of the watchdog, the page, the state of the page
access. -/
def pollsAfter (c : NlCmd) : List Nat :=
  if c.op = 7 then [0x1A, 0x1B, 0x1E]
  else if c.op = 9 ∧ c.arg % 16 = 7 then (List.range 8).map (0x32 + ·) ++ [0x3A]
  else if c.op = 9 ∧ c.arg % 16 = 8 then [0x3A]
  else []

/-- The link is up: NL_LINK_UP, and NEWEL_RESET where the Newel has been reset since (15 R403). -/
def State.nlUp (s : State) (d : Die) : State :=
  let s1 := s.on d fun x =>
    (({ x with nl := { x.nl with next := 1, sent := [], stalled := [], polls := mirrorWords, resends := 0 } }.wr nwlLinkUp 1).raise 0x1002).nlPump 8
  if s.newel.note.contains (dieIdx d).val then
    { s1.on d fun x => x.raise 0x0106 with newel := { s1.newel with note := s1.newel.note.erase (dieIdx d).val } }
  else s1

/-- NL_ACK: the answer to the oldest command; to RESYNC it brings the link up. -/
def execNlAck (d : Die) (seq : Fin 16) (s : State) : Host.Outcome State Fault Refusal :=
  let x := s.get d
  match x.nl.sent with
  | c :: _ =>
    if c.seq ≠ seq.val then .next s
    else if !x.bit nwlLinkUp then .next (s.nlUp d)
    else
      s.doOn d fun x =>
        let y := x.nlRetire.nlPoll (pollsAfter c)
        (if c.op = 8 then y.wr nwlLinkPending 0 else y).nlPump 8
  | [] => .next s

/-- A word enters the mirror: the read-only fields of its register, WOKE and EE_DATA. -/
def DieState.mirror (d : DieState) (addr v : Nat) : DieState :=
  let off := 4 * (addr / 2)
  let old := wordOf d.regs 16 0 off
  let x := if addr % 2 = 0 then old / 65536 * 65536 + v else old % 65536 + 65536 * v
  (fieldsAt 16 off).foldl (fun d p =>
    if p.1.acs = .ro ∨ p.1.acs = .w1c ∨ p.1 = nwlEeData then d.wr p.1 (x / 2 ^ p.1.lo % 2 ^ p.1.width) 0 p.2.1 p.2.2 else d) d

/-- NL_RDATA. -/
def execNlRdata (d : Die) (seq : Fin 16) (w : BitVec 16) (s : State) : Host.Outcome State Fault Refusal :=
  s.doOn d fun x =>
    match x.nl.sent with
    | c :: _ => if c.seq = seq.val ∧ c.op = 3 ∧ x.bit nwlLinkUp then (x.nlRetire.mirror c.arg w.toNat).nlPump 8 else x
    | [] => x

/-- A command ends with a NAK, counted in NAKS; a page access outside the user area reads RANGE when its state is polled. -/
def DieState.nlRefused (d : DieState) (c : NlCmd) : DieState :=
  let y := (d.nlRetire.cnt nwlCntNaks).nlPoll ((pollsAfter c).filter fun p => decide (p = 0x3A))
  (if c.op = 8 then y.wr nwlLinkPending 0 else y).nlPump 8

/-- NL_NAK. -/
def execNlNak (d : Die) (seq : Fin 16) (_reason : Fin 16) (s : State) : Host.Outcome State Fault Refusal :=
  s.doOn d fun x =>
    match x.nl.sent with
    | c :: _ => if c.seq = seq.val ∧ x.bit nwlLinkUp then x.nlRefused c else x
    | [] => x

/-- What an event adds to a counter of the die: misses of the watchdog, disagreements. -/
def DieState.nlCount (d : DieState) (code : Nat) : DieState :=
  if code = 3 then d.cnt nwlCntWdMisses else if code = 0x0A then d.cnt nwlCntLoadDisagree else d

/-- NL_EVENT: the die raises the event with the INFO the Newel gave it; the frame carries code and unit only. INFO of a frame
that the Newel has not queued is a free value. -/
def execNlEvent (d : Die) (arg : BitVec 16) (s : State) : Host.Outcome State Fault Refusal :=
  let code := arg.toNat / 256
  let unit := arg.toNat % 256
  if code = 0 ∨ 13 < code ∨ !(s.get d).pow.alive then .next s
  else
    match (s.newel.linkOf d).events.find? fun e => decide (e.1 % 256 = code) && decide (e.2.1 = unit) with
    | some e =>
      .next ((s.onNewel fun w => w.onLink d fun l => { l with events := l.events.erase e }).on d fun x =>
        (x.nlCount code).raise (0x1000 + code) e.2.2 unit)
    | none => s.doOn d fun x => (x.nlCount code).drawn.raise (0x1000 + code) x.freshVal.toNat unit

/-- The die declares its link lost: INFO 0 resends spent, 1 slots invalid (R371). Commands that stalled are dropped with it. -/
def DieState.nlLost (d : DieState) (info : Nat) : DieState :=
  let n := d.nl.stalled.length
  ((((({ d with nl := { d.nl with sent := [], stalled := [], polls := [], resends := 0, resyncAt := d.now } }.wr nwlLinkUp 0).wr
    nwlLinkPending 0).cnt nwlCntLinkLoss).cnt nwlCntLinkDrop 0 0 0 n)).raise 0x1001 info

/-- NL_RESEND_TIMEOUT: no answer to the oldest command 4 slots (2,720 ns) after it was sent; after three resends the link is lost. -/
def execNlResendTimeout (d : Die) (s : State) : Host.Outcome State Fault Refusal :=
  s.doOn d fun x =>
    match x.nl.sent with
    | c :: _ =>
      if !x.bit nwlLinkUp ∨ x.now < c.at_ + 2720 then x
      else if 3 ≤ x.nl.resends then x.nlLost 0
      else
        let ys := x.nl.sent.map fun (c : NlCmd) => { c with at_ := x.now }
        { x with nl := { x.nl with resends := x.nl.resends + 1, sent := ys } }.cnt nwlCntResends
    | [] => x

/-- NL_DIE_SLOTS_INVALID: 16 consecutive slots without a valid frame. -/
def execNlDieSlotsInvalid (d : Die) (s : State) : Host.Outcome State Fault Refusal :=
  s.doOn d fun x => if x.bit nwlLinkUp then x.nlLost 1 else x

/-- NL_RESYNC_TIMER: every 100 µs while the link is down the die sends CTRL RESYNC with SEQ 0. -/
def execNlResyncTimer (d : Die) (s : State) : Host.Outcome State Fault Refusal :=
  s.doOn d fun x =>
    if x.pow.alive ∧ !x.bit nwlLinkUp ∧ x.nl.resyncAt + 100000 ≤ x.now then
      { x with nl := { x.nl with resyncAt := x.now, sent := [{ op := 9, arg := NlCtrl.resync.code, seq := 0, at_ := x.now }] } }
    else x

/-- NL_MIRROR_REFRESH: every 1 ms the mirrored words are read again. -/
def execNlMirrorRefresh (d : Die) (s : State) : Host.Outcome State Fault Refusal :=
  s.doOn d fun x =>
    if x.bit nwlLinkUp ∧ x.nl.pollAt + 1000000 ≤ x.now then
      ({ x with nl := { x.nl with pollAt := x.now } }.nlPoll mirrorWords).nlPump 8
    else x

/-- NEWEL_LINK_SILENT: 4 µs without a valid frame. -/
def execNewelLinkSilent (d : Die) (s : State) : Host.Outcome State Fault Refusal :=
  .next (s.onNewel fun w =>
    if (w.linkOf d).seen + 4000 ≤ w.now then w.onLink d fun l => { l with silent := true } else w)

/-- NEWEL_LINK_LOST: 250 ms without a valid frame; not while the die has stopped the link for Rest (15 R400). -/
def execNewelLinkLost (d : Die) (s : State) : Host.Outcome State Fault Refusal :=
  .next (s.onNewel fun w =>
    if (w.linkOf d).seen + 250000000 ≤ w.now ∧ !(w.linkOf d).stopped then (w.onLink d fun l => { l with lost := true }).slCheck else w)

/-! ### Failover (12 R331, R338) -/

/-- The Newel confirms the loss of a die: its link is silent, it is held in reset, or its watchdog has expired. No frame of
Table 14.2 reports a die-level fault. -/
def State.lossConfirmed (s : State) (a : Die) : Bool :=
  let w := s.newel
  (w.linkOf a).silent || (w.linkOf a).lost || decide ((w.linkOf a).seen + 4000 ≤ w.now) || !(s.get a).pow.alive ||
    decide ((w.wdOf a).state = 2)

/-- A standby becomes the active die; a voter with DEGRADE runs as a lone active die. -/
def DieState.takeActive (d : DieState) (cause : Nat) : DieState :=
  let d1 := { d with stw := { d.stw with hoAt := none, hoMoved := [] } }.wr stwPairStatRole 1
  if d.pairMode = 2 then (d1.wr stwPairStatDegraded 1).raise 0x0F0A else (d1.cnt stwCntFailovers).raise 0x0F04 cause

/-- The Newel refuses: the pair is isolated. The spec names no reasons: INFO is a free value (DESIGN CHOICE, log 42). -/
def DieState.isolate (d : DieState) : DieState := (d.drawn.wr stwPairStatIsolated 1).raise 0x0F05 d.freshVal.toNat

/-- FAILOVER_CONFIRM: the Newel's answer to the request of a die. -/
def execFailoverConfirm (d : Die) (s : State) : Host.Outcome State Fault Refusal :=
  match (s.get d).stw.failover with
  | none => .next s
  | some (cause, _) =>
    let s1 := s.on d fun x => { x with stw := { x.stw with failover := none } }
    if s.lossConfirmed d.other then
      let s2 := s1.on d fun x => x.takeActive cause
      .next { s2 with newel := { s2.newel with active := d, moved := [], lone := decide ((s.get d).pairMode = 2) } }
    else .next ((s1.on d DieState.isolate).on d.other fun x => if x.pow.alive then x.isolate else x)

end Sys2Proof.Machine
end

