-- ==== Sys2Proof/Machine/Flash.lean ====
section
/-! DEFINITION. Machine/Flash.lean: the external flash as the UPD block and the boot ROM use it: the XTS regions (11 R308), the
boot record, the image header and its signatures (16 R413 to R416, 11 R309). -/

namespace Sys2Proof.Machine

/-! ### The XTS unit (11 R308) -/

/-- The sector size of the flash XTS unit. -/
def DieState.sector (d : DieState) : Nat := if d.bit cipXtsSec512 then 512 else 4096

/-- An address lies in an encrypted region. -/
def DieState.inXts (d : DieState) (a : Nat) : Bool :=
  d.bit cipXtsEn && (List.range 4).any fun r => decide (d.rd cipXrBase 0 r ≤ a) && decide (a < d.rd cipXrLimit 0 r)

/-- The key that a slot holds, if it may be used for XTS. -/
def DieState.xtsKey (d : DieState) (k : Nat) : List Byte :=
  match (d.slot k).active with
  | some c => if c.attrA.testBit Usage.xts.bit then c.key else []
  | none => []

/-- A sector of flash through the XTS unit: encrypted, decrypted, or unchanged outside the regions. -/
def DieState.xtsSector (d : DieState) (enc : Bool) (n : Nat) (bs : List Byte) : List Byte :=
  if d.inXts (n * d.sector) then
    fit d.sector (Config.xts enc (d.xtsKey (d.rd cipXtsKs)) (d.xtsKey (d.rd cipXtsKs + 1)) n bs)
  else bs

/-- Bytes of flash as a read through the XTS unit sees them. -/
def DieState.flashRead (d : DieState) (a n : Nat) : List Byte :=
  let z := d.sector
  let s0 := a / z
  let ss := (List.range ((a + n + z - 1) / z - s0)).map (s0 + ·)
  ((ss.flatMap fun s => d.xtsSector false s (d.upd.flash.bytes (s * z) z)).drop (a - s0 * z)).take n

/-- A 4 KB unit of flash is programmed through the XTS unit, whole sectors. -/
def DieState.flashProgram (d : DieState) (a : Nat) (bs : List Byte) : DieState :=
  let z := d.sector
  let enc := (List.range (4096 / z)).flatMap fun k => d.xtsSector true (a / z + k) ((bs.drop (k * z)).take z)
  { d with upd := { d.upd with flash := d.upd.flash.setBytes a enc } }

/-! ### The boot record (16 R414, Table 16.2) -/

/-- A copy of the boot record. -/
def DieState.recordCopy (d : DieState) (k : Nat) : List Byte := d.upd.flash.bytes (4096 * k) 4096

/-- MAGIC and CRC are correct. -/
def recordValid (bs : List Byte) : Bool := decide (leAt bs 0 4 = 0x43455242) && decide (leAt bs 4092 4 = crc32c (bs.take 4092))

/-- The current copy: the valid one with the higher SEQ, compared as a signed 32-bit difference. -/
def DieState.currentCopy (d : DieState) : Option Nat :=
  let r0 := d.recordCopy 0
  let r1 := d.recordCopy 1
  match recordValid r0, recordValid r1 with
  | true, true => some (if 0 < stampDiff (leAt r1 4 4) (leAt r0 4 4) then 1 else 0)
  | true, false => some 0
  | false, true => some 1
  | false, false => none

/-- The fields of a boot record that UPD and the ROM use. -/
structure BootRec where
  active : Nat
  trial  : Nat
  tries  : Nat
  setCur : Nat
  setOld : Nat
  trialS : Nat
  deriving DecidableEq, Repr

/-- The fields of a copy. -/
def recordOf (bs : List Byte) : BootRec :=
  { active := leAt bs 8 1 % 2, trial := leAt bs 9 1 % 2, tries := leAt bs 10 1 % 8, setCur := leAt bs 11 1 % 2, setOld := leAt bs 12 1 % 2,
    trialS := leAt bs 16 4 }

/-- The current boot record. -/
def DieState.bootRec (d : DieState) : Option BootRec := d.currentCopy.map fun k => recordOf (d.recordCopy k)

/-- BANK shows the current boot record. -/
def DieState.showBank (d : DieState) : DieState :=
  let r := d.bootRec.getD { active := 0, trial := 0, tries := 0, setCur := 0, setOld := 0, trialS := 0 }
  ((((d.wr updBankActive r.active).wr updBankTrial r.trial).wr updBankTries r.tries).wr updBankSetCur r.setCur).wr updBankSetOld r.setOld

/-- Replaces bytes of a list from a position on. -/
def patch (bs : List Byte) (a : Nat) (x : List Byte) : List Byte := bs.take a ++ x ++ bs.drop (a + x.length)

/-- Writes a record into a copy, with its CRC. -/
def DieState.putRecord (d : DieState) (k : Nat) (bs : List Byte) : DieState :=
  let b := fit 4092 bs
  ({ d with upd := { d.upd with flash := d.upd.flash.setBytes (4096 * k) (b ++ leBytes 4 (crc32c b)) } }).showBank

/-- A change of the boot record writes the other copy with SEQ + 1. -/
def DieState.changeRecord (d : DieState) (f : List Byte → List Byte) : DieState :=
  match d.currentCopy with
  | none => d
  | some k =>
    let bs := d.recordCopy k
    d.putRecord (1 - k) (patch (f bs) 4 (leBytes 4 (leAt bs 4 4 + 1)))

/-- The record with other fields. -/
def setRecord (r : BootRec) (bs : List Byte) : List Byte :=
  patch (patch bs 8 ([r.active, r.trial, r.tries, r.setCur, r.setOld].map (BitVec.ofNat 8))) 16 (leBytes 4 r.trialS)

/-- FALLBACK (16 R423): the former bank and settings. -/
def DieState.fallBack (d : DieState) : DieState :=
  match d.bootRec with
  | none => d
  | some r =>
    let x := (d.changeRecord (setRecord { r with active := 1 - r.active, trial := 0, setCur := r.setOld })).cnt updCntFallbacks
    { x with upd := { x.upd with trialAt := none } }

/-! ### The image (16 R415, R416) -/

/-- The flash address of a bank. -/
def bankAddr (b : Nat) : Nat := 0x01000000 + 0x02000000 * b

/-- A key position of a header is 0 to 3, or absent. -/
def posOk (p : Nat) : Bool := decide (p ≤ 3) || decide (p = 0xFF)

/-- The header checks in the order of Table 16.3 under a rollback fuse count: 0, or the FAIL code. -/
def headerCheck (fuses : Nat) (h : List Byte) : Nat :=
  let len := leAt h 8 4
  let off := leAt h 24 4
  let n := leAt h 28 4
  let load := leAt h 32 4
  let entry := leAt h 36 4
  if leAt h 0 4 ≠ 0x54484C46 ∨ leAt h 4 2 ≠ 1 then 1
  else if leAt h 6 2 ≠ 0x96 then 2
  else if len % 4096 ≠ 0 ∨ len < 8192 ∨ 33546240 < len ∨ !posOk (leAt h 22 1) ∨ !posOk (leAt h 23 1) ∨ off % 4096 ≠ 0 ∨ off < 4096 ∨
      len < off + n ∨ load < 0x10000000 ∨ 0x10400000 < load + n ∨ entry < load ∨ load + n ≤ entry ∨
      ((h.drop 40).take 424).any (fun b => decide (b ≠ 0)) then 3
  else if (h.drop 464).take 48 ≠ fit 48 (Config.sha384 (h.take 464)) then 4
  else if 64 < leAt h 12 4 ∨ leAt h 12 4 < fuses then 5
  else 0

/-- The signatures of a bank's image under the policy of the fuses (11 R309); with SB_EN = 0 no image is refused for them. -/
def DieState.signed (d : DieState) (bank : Nat) : Bool :=
  let h := d.flashRead (bankAddr bank) 512
  let len := leAt h 8 4
  let digest := Config.sha384 (d.flashRead (bankAddr bank) len)
  let sb := d.flashRead (bankAddr bank + len) 8192
  let ec := decide (leAt h 22 1 ≠ 0xFF) && decide (d.sigCheck 0 (leAt h 22 1) (sb.take 97) ((sb.drop 0x68).take 96) digest = .ok)
  let ml := decide (leAt h 23 1 ≠ 0xFF) && decide (d.sigCheck 1 (leAt h 23 1) ((sb.drop 0xC8).take 1952) ((sb.drop 0x868).take 3309) digest = .ok)
  if !Config.fuseSbEn d.num then true else if Config.fuseSigpol d.num then ec && ml else ec || ml

end Sys2Proof.Machine
end

