-- ==== Sys2Proof/Machine/Mail.lean ====
section
/-! DEFINITION. Machine/Mail.lean: mailboxes and doorbells (chapter 13, R355 to R359). The words of mailbox m lie under
2·m (direction AB) and 2·m + 1 (BA); the flags of its ends under the channels m (end A) and m + 64 (end B). -/

namespace Sys2Proof.Machine

/-- A requester ID matches an END code (R355): code 4 is any host core. -/
def endMatches (code id : Nat) : Bool :=
  if code = 4 then decide (id < 4)
  else decide (code = id) && (decide (code < 4) || (decide (8 ≤ code) && decide (code ≤ 11)) || decide (code = 16) || decide (code = 17)
    || decide (code = 24))

/-- The END code of an end: 0 is end A, 1 end B. -/
def DieState.endCode (d : DieState) (m e : Nat) : Nat := if e = 0 then d.rd mbxCfgAEndA m else d.rd mbxCfgAEndB m

/-- The end as which a requester ID acts on a mailbox in use. -/
def DieState.mbEnd (d : DieState) (m id : Nat) : Option Nat :=
  if !d.bit mbxCfgAEn m then none
  else if endMatches (d.endCode m 0) id then some 0
  else if endMatches (d.endCode m 1) id then some 1
  else none

/-- The words of a direction: `e` is the end that writes it. -/
def DieState.mbWords (d : DieState) (m e : Nat) : List Word := Tab.get [] d.host.mbx (2 * m + e)

/-- Puts the words of a direction; the drain timer starts anew while words remain (R358). -/
def DieState.setMb (d : DieState) (m e : Nat) (ws : List Word) (start : Bool) : DieState :=
  let k := 2 * m + e
  { d with host := { d.host with
    mbx := Tab.put [] d.host.mbx k ws
    drain := if ws.isEmpty then Tab.erase d.host.drain k else if start then Tab.insert d.host.drain k d.now else d.host.drain } }

/-- An end appends words to its outbound direction, all or nothing (R356, 04 R100). True when they entered. -/
def DieState.mbSend (d : DieState) (m e : Nat) (ws : List Word) : Bool × DieState :=
  let q := d.mbWords m e
  if 8 < q.length + ws.length then (false, d) else (true, d.setMb m e (q ++ ws) q.isEmpty)

/-- An end takes `n` words from its inbound direction, all or nothing. -/
def DieState.mbTake (d : DieState) (m e n : Nat) : Option (List Word × DieState) :=
  let q := d.mbWords m (1 - e)
  if q.length < n then none else some (q.take n, d.setMb m (1 - e) (q.drop n) true)

/-- The channel under which the flags of an end lie. -/
def endChan (m e : Nat) : Nat := m + 64 * e

/-- A doorbell notifies the receiving end (R357). -/
def DieState.mbNotify (d : DieState) (m e : Nat) (v : Word) : DieState :=
  let code := d.endCode m e
  let c := endChan m e
  if code < 5 then
    let d1 := if d.bit mbxStatDb c then d.cnt mbxCntDbOvw m else d
    (d1.wr mbxStatDb 1 c).wr mbxDbVal v.toNat c
  else if 8 ≤ code ∧ code ≤ 11 then
    d.engineEvent (code - 8)
      { typ := 4, entry := if e = 0 then d.rd mbxCfgCEntry m else d.rd mbxCfgDEntry m, cls := 13, unit := m, w1 := m,
        w2 := ((d.mbWords m (1 - e)).headD 0).toNat }
  else if code = 16 then d.msixSend (if e = 0 then d.rd mbxCfgCVec m else d.rd mbxCfgDVec m)
  else if code = 17 then d.raise 0x0D01 v.toNat m
  else d

/-- A register of a mailbox end: refused with DECODE_ERROR for a requester that is no end (R355); the meaning gets the end. -/
def DieState.mbWrite (d : DieState) (req : Requester) (m off : Nat) (v : Word) (act : Nat → DieState → DieState) : DieState :=
  let e := d.mbEnd m (reqId req)
  d.writeReg req 13 m off v (fun d => act (e.getD 0) d) e.isNone

/-- A read of a mailbox end, with its effect. -/
def DieState.mbRead (d : DieState) (req : Requester) (m off : Nat) (value : Nat → DieState → Nat)
    (act : Nat → DieState → DieState) : DieState :=
  match d.regStatus req 13 m off false, d.mbEnd m (reqId req) with
  | .okay, none => d.complete req (regAddr 13 off) .decodeError
  | .okay, some e => act e (d.complete req (regAddr 13 off) .okay (value e d))
  | st, _ => d.complete req (regAddr 13 off) st

/-- A drain timer has run out: the sender's TMO flag, MB_TIMEOUT, the vector of a PCIe sender (R358); it does not run again until a
word is read. -/
def DieState.mbDrain (d : DieState) (m e : Nat) : DieState :=
  let k := 2 * m + e
  match Tab.get? d.host.drain k with
  | none => d
  | some t =>
    let tmo := d.rd mbxCfgB m
    if d.hallOn .host ∧ tmo ≠ 0 ∧ t + 1000 * tmo ≤ d.now ∧ d.mbWords m e ≠ [] then
      let d1 := ({ d with host := { d.host with drain := Tab.erase d.host.drain k } }).wr mbxStatTmo 1 (endChan m e)
      let d2 := d1.raise 0x0D02 e m
      if d2.endCode m e = 16 then d2.msixSend (if e = 0 then d2.rd mbxCfgCVec m else d2.rd mbxCfgDVec m) else d2
    else d

/-- Words of a direction are discarded and counted. -/
def DieState.mbDiscard (d : DieState) (m e : Nat) : DieState :=
  (d.cnt mbxCntFlushed m 0 0 (d.mbWords m e).length).setMb m e [] false

/-! ### The commands -/

/-- MBX_TX: a write of MBX.TX (R356). -/
def execMbTx (a : Acc) (m : Fin 16) (v : Word) (s : State) : Host.Outcome State Fault Refusal :=
  s.doOn a.die fun d => d.mbWrite a.req m 0x110 v fun e d =>
    let p := d.mbSend m e [v]
    if p.1 then p.2 else d.wr mbxStatOvf 1 (endChan m e)

/-- MBX_RX: a read of MBX.RX (R356). -/
def execMbRx (a : Acc) (m : Fin 16) (s : State) : Host.Outcome State Fault Refusal :=
  s.doOn a.die fun d => d.mbRead a.req m 0x114 (fun e d => ((d.mbWords m (1 - e)).headD 0).toNat) fun e d =>
    match d.mbTake m e 1 with
    | some p => p.2
    | none => d.wr mbxStatUnder 1 (endChan m e)

/-- MBX_DOORBELL_RING: a write of MBX.DOORBELL (R357). -/
def execMbDoorbellRing (a : Acc) (m : Fin 16) (v : Word) (s : State) : Host.Outcome State Fault Refusal :=
  s.doOn a.die fun d => d.mbWrite a.req m 0x118 v fun e d => d.mbNotify m (1 - e) v

/-- MBX_DB_VAL_READ: a read of MBX.DB_VAL clears DB (R357). -/
def execMbDbValRead (a : Acc) (m : Fin 16) (s : State) : Host.Outcome State Fault Refusal :=
  s.doOn a.die fun d => d.mbRead a.req m 0x11C (fun e d => d.rd mbxDbVal (endChan m e)) fun e d => d.wr mbxStatDb 0 (endChan m e)

/-- MB_DRAIN_TIMEOUT (R358): `ba` is the direction BA. -/
def execMbDrainTimeout (d : Die) (m : Fin 16) (ba : Bool) (s : State) : Host.Outcome State Fault Refusal :=
  s.doOn d fun d => d.mbDrain m (if ba then 1 else 0)

/-- MBX_FLUSH: a write of MBX.FLUSH (R358). -/
def execMbFlush (a : Acc) (m : Fin 16) (v : Word) (s : State) : Host.Outcome State Fault Refusal :=
  s.doOn a.die fun d => d.mbWrite a.req m 0x124 v fun e d =>
    let d1 := if v.getLsbD 0 then d.mbDiscard m e else d
    if v.getLsbD 1 then d1.mbDiscard m (1 - e) else d1

/-- CLUSTER_DOORBELL: a write of MBX.DB_c (R359). -/
def execClusterDoorbell (a : Acc) (cl : Fin 4) (v : Word) (s : State) : Host.Outcome State Fault Refusal :=
  s.doOn a.die fun d => d.writeReg a.req 13 0 (0x10 + 4 * cl) v fun d =>
    if d.bit mbxDbeEn 0 cl then
      d.engineEvent cl { typ := 6, entry := d.rd mbxDbeEntry 0 cl, cls := 13, unit := reqId a.req, w1 := reqId a.req, w2 := v.toNat }
    else d

end Sys2Proof.Machine
end

