-- ==== Sys2Proof/Machine/Forrek.lean ====
section
/-! DEFINITION. Machine/Forrek.lean: the Forrek instructions (chapter 4). Each command is the issue of one instruction by a
context: it has its effect when the context fetches the instruction's word (R85) and may issue (03 R74 to R76). -/

namespace Sys2Proof.Machine

/-! ### Issue -/

/-- The ready contexts of a context's engine, without it. -/
def DieState.readyOthers (d : DieState) (n : Nat) : List Nat :=
  ((List.range 4).map fun k => 4 * (n / 4) + k).filter fun k => decide (k ≠ n) && decide ((d.ctx k).state = .ready)

/-- The contexts of an engine hear that one of them has issued (R108 `yield`). -/
def DieState.heardIssue (d : DieState) (n : Nat) : DieState :=
  { d with eng := { d.eng with ctxs := d.eng.ctxs.map fun e =>
      if e.1 / 4 = n / 4 then (e.1, { e.2 with yields := e.2.yields.erase n }) else e } }

/-- A context that has yielded waits for the ready contexts that have not issued since (R108). -/
def DieState.yielding (d : DieState) (n : Nat) : Bool := (d.ctx n).yields.any fun k => decide ((d.ctx k).state = .ready)

/-- The word at a context's pc. -/
def DieState.fetchCode (d : DieState) (n : Nat) : Nat :=
  (Tab.get 0 d.eng.code (32768 * ctxCluster n + (d.ctx n).pc.toNat)).toNat

/-- The context may issue: bound and ready in a cluster that works, and it has no yield to keep. -/
def DieState.mayIssue (d : DieState) (n : Nat) : Bool :=
  d.hallOn (hallOfCluster (ctxCluster n)) && !(d.cluster (ctxCluster n)).fenced && decide ((d.ctx n).state = .ready) && !d.yielding n

/-- The fetch lies at or above the code top of the invocation's set (R106, 03 R59). -/
def DieState.aboveTop (d : DieState) (n : Nat) : Bool :=
  decide (d.rdAs (d.ctx n).tag fkeCodeTop (ctxCluster n) ≤ (d.ctx n).pc.toNat)

/-- One more instruction would exceed the LIMIT of the invocation's entry (03 R75). -/
def DieState.overLimit (d : DieState) (n : Nat) : Bool :=
  decide (d.rdAs (d.ctx n).tag fkeHtB (ctxCluster n) (d.ctx n).entry < (d.ctx n).count + 1)

/-- The instruction counts against the exposure limit and in ISSUED (03 R75). -/
def DieState.countIssue (d : DieState) (n : Nat) : DieState :=
  let d1 := (d.heardIssue n).cnt fkeIssued (ctxEngine n)
  d1.setCtx n { d1.ctx n with count := (d1.ctx n).count + 1, yields := [] }

/-- The issue of an instruction: the body runs once the instruction is fetched and counted. A context that may not issue, or
whose pc holds another word, issues nothing. -/
def DieState.issue (d : DieState) (c : Ctx) (i : Instr) (body : DieState → Context → DieState) : DieState :=
  let n := ctxNum c
  if !d.mayIssue n then d
  else if d.aboveTop n then d.abort n .badOpcode
  else if forrekWord i ≠ some (d.fetchCode n) then d
  else if d.overLimit n then d.abort n .exposure
  else
    let d1 := d.countIssue n
    if i.wf then body d1 (d1.ctx n) else d1.abort n .badOpcode

/-- The instruction completes: the context's new registers, and pc + 1 (R85). -/
def DieState.retire (d : DieState) (c : Ctx) (x : Context) : DieState := d.setCtx (ctxNum c) { x with pc := x.pc + 1 }

/-- An instruction that computes registers from registers. -/
def DieState.compute (d : DieState) (c : Ctx) (i : Instr) (f : Context → Context) : DieState :=
  d.issue c i fun d x => d.retire c (f x)

/-- A result with flags Z and N. -/
def Context.setZn (x : Context) (rd : Nat) (r : Word) : Context := { x.setGr rd r with st := flagsZN x.st r }

/-- A saturated result: Z, N, and SAT when the clamp changed its operand. -/
def Context.setSat (x : Context) (rd : Nat) (raw clamped : Int) : Context :=
  let r := lowWord clamped
  { x.setGr rd r with st := flagsSat (flagsZN x.st r) (decide (raw ≠ clamped)) }

/-- The 64-bit signed product. -/
def sprod (a b : Word) : Int := a.toInt * b.toInt

/-- A condition as a register value. -/
def boolWord (b : Bool) : Word := if b then 1 else 0

/-! ### Arithmetic and logic (R88 to R90) -/

def execAdd (c : Ctx) (rd ra rb : GReg) (s : State) : Host.Outcome State Fault Refusal :=
  s.doOn c.die fun d => d.compute c (.add c rd ra rb) fun x =>
    { x.setGr rd (x.gr ra + x.gr rb) with st := flagsAdd x.st (x.gr ra) (x.gr rb) }

def execSub (c : Ctx) (rd ra rb : GReg) (s : State) : Host.Outcome State Fault Refusal :=
  s.doOn c.die fun d => d.compute c (.sub c rd ra rb) fun x =>
    { x.setGr rd (x.gr ra - x.gr rb) with st := flagsSub x.st (x.gr ra) (x.gr rb) }

def execAnd (c : Ctx) (rd ra rb : GReg) (s : State) : Host.Outcome State Fault Refusal :=
  s.doOn c.die fun d => d.compute c (.and c rd ra rb) fun x => x.setZn rd (x.gr ra &&& x.gr rb)

def execOr (c : Ctx) (rd ra rb : GReg) (s : State) : Host.Outcome State Fault Refusal :=
  s.doOn c.die fun d => d.compute c (.or c rd ra rb) fun x => x.setZn rd (x.gr ra ||| x.gr rb)

def execXor (c : Ctx) (rd ra rb : GReg) (s : State) : Host.Outcome State Fault Refusal :=
  s.doOn c.die fun d => d.compute c (.xor c rd ra rb) fun x => x.setZn rd (x.gr ra ^^^ x.gr rb)

/-- The shift amount of a register: bits [4:0] (R88). -/
def shiftAmount (v : Word) : Nat := v.toNat % 32

def execShl (c : Ctx) (rd ra rb : GReg) (s : State) : Host.Outcome State Fault Refusal :=
  s.doOn c.die fun d => d.compute c (.shl c rd ra rb) fun x => x.setZn rd (x.gr ra <<< shiftAmount (x.gr rb))

def execShr (c : Ctx) (rd ra rb : GReg) (s : State) : Host.Outcome State Fault Refusal :=
  s.doOn c.die fun d => d.compute c (.shr c rd ra rb) fun x => x.setZn rd (x.gr ra >>> shiftAmount (x.gr rb))

def execSar (c : Ctx) (rd ra rb : GReg) (s : State) : Host.Outcome State Fault Refusal :=
  s.doOn c.die fun d => d.compute c (.sar c rd ra rb) fun x => x.setZn rd ((x.gr ra).sshiftRight (shiftAmount (x.gr rb)))

def execRol (c : Ctx) (rd ra rb : GReg) (s : State) : Host.Outcome State Fault Refusal :=
  s.doOn c.die fun d => d.compute c (.rol c rd ra rb) fun x => x.setZn rd ((x.gr ra).rotateLeft (shiftAmount (x.gr rb)))

def execMul (c : Ctx) (rd ra rb : GReg) (s : State) : Host.Outcome State Fault Refusal :=
  s.doOn c.die fun d => d.compute c (.mul c rd ra rb) fun x => x.setZn rd (x.gr ra * x.gr rb)

def execMulh (c : Ctx) (rd ra rb : GReg) (s : State) : Host.Outcome State Fault Refusal :=
  s.doOn c.die fun d => d.compute c (.mulh c rd ra rb) fun x => x.setZn rd (lowWord (sprod (x.gr ra) (x.gr rb) / 2 ^ 32))

def execMulhu (c : Ctx) (rd ra rb : GReg) (s : State) : Host.Outcome State Fault Refusal :=
  s.doOn c.die fun d => d.compute c (.mulhu c rd ra rb) fun x =>
    x.setZn rd (BitVec.ofNat 32 ((x.gr ra).toNat * (x.gr rb).toNat / 2 ^ 32))

def execMuls (c : Ctx) (rd ra rb : GReg) (s : State) : Host.Outcome State Fault Refusal :=
  s.doOn c.die fun d => d.compute c (.muls c rd ra rb) fun x =>
    let p := sprod (x.gr ra) (x.gr rb)
    x.setSat rd p (satS 32 p)

def execAdds (c : Ctx) (rd ra rb : GReg) (s : State) : Host.Outcome State Fault Refusal :=
  s.doOn c.die fun d => d.compute c (.adds c rd ra rb) fun x =>
    let p := (x.gr ra).toInt + (x.gr rb).toInt
    x.setSat rd p (satS 32 p)

def execSubs (c : Ctx) (rd ra rb : GReg) (s : State) : Host.Outcome State Fault Refusal :=
  s.doOn c.die fun d => d.compute c (.subs c rd ra rb) fun x =>
    let p := (x.gr ra).toInt - (x.gr rb).toInt
    x.setSat rd p (satS 32 p)

def execAddsu (c : Ctx) (rd ra rb : GReg) (s : State) : Host.Outcome State Fault Refusal :=
  s.doOn c.die fun d => d.compute c (.addsu c rd ra rb) fun x =>
    let p : Int := (x.gr ra).toNat + (x.gr rb).toNat
    x.setSat rd p (satU 32 p)

def execSubsu (c : Ctx) (rd ra rb : GReg) (s : State) : Host.Outcome State Fault Refusal :=
  s.doOn c.die fun d => d.compute c (.subsu c rd ra rb) fun x =>
    let p : Int := ((x.gr ra).toNat : Int) - (x.gr rb).toNat
    x.setSat rd p (satU 32 p)

def execMin (c : Ctx) (rd ra rb : GReg) (s : State) : Host.Outcome State Fault Refusal :=
  s.doOn c.die fun d => d.compute c (.min c rd ra rb) fun x =>
    x.setZn rd (if (x.gr ra).slt (x.gr rb) then x.gr ra else x.gr rb)

def execMax (c : Ctx) (rd ra rb : GReg) (s : State) : Host.Outcome State Fault Refusal :=
  s.doOn c.die fun d => d.compute c (.max c rd ra rb) fun x =>
    x.setZn rd (if (x.gr ra).slt (x.gr rb) then x.gr rb else x.gr ra)

def execMinu (c : Ctx) (rd ra rb : GReg) (s : State) : Host.Outcome State Fault Refusal :=
  s.doOn c.die fun d => d.compute c (.minu c rd ra rb) fun x =>
    x.setZn rd (if (x.gr ra).ult (x.gr rb) then x.gr ra else x.gr rb)

def execMaxu (c : Ctx) (rd ra rb : GReg) (s : State) : Host.Outcome State Fault Refusal :=
  s.doOn c.die fun d => d.compute c (.maxu c rd ra rb) fun x =>
    x.setZn rd (if (x.gr ra).ult (x.gr rb) then x.gr rb else x.gr ra)

def execSlt (c : Ctx) (rd ra rb : GReg) (s : State) : Host.Outcome State Fault Refusal :=
  s.doOn c.die fun d => d.compute c (.slt c rd ra rb) fun x => x.setZn rd (boolWord ((x.gr ra).slt (x.gr rb)))

def execSltu (c : Ctx) (rd ra rb : GReg) (s : State) : Host.Outcome State Fault Refusal :=
  s.doOn c.die fun d => d.compute c (.sltu c rd ra rb) fun x => x.setZn rd (boolWord ((x.gr ra).ult (x.gr rb)))

def execSat (c : Ctx) (rd ra : GReg) (k : Fin 32) (s : State) : Host.Outcome State Fault Refusal :=
  s.doOn c.die fun d => d.compute c (.sat c rd ra k) fun x => x.setSat rd (x.gr ra).toInt (satS (k + 1) (x.gr ra).toInt)

def execSatu (c : Ctx) (rd ra : GReg) (k : Fin 32) (s : State) : Host.Outcome State Fault Refusal :=
  s.doOn c.die fun d => d.compute c (.satu c rd ra k) fun x => x.setSat rd (x.gr ra).toInt (satU (k + 1) (x.gr ra).toInt)

/-- The bytes of a register in reverse order. -/
def swapBytes (v : Word) : Word := BitVec.ofNat 32 (leNat (leBytes 4 v.toNat).reverse)

def execBswap (c : Ctx) (rd ra : GReg) (s : State) : Host.Outcome State Fault Refusal :=
  s.doOn c.die fun d => d.compute c (.bswap c rd ra) fun x => x.setZn rd (swapBytes (x.gr ra))

/-- The two lanes after a saturating lane operation; SAT when either lane was clamped. -/
def Context.setLanes (x : Context) (rd : Nat) (p0 p1 : Int) : Context :=
  let r := lanes (satS 16 p0) (satS 16 p1)
  { x.setGr rd r with st := flagsSat (flagsZN x.st r) (decide (satS 16 p0 ≠ p0) || decide (satS 16 p1 ≠ p1)) }

def execAddsh (c : Ctx) (rd ra rb : GReg) (s : State) : Host.Outcome State Fault Refusal :=
  s.doOn c.die fun d => d.compute c (.addsh c rd ra rb) fun x =>
    x.setLanes rd (lane (x.gr ra) 0 + lane (x.gr rb) 0) (lane (x.gr ra) 1 + lane (x.gr rb) 1)

def execSubsh (c : Ctx) (rd ra rb : GReg) (s : State) : Host.Outcome State Fault Refusal :=
  s.doOn c.die fun d => d.compute c (.subsh c rd ra rb) fun x =>
    x.setLanes rd (lane (x.gr ra) 0 - lane (x.gr rb) 0) (lane (x.gr ra) 1 - lane (x.gr rb) 1)

def execMinh (c : Ctx) (rd ra rb : GReg) (s : State) : Host.Outcome State Fault Refusal :=
  s.doOn c.die fun d => d.compute c (.minh c rd ra rb) fun x =>
    x.setZn rd (lanes (min (lane (x.gr ra) 0) (lane (x.gr rb) 0)) (min (lane (x.gr ra) 1) (lane (x.gr rb) 1)))

def execMaxh (c : Ctx) (rd ra rb : GReg) (s : State) : Host.Outcome State Fault Refusal :=
  s.doOn c.die fun d => d.compute c (.maxh c rd ra rb) fun x =>
    x.setZn rd (lanes (max (lane (x.gr ra) 0) (lane (x.gr rb) 0)) (max (lane (x.gr ra) 1) (lane (x.gr rb) 1)))

def execPackh (c : Ctx) (rd ra rb : GReg) (s : State) : Host.Outcome State Fault Refusal :=
  s.doOn c.die fun d => d.compute c (.packh c rd ra rb) fun x => x.setZn rd (lanes (lane (x.gr ra) 0) (lane (x.gr rb) 0))

/-- The scaled value of `scl` and `sclu` before its clamp (R89). -/
def scaled (a b k : Word) : Int := (sprod a b + 0x8000) / 2 ^ 16 + k.toInt

def execScl (c : Ctx) (rd ra rb rc : GReg) (k : Fin 32) (s : State) : Host.Outcome State Fault Refusal :=
  s.doOn c.die fun d => d.compute c (.scl c rd ra rb rc k) fun x =>
    let r := scaled (x.gr ra) (x.gr rb) (x.gr rc)
    x.setSat rd r (satS (k + 1) r)

def execSclu (c : Ctx) (rd ra rb rc : GReg) (k : Fin 32) (s : State) : Host.Outcome State Fault Refusal :=
  s.doOn c.die fun d => d.compute c (.sclu c rd ra rb rc k) fun x =>
    let r := scaled (x.gr ra) (x.gr rb) (x.gr rc)
    x.setSat rd r (satU (k + 1) r)

def execAddi (c : Ctx) (rd ra : GReg) (imm : BitVec 16) (s : State) : Host.Outcome State Fault Refusal :=
  s.doOn c.die fun d => d.compute c (.addi c rd ra imm) fun x =>
    { x.setGr rd (x.gr ra + sext16 imm) with st := flagsAdd x.st (x.gr ra) (sext16 imm) }

def execAndi (c : Ctx) (rd ra : GReg) (imm : BitVec 16) (s : State) : Host.Outcome State Fault Refusal :=
  s.doOn c.die fun d => d.compute c (.andi c rd ra imm) fun x => x.setZn rd (x.gr ra &&& zext16 imm)

def execOri (c : Ctx) (rd ra : GReg) (imm : BitVec 16) (s : State) : Host.Outcome State Fault Refusal :=
  s.doOn c.die fun d => d.compute c (.ori c rd ra imm) fun x => x.setZn rd (x.gr ra ||| zext16 imm)

def execXori (c : Ctx) (rd ra : GReg) (imm : BitVec 16) (s : State) : Host.Outcome State Fault Refusal :=
  s.doOn c.die fun d => d.compute c (.xori c rd ra imm) fun x => x.setZn rd (x.gr ra ^^^ zext16 imm)

def execLui (c : Ctx) (rd : GReg) (imm : BitVec 16) (s : State) : Host.Outcome State Fault Refusal :=
  s.doOn c.die fun d => d.compute c (.lui c rd imm) fun x => x.setGr rd (zext16 imm <<< 16)

def execShli (c : Ctx) (rd ra : GReg) (n : Fin 32) (s : State) : Host.Outcome State Fault Refusal :=
  s.doOn c.die fun d => d.compute c (.shli c rd ra n) fun x => x.setZn rd (x.gr ra <<< n.val)

def execShri (c : Ctx) (rd ra : GReg) (n : Fin 32) (s : State) : Host.Outcome State Fault Refusal :=
  s.doOn c.die fun d => d.compute c (.shri c rd ra n) fun x => x.setZn rd (x.gr ra >>> n.val)

def execSari (c : Ctx) (rd ra : GReg) (n : Fin 32) (s : State) : Host.Outcome State Fault Refusal :=
  s.doOn c.die fun d => d.compute c (.sari c rd ra n) fun x => x.setZn rd ((x.gr ra).sshiftRight n.val)

def execRoli (c : Ctx) (rd ra : GReg) (n : Fin 32) (s : State) : Host.Outcome State Fault Refusal :=
  s.doOn c.die fun d => d.compute c (.roli c rd ra n) fun x => x.setZn rd ((x.gr ra).rotateLeft n.val)

def execSlti (c : Ctx) (rd ra : GReg) (imm : BitVec 16) (s : State) : Host.Outcome State Fault Refusal :=
  s.doOn c.die fun d => d.compute c (.slti c rd ra imm) fun x => x.setZn rd (boolWord ((x.gr ra).slt (sext16 imm)))

def execSltiu (c : Ctx) (rd ra : GReg) (imm : BitVec 16) (s : State) : Host.Outcome State Fault Refusal :=
  s.doOn c.die fun d => d.compute c (.sltiu c rd ra imm) fun x => x.setZn rd (boolWord ((x.gr ra).ult (sext16 imm)))

/-! ### Local data memory (R91) -/

/-- A load of `width` bytes: MEM_BOUND, or the bytes as `f` extends them. -/
def DieState.load (d : DieState) (c : Ctx) (i : Instr) (rd ra : GReg) (imm : BitVec 16) (width : Nat) (f : Nat → Word) : DieState :=
  d.issue c i fun d x =>
    match dataAddr (x.gr ra) imm width with
    | none => d.abort (ctxNum c) .memBound
    | some ea => d.retire c (x.setGr rd (f (leNat (d.dataBytes c ea width))))

/-- A store of the low `width` bytes of a register. -/
def DieState.store (d : DieState) (c : Ctx) (i : Instr) (rs ra : GReg) (imm : BitVec 16) (width : Nat) : DieState :=
  d.issue c i fun d x =>
    match dataAddr (x.gr ra) imm width with
    | none => d.abort (ctxNum c) .memBound
    | some ea => (d.setData c ea (leBytes width (x.gr rs).toNat)).retire c x

/-- The sign extension of an `n`-bit number. -/
def sextBits (n v : Nat) : Word := (BitVec.ofNat n v).signExtend 32

def execLdb (c : Ctx) (rd ra : GReg) (imm : BitVec 16) (s : State) : Host.Outcome State Fault Refusal :=
  s.doOn c.die fun d => d.load c (.ldb c rd ra imm) rd ra imm 1 (BitVec.ofNat 32)

def execLdh (c : Ctx) (rd ra : GReg) (imm : BitVec 16) (s : State) : Host.Outcome State Fault Refusal :=
  s.doOn c.die fun d => d.load c (.ldh c rd ra imm) rd ra imm 2 (BitVec.ofNat 32)

def execLdw (c : Ctx) (rd ra : GReg) (imm : BitVec 16) (s : State) : Host.Outcome State Fault Refusal :=
  s.doOn c.die fun d => d.load c (.ldw c rd ra imm) rd ra imm 4 (BitVec.ofNat 32)

def execLdbs (c : Ctx) (rd ra : GReg) (imm : BitVec 16) (s : State) : Host.Outcome State Fault Refusal :=
  s.doOn c.die fun d => d.load c (.ldbs c rd ra imm) rd ra imm 1 (sextBits 8)

def execLdhs (c : Ctx) (rd ra : GReg) (imm : BitVec 16) (s : State) : Host.Outcome State Fault Refusal :=
  s.doOn c.die fun d => d.load c (.ldhs c rd ra imm) rd ra imm 2 (sextBits 16)

def execStb (c : Ctx) (rs ra : GReg) (imm : BitVec 16) (s : State) : Host.Outcome State Fault Refusal :=
  s.doOn c.die fun d => d.store c (.stb c rs ra imm) rs ra imm 1

def execSth (c : Ctx) (rs ra : GReg) (imm : BitVec 16) (s : State) : Host.Outcome State Fault Refusal :=
  s.doOn c.die fun d => d.store c (.sth c rs ra imm) rs ra imm 2

def execStw (c : Ctx) (rs ra : GReg) (imm : BitVec 16) (s : State) : Host.Outcome State Fault Refusal :=
  s.doOn c.die fun d => d.store c (.stw c rs ra imm) rs ra imm 4

/-! ### Frame access (R92 to R95) -/

/-- The bytes from the base of a field on, or none for a frame access that ends with CURSOR_END (R93). -/
def Context.fieldBytes (x : Context) (src : FieldSrc) (pos w : Nat) : Option (List Byte) :=
  match src with
  | .reg r => some (regBytes (x.gr r))
  | .cur =>
    match x.frame with
    | none => none
    | some f => if fieldFits f x.cur.toNat pos w then some (f.bytes.drop x.cur.toNat) else none

/-- A field extract, with the field as `f` extends it. -/
def DieState.extract (d : DieState) (c : Ctx) (i : Instr) (rd : GReg) (src : FieldSrc) (pos w : Nat) (o : BitOrder)
    (f : Nat → Word) : DieState :=
  d.issue c i fun d x =>
    match x.fieldBytes src pos w with
    | none => d.abort (ctxNum c) .cursorEnd
    | some bs => d.retire c (x.setZn rd (f (fieldOf bs o pos w)))

def execFext (c : Ctx) (rd : GReg) (src : FieldSrc) (pos : BitVec 11) (w1 : Fin 32) (o : BitOrder) (s : State) :
    Host.Outcome State Fault Refusal :=
  s.doOn c.die fun d => d.extract c (.fext c rd src pos w1 o) rd src pos.toNat (w1 + 1) o (BitVec.ofNat 32)

def execFexts (c : Ctx) (rd : GReg) (src : FieldSrc) (pos : BitVec 11) (w1 : Fin 32) (o : BitOrder) (s : State) :
    Host.Outcome State Fault Refusal :=
  s.doOn c.die fun d => d.extract c (.fexts c rd src pos w1 o) rd src pos.toNat (w1 + 1) o (sextBits (w1 + 1))

/-- The context with a field of the frame at the cursor or of a register replaced. -/
def Context.insertField (x : Context) (dst : FieldSrc) (o : BitOrder) (pos w v : Nat) : Context :=
  match dst with
  | .reg r => x.setGr r (BitVec.ofNat 32 (leNat (setFieldOf (regBytes (x.gr r)) o pos w v)))
  | .cur => x.onFd fun f => { f with bytes := f.bytes.take x.cur.toNat ++ setFieldOf (f.bytes.drop x.cur.toNat) o pos w v }

def execFins (c : Ctx) (dst : FieldSrc) (pos : BitVec 11) (w1 : Fin 32) (rs : GReg) (o : BitOrder) (s : State) :
    Host.Outcome State Fault Refusal :=
  s.doOn c.die fun d => d.issue c (.fins c dst pos w1 rs o) fun d x =>
    match x.fieldBytes dst pos.toNat (w1 + 1) with
    | none => d.abort (ctxNum c) .cursorEnd
    | some _ => d.retire c (x.insertField dst o pos.toNat (w1 + 1) (x.gr rs).toNat)

/-- A cursor instruction: a result outside 0 to 65,535 ends with CURSOR_END (R94). -/
def DieState.moveCursor (d : DieState) (c : Ctx) (x : Context) (v : Int) : DieState :=
  if 0 ≤ v ∧ v < 65536 then d.retire c { x with cur := BitVec.ofInt 16 v } else d.abort (ctxNum c) .cursorEnd

def execCset (c : Ctx) (imm : BitVec 16) (s : State) : Host.Outcome State Fault Refusal :=
  s.doOn c.die fun d => d.issue c (.cset c imm) fun d x => d.moveCursor c x imm.toNat

def execCadd (c : Ctx) (imm : BitVec 16) (s : State) : Host.Outcome State Fault Refusal :=
  s.doOn c.die fun d => d.issue c (.cadd c imm) fun d x => d.moveCursor c x (x.cur.toNat + imm.toInt)

/-- ra is unsigned (DEDUCED, log 37). -/
def execCsetr (c : Ctx) (ra : GReg) (imm : BitVec 16) (s : State) : Host.Outcome State Fault Refusal :=
  s.doOn c.die fun d => d.issue c (.csetr c ra imm) fun d x => d.moveCursor c x ((x.gr ra).toNat + imm.toInt)

def execFlen (c : Ctx) (rd : GReg) (s : State) : Host.Outcome State Fault Refusal :=
  s.doOn c.die fun d => d.compute c (.flen c rd) fun x =>
    x.setGr rd (match x.frame with
      | some f => BitVec.ofNat 32 f.bytes.length
      | none => 0)

/-- A new frame of an invocation (R71, 08 R205): ALLOC_FAIL beyond four frames or without descriptor or cell of P_27's pool. -/
def DieState.allocFrame (d : DieState) (c : Ctx) (x : Context) (rd : GReg) (bytes : List Byte) : DieState :=
  let n := ctxNum c
  let pool := d.rdAs x.tag ethRxcAPool 27 0
  let k := cellsOf bytes.length
  if !d.hallOn .swc then d.abort n .memBound
  else if 4 ≤ x.held.length then d.abort n .allocFail
  else if 65536 ≤ d.sw.descUsed then (d.abort n .allocFail).raiseHeld 0x0501 0 1000000
  else
    let r := d.takeIn 27 pool 0 k 0
    if !r.1 then r.2.abort n .allocFail
    else
      let p := r.2.storeHeld { bytes := bytes, port := 27, pool := pool, ingress := 27, cells := k, refs := 1, tag := x.tag }
      let fd := p.2.eng.nextFd
      let f : EFrame := { bytes := bytes, kind := .made, ingress := 27, tag := x.tag, desc := some p.1, origin := x.origin }
      let y := { x with held := x.held ++ [(fd, f)], fd := some fd, cur := 0 }
      let d1 := { p.2 with eng := { p.2.eng with nextFd := fd + 1 } }
      d1.retire c (y.setGr rd (fdWord x.fd))

def execFnew (c : Ctx) (rd ra : GReg) (len : BitVec 16) (s : State) : Host.Outcome State Fault Refusal :=
  s.doOn c.die fun d => d.issue c (.fnew c rd ra len) fun d x =>
    let a := (x.gr ra).toNat
    if 0x3400 < a + len.toNat then d.abort (ctxNum c) .memBound
    else d.allocFrame c x rd (d.dataBytes c a len.toNat)

def execFnewz (c : Ctx) (rd : GReg) (len : BitVec 16) (s : State) : Host.Outcome State Fault Refusal :=
  s.doOn c.die fun d => d.issue c (.fnewz c rd len) fun d x => d.allocFrame c x rd (List.replicate len.toNat 0)

/-- The held frame whose descriptor a register names; `some none` for 0xFFFF_FFFF (R95). -/
def Context.named (x : Context) (v : Word) : Option (Option Nat) :=
  if v = 0xFFFFFFFF then some none
  else (x.held.find? fun p => decide (Config.descriptor p.1 = v)).map fun p => some p.1

def execFswp (c : Ctx) (rd ra : GReg) (s : State) : Host.Outcome State Fault Refusal :=
  s.doOn c.die fun d => d.issue c (.fswp c rd ra) fun d x =>
    match x.named (x.gr ra) with
    | none => d.abort (ctxNum c) .memBound
    | some k => d.retire c { x.setGr rd (fdWord x.fd) with fd := k, cur := 0 }

/-! ### Emit (03 R72, Table 3.6) -/

/-- The fields of an emit word that R72 takes. -/
structure EmitWord where
  target : Nat
  kind   : Nat
  tc     : Nat
  tsreq  : Bool
  deriving DecidableEq, Repr

/-- The emit word: none for a reserved KIND, an out-of-range TARGET or a bit of [31:15]. KIND 0 has no TARGET. -/
def emitWord (w : Word) : Option EmitWord :=
  let v := w.toNat
  let e : EmitWord := { target := v % 256, kind := v / 256 % 8, tc := v / 2048 % 8, tsreq := v.testBit 14 }
  let ok : Bool := match e.kind with
    | 0 => true
    | 1 => decide (e.target ≤ 28) && decide (e.target ≠ 27)
    | 2 => decide (e.target ≤ 31)
    | 3 => decide (e.target ≤ 7)
    | _ => false
  if v < 2 ^ 15 ∧ ok = true then some e else none

/-- The kind of a frame fits its target; a frame that `fnew` made takes the kind of its target. -/
def EmitWord.fits (e : EmitWord) (k : FrameKind) : Bool :=
  match k with
  | .eth => decide (e.kind < 2)
  | .can => decide (2 ≤ e.kind)
  | .lin => decide (2 ≤ e.kind)
  | .made => true

/-- The field-bus frame that an image stands for at a target, if R72 accepts it: its format fits the target and its DLEN the
format. -/
def EmitWord.busFrame (e : EmitWord) (bs : List Byte) : Option BusFrame :=
  let n := imageDlen bs
  match fmtOf (byteAt bs 4).toNat with
  | some .cc => if e.kind = 2 ∧ n ≤ 8 then some (frameOfImage bs .cc n) else none
  | some .fd => if e.kind = 2 ∧ n ≤ 64 then some (frameOfImage bs .fd n) else none
  | some .xl => if e.kind = 2 ∧ 1 ≤ n ∧ n ≤ 2048 then some (frameOfImage bs .xl n) else none
  | some .lin => if e.kind = 3 ∧ 1 ≤ n ∧ n ≤ 8 then some (frameOfImage bs .lin n) else none
  | none => none

/-- An emitted Ethernet frame in the packet buffer: its own descriptor when it holds the only reference, else a new one, charged
to P_27. -/
def DieState.emitStore (d : DieState) (f : EFrame) (g : SFrame → SFrame) : Nat × DieState :=
  let old := f.desc.bind fun n => (d.frameOf n).map fun x => (n, x)
  match old with
  | some (n, x) =>
    if x.refs ≤ 1 then (n, d.onFrame n g)
    else (d.releaseFrame n).storeFrame
      (g { bytes := f.bytes, port := 27, pool := d.rd ethRxcAPool 27 0, ingress := 27, cells := cellsOf f.bytes.length, refs := 1 })
  | none => d.storeFrame
      (g { bytes := f.bytes, port := 27, pool := d.rd ethRxcAPool 27 0, ingress := 27, cells := cellsOf f.bytes.length, refs := 1 })

/-- An Ethernet frame is sent: to the lookup as received on P_27 (KIND 0), or into a port's queue (KIND 1). On a standby it is
freed (12 R329). -/
def DieState.emitEth (d : DieState) (n : Nat) (x : Context) (f : EFrame) (e : EmitWord) : DieState :=
  if d.pairMode = 1 ∧ (d.role = 2 ∨ d.role = 4) then (d.freeEFrame f).cnt stwCntMirrorSuppressed
  else
    let inv := if e.kind = 0 then some (2 * n + if x.released then 1 else 0) else none
    let r := d.emitStore f fun s =>
      { s with bytes := f.bytes, ingress := 27, len := 0, edit := false, noEng := false, stamp := d.stamp 0, rxPos := d.position 0,
               tc := e.tc, dei := false, handle := none, seqGen := none, macsec := false, tag := x.tag,
               tsReq := if e.tsreq then some (0, 0) else none, origin := withEidx x.origin x.emits, inv := inv }
    if e.kind = 0 then r.2.onPort 27 fun p => { p with rx := p.rx ++ [r.1] }
    else (r.2.enqueueCopy r.1 e.target e.tc).releaseFrame r.1

/-- A field-bus frame is sent: into the channel's transmit queue, or the response buffer of its identifier; its buffer is free. -/
def DieState.emitBus (d : DieState) (x : Context) (f : EFrame) (e : EmitWord) (b : BusFrame) : DieState :=
  let d1 := d.freeEFrame f
  let o := withEidx x.origin x.emits
  if e.kind = 2 then (d1.canEnqueue e.target { frame := b, src := 1, tag := x.tag, origin := o }).2
  else (d1.linStore e.target (b.id.toNat % 64) b.data o).2

/-- BAD_EMIT frees the frame and ends the invocation. -/
def DieState.badEmit (d : DieState) (n : Nat) (x : Context) (f : EFrame) : DieState :=
  ((d.freeEFrame f).setCtx n x.dropFd).abort n .badEmit

def execEmit (c : Ctx) (ra : GReg) (s : State) : Host.Outcome State Fault Refusal :=
  s.doOn c.die fun d => d.issue c (.emit c ra) fun d x =>
    let n := ctxNum c
    let y := { x.dropFd with emits := x.emits + 1 }
    match x.frame, emitWord (x.gr ra) with
    | none, _ => d.abort n .cursorEnd
    | some f, none => d.badEmit n x f
    | some f, some e =>
      if !e.fits f.kind then d.badEmit n x f
      else if e.kind < 2 then
        if d.hallOn .swc then (d.emitEth n x f e).retire c y else d.abort n .memBound
      else
        match e.busFrame f.bytes with
        | none => d.badEmit n x f
        | some b => if d.hallOn .bus then (d.emitBus x f e b).retire c y else d.abort n .memBound

def execFfree (c : Ctx) (s : State) : Host.Outcome State Fault Refusal :=
  s.doOn c.die fun d => d.issue c (.ffree c) fun d x =>
    match x.frame with
    | some f => (d.consume f).retire c x.dropFd
    | none => d.retire c x

def execFsetlen (c : Ctx) (ra : GReg) (s : State) : Host.Outcome State Fault Refusal :=
  s.doOn c.die fun d => d.issue c (.fsetlen c ra) fun d x =>
    let n := (x.gr ra).toNat
    match x.frame with
    | none => d.abort (ctxNum c) .cursorEnd
    | some f =>
      let bus := decide (f.kind = .can) || decide (f.kind = .lin)
      if f.bytes.length < n ∨ (bus ∧ n < 16) then d.abort (ctxNum c) .cursorEnd
      else if bus then
        d.retire c (x.onFd fun f => { f with bytes := f.bytes.take 6 ++ leBytes 2 (n - 16) ++ (f.bytes.take n).drop 8 })
      else d.retire c (x.onFd fun f => { f with bytes := f.bytes.take n })

/-! ### CRC (R96) -/

/-- The bytes that a CRC folds in, or the cause that ends the invocation. -/
def DieState.crcBytes (d : DieState) (c : Ctx) (x : Context) (src : CrcSrc) (n : Nat) : Except Cause (List Byte) :=
  match src with
  | .cur =>
    match x.frame with
    | none => .error .cursorEnd
    | some f => if x.cur.toNat + n ≤ f.bytes.length then .ok ((f.bytes.drop x.cur.toNat).take n) else .error .cursorEnd
  | .mem r =>
    let a := (x.gr r).toNat
    if a + n ≤ 0x3400 then .ok (d.dataBytes c a n) else .error .memBound

/-- A CRC instruction: rd, and Z. -/
def DieState.crcIssue (d : DieState) (c : Ctx) (i : Instr) (rd : GReg) (src : CrcSrc) (n1 : BitVec 11)
    (f : Context → List Byte → Nat) : DieState :=
  d.issue c i fun d x =>
    match d.crcBytes c x src (n1.toNat + 1) with
    | .error e => d.abort (ctxNum c) e
    | .ok bs =>
      let r := BitVec.ofNat 32 (f x bs)
      d.retire c { x.setGr rd r with st := setSt x.st .z (decide (r = 0)) }

def execCrc8 (c : Ctx) (rd ra : GReg) (src : CrcSrc) (n1 : BitVec 11) (s : State) : Host.Outcome State Fault Refusal :=
  s.doOn c.die fun d => d.crcIssue c (.crc8 c rd ra src n1) rd src n1 fun x bs => crc8Of ((x.gr ra).toNat % 2 ^ 8) bs

def execCrc16 (c : Ctx) (rd ra : GReg) (src : CrcSrc) (n1 : BitVec 11) (s : State) : Host.Outcome State Fault Refusal :=
  s.doOn c.die fun d => d.crcIssue c (.crc16 c rd ra src n1) rd src n1 fun x bs => crc16Of ((x.gr ra).toNat % 2 ^ 16) bs

def execCrc32c (c : Ctx) (rd ra : GReg) (src : CrcSrc) (n1 : BitVec 11) (s : State) : Host.Outcome State Fault Refusal :=
  s.doOn c.die fun d => d.crcIssue c (.crc32c c rd ra src n1) rd src n1 fun x bs => crc32cOf (x.gr ra).toNat bs

/-! ### Gallery instructions (R97, R98) -/

/-- The handle in a register: its low 16 bits. -/
def handleReg (v : Word) : Nat := v.toNat % 65536

/-- A Gallery access that the Gallery does not take ends the invocation, and the event of its status records the requester
and the slot (01 R18, 05 R113). -/
def DieState.galRefuse (d : DieState) (n h : Nat) (st : Status) : DieState :=
  let cl := ctxCluster n
  (d.abort n .memBound).raise (0x000F + st.code) (slotAddr h) 0 (8 + cl) ((d.rd sysSecCfgFc).testBit cl)

/-- A context has a write under way that the Gallery has not applied. -/
def DieState.ownWrite (d : DieState) (n : Nat) : Bool := d.gal.pipe.any fun r => decide (r.ctx = some n)

/-- The Gallery applies writes of the pipeline until none of the context's is left (R98). -/
def DieState.galCatchUp (fuel : Nat) (d : DieState) (n : Nat) : DieState :=
  match fuel with
  | 0 => d
  | k + 1 => if d.ownWrite n then DieState.galCatchUp k d.galApply n else d

/-- A Gallery read: the registers that `f` takes from the slot. -/
def DieState.galRead (d : DieState) (c : Ctx) (i : Instr) (ra : GReg) (f : Context → Slot → Context) : DieState :=
  d.issue c i fun d x =>
    let h := handleReg (x.gr ra)
    match d.galShut with
    | some st => d.galRefuse (ctxNum c) h st
    | none =>
      let d1 := d.galCatchUp d.gal.pipe.length (ctxNum c)
      d1.retire c (f (d1.ctx (ctxNum c)) (d1.galSlot h))

def execGget (c : Ctx) (rd ra : GReg) (s : State) : Host.Outcome State Fault Refusal :=
  s.doOn c.die fun d => d.galRead c (.gget c rd ra) ra fun x t => x.setGr rd t.value

def execGgets (c : Ctx) (rd ra : GReg) (s : State) : Host.Outcome State Fault Refusal :=
  s.doOn c.die fun d => d.galRead c (.ggets c rd ra) ra fun x t => x.setGr rd t.stamp

def execGgetm (c : Ctx) (rd ra : GReg) (s : State) : Host.Outcome State Fault Refusal :=
  s.doOn c.die fun d => d.galRead c (.ggetm c rd ra) ra fun x t =>
    x.setGr rd (BitVec.ofNat 32 (t.seq % 65536 + t.status % 256 * 65536 + t.source % 256 * 2 ^ 24))

def execGgetp (c : Ctx) (rd ra : GReg) (s : State) : Host.Outcome State Fault Refusal :=
  s.doOn c.die fun d => d.galRead c (.ggetp c rd ra) ra fun x t => x.setGroup rd [t.value, t.stamp]

/-- A Gallery write is issued: the context stalls until the write is in the pipeline, or, for an atomic, until its result is
there. A group past handle 0xFFFF ends with GAL_PROTECT. -/
def DieState.galWrite (d : DieState) (c : Ctx) (i : Instr) (ra : GReg) (n : Nat) (op : Context → GalOp) : DieState :=
  d.issue c i fun d x =>
    let h := handleReg (x.gr ra)
    let cl := ctxCluster (ctxNum c)
    match d.galShut with
    | some st => d.galRefuse (ctxNum c) h st
    | none =>
      if 65536 < h + n then d.abort (ctxNum c) .galProtect
      else (d.setCtx (ctxNum c) { x with state := .stalled }).galIssue
        { pos := cl, source := 8 + cl, handle := h, op := op x, ctx := some (ctxNum c), origin := x.origin }

def execGput (c : Ctx) (ra rb rc : GReg) (s : State) : Host.Outcome State Fault Refusal :=
  s.doOn c.die fun d => d.galWrite c (.gput c ra rb rc) ra 1 fun x => .put [x.gr rb] (x.gr rc) 1

def execGputn (c : Ctx) (ra rb rc : GReg) (k : Fin 32) (s : State) : Host.Outcome State Fault Refusal :=
  s.doOn c.die fun d => d.galWrite c (.gputn c ra rb rc k) ra (k + 1) fun x => .put (x.group rb (k + 1)) (x.gr rc) 1

def execGadd (c : Ctx) (rd ra rb : GReg) (s : State) : Host.Outcome State Fault Refusal :=
  s.doOn c.die fun d => d.galWrite c (.gadd c rd ra rb) ra 1 fun x => .add rd (x.gr rb)

def execGcas (c : Ctx) (rd ra rb rc : GReg) (s : State) : Host.Outcome State Fault Refusal :=
  s.doOn c.die fun d => d.galWrite c (.gcas c rd ra rb rc) ra 1 fun x => .cas rd (x.gr rb) (x.gr rc)

/-! ### Table lookups (R99, 03 R68) -/

/-- The key of a lookup, as Table 4.13 lays it out: none when a bit not listed is set. -/
def lookupKey (t : Nat) (k0 k1 : Nat) : Option (List Nat) :=
  match t with
  | 0 => if k1 < 2 ^ 28 then some [k0, k1] else none
  | 1 => if k0 < 2 ^ 12 then some [k0] else none
  | 2 => if k1 < 2 ^ 31 then some [k0, k1] else none
  | 3 => if k0 < 2 ^ 12 then some [k0] else none
  | 4 => if k0 < 2 ^ 11 then some [k0] else none
  | 5 => if k0 < 2 ^ 16 then some [k0] else none
  | 6 => if k0 < 2 ^ 29 ∧ k1 < 2 ^ 5 then some [k0, k1] else none
  | _ => none

/-- The hall of a table. -/
def lkpHall (t : Nat) : Hall := if t < 5 then .swc else .bus

/-- A tag of a context. -/
def Context.lkpTag (x : Context) (k : Nat) : LkpTag := x.tags.toList.getD k .free

/-- Puts a tag. -/
def Context.setTag (x : Context) (k : Nat) (t : LkpTag) : Context := { x with tags := x.tags.setIfInBounds k t }

/-- `lkp` on a tag in use has not issued. -/
def execLkp (c : Ctx) (ra : GReg) (table : Fin 8) (tag : Fin 4) (s : State) : Host.Outcome State Fault Refusal :=
  s.doOn c.die fun d =>
    if (d.ctx (ctxNum c)).lkpTag tag ≠ .free then d
    else d.issue c (.lkp c ra table tag) fun d x =>
      match lookupKey table (x.gr ra).toNat (x.gr (ra + 1)).toNat with
      | none => d.abort (ctxNum c) .memBound
      | some key => d.retire c (x.setTag tag (if d.hallOn (lkpHall table) then .busy table key else .asleep))

/-- A tag waits for its result. -/
def LkpTag.waits (t : LkpTag) : Bool :=
  match t with
  | .busy _ _ => true
  | _ => false

/-- `lwait` stalls until the result has arrived. -/
def execLwait (c : Ctx) (rd : GReg) (tag : Fin 4) (s : State) : Host.Outcome State Fault Refusal :=
  s.doOn c.die fun d =>
    if ((d.ctx (ctxNum c)).lkpTag tag).waits then d
    else d.issue c (.lwait c rd tag) fun d x =>
      match x.lkpTag tag with
      | .asleep => d.abort (ctxNum c) .memBound
      | .done hit w0 w1 => d.retire c { (x.setTag tag .free).setGroup rd [w0, w1] with st := setSt x.st .hit hit }
      | _ => d.retire c { x.setGroup rd [0, 0] with st := setSt x.st .hit false }

/-- The unit that answers a lookup runs: the table unit of the Frame hall, or the routes of the Bus hall. -/
def DieState.lkpOn (d : DieState) (t : Nat) : Bool :=
  d.hallOn (lkpHall t) && !(decide (t < 5) && d.fences.contains 70) && !(decide (5 ≤ t) && d.fences.contains 73)

/-- LOOKUP_RESULT (03 R68): the answer under the invocation's set. -/
def execLookupResult (c : Ctx) (tag : Fin 4) (s : State) : Host.Outcome State Fault Refusal :=
  s.doOn c.die fun d =>
    let n := ctxNum c
    let x := d.ctx n
    match x.lkpTag tag with
    | .busy t key =>
      if !d.lkpOn t then d.setCtx n (x.setTag tag .asleep)
      else
        let r := if t < 5 then d.lkpAnswer x.tag t key else d.routeAnswer x.tag t key
        (d.lkpReads t key).setCtx n (x.setTag tag (.done r.1 (BitVec.ofNat 32 r.2.1) (BitVec.ofNat 32 r.2.2)))
    | _ => d

/-! ### Queue blocks, mailboxes, events, cipher jobs (R100 to R102) -/

/-- An instruction on a queue block: MEM_BOUND for an index above 63 or a hall that is off. -/
def DieState.withQueue (d : DieState) (c : Ctx) (x : Context) (ra : GReg) (f : Nat → DieState) : DieState :=
  let q := (x.gr ra).toNat
  if 63 < q ∨ !d.hallOn .host then d.abort (ctxNum c) .memBound else f q

def execQput (c : Ctx) (ra rb : GReg) (k : Fin 8) (s : State) : Host.Outcome State Fault Refusal :=
  s.doOn c.die fun d => d.issue c (.qput c ra rb k) fun d x => d.withQueue c x ra fun q =>
    let p := d.qbWrite q (x.group rb (k + 1))
    p.2.retire c { x with st := setSt x.st .fail !p.1 }

def execQget (c : Ctx) (rd ra : GReg) (k : Fin 8) (s : State) : Host.Outcome State Fault Refusal :=
  s.doOn c.die fun d => d.issue c (.qget c rd ra k) fun d x => d.withQueue c x ra fun q =>
    let n := k.val + 1
    if d.bit qbkCfgAEn q ∧ n ≤ d.qbUnread q then
      let ws := (List.range n).map fun i => d.qbWord q i
      (d.qbTake q n).retire c { x.setGroup rd ws with st := setSt x.st .fail false }
    else d.retire c { x.setGroup rd (List.replicate n 0) with st := setSt x.st .fail true }

/-- An instruction on a mailbox: MEM_BOUND for an index above 15, a secure mailbox from a non-secure cluster, a hall that is
off, or a mailbox of which the cluster is no end (DEDUCED, log 38). -/
def DieState.withMailbox (d : DieState) (c : Ctx) (x : Context) (ra : GReg) (f : Nat → Nat → DieState) : DieState :=
  let m := (x.gr ra).toNat
  let cl := ctxCluster (ctxNum c)
  if 15 < m ∨ !d.hallOn .host ∨ (m < 8 ∧ !(d.rd sysSecCfgFc).testBit cl) then d.abort (ctxNum c) .memBound
  else
    match d.mbEnd m (8 + cl) with
    | none => d.abort (ctxNum c) .memBound
    | some e => f m e

def execMbput (c : Ctx) (ra rb : GReg) (k : Fin 8) (db : Bool) (s : State) : Host.Outcome State Fault Refusal :=
  s.doOn c.die fun d => d.issue c (.mbput c ra rb k db) fun d x => d.withMailbox c x ra fun m e =>
    let p := d.mbSend m e (x.group rb (k + 1))
    let d1 := p.2.retire c { x with st := setSt x.st .fail !p.1 }
    if p.1 && db then d1.mbNotify m (1 - e) (BitVec.ofNat 32 (k + 1)) else d1

def execMbget (c : Ctx) (rd ra : GReg) (k : Fin 8) (s : State) : Host.Outcome State Fault Refusal :=
  s.doOn c.die fun d => d.issue c (.mbget c rd ra k) fun d x => d.withMailbox c x ra fun m e =>
    match d.mbTake m e (k + 1) with
    | some (ws, d1) => d1.retire c { x.setGroup rd ws with st := setSt x.st .fail false }
    | none => d.retire c { x.setGroup rd (List.replicate (k + 1) 0) with st := setSt x.st .fail true }

def execRaise (c : Ctx) (ra : GReg) (code : BitVec 7) (s : State) : Host.Outcome State Fault Refusal :=
  s.doOn c.die fun d => d.issue c (.raise c ra code) fun d x =>
    (d.retire c x).raise (0x0780 + code.toNat) (x.gr ra).toNat (ctxCluster (ctxNum c))

def execCjob (c : Ctx) (rd ra : GReg) (s : State) : Host.Outcome State Fault Refusal :=
  s.doOn c.die fun d => d.issue c (.cjob c rd ra) fun d x =>
    let a := (x.gr ra).toNat
    let cl := ctxCluster (ctxNum c)
    if 0x3400 < a + 32 ∨ a % 4 ≠ 0 ∨ !d.hallOn .engA then d.abort (ctxNum c) .memBound
    else
      match d.cipIssue (8 + cl) ((d.rd sysSecCfgFc).testBit cl) (some cl) (wordsOf (d.dataBytes c a 32)) with
      | some (n, d1) => d1.retire c { x.setGr rd (BitVec.ofNat 32 n) with st := setSt x.st .busy false }
      | none => d.retire c { x.setGr rd 0xFFFFFFFF with st := setSt x.st .busy true }

/-! ### Timers and special registers (R103, R104) -/

/-- The timer that a register names; MEM_BOUND at COUNT or above. -/
def DieState.withTimer (d : DieState) (c : Ctx) (x : Context) (ra : GReg) (f : Nat → DieState) : DieState :=
  let cl := ctxCluster (ctxNum c)
  if d.rdAs x.tag fkeEtRangeCount cl ≤ (x.gr ra).toNat then d.abort (ctxNum c) .memBound
  else f (d.rdAs x.tag fkeEtRangeBase cl + (x.gr ra).toNat)

def execTarm (c : Ctx) (ra rd : GReg) (entry : Byte) (s : State) : Host.Outcome State Fault Refusal :=
  s.doOn c.die fun d => d.issue c (.tarm c ra rd entry) fun d x => d.withTimer c x ra fun t =>
    let cl := ctxCluster (ctxNum c)
    if d.usable d.gen cl entry.toNat then
      ({ d with eng := { d.eng with
          timers := Tab.insert d.eng.timers t { deadline := x.gr rd, entry := entry.toNat, cluster := cl } } }).retire c x
    else d.abort (ctxNum c) .memBound

def execTdis (c : Ctx) (ra : GReg) (s : State) : Host.Outcome State Fault Refusal :=
  s.doOn c.die fun d => d.issue c (.tdis c ra) fun d x => d.withTimer c x ra fun t =>
    ({ d with eng := { d.eng with timers := Tab.erase d.eng.timers t } }).retire c x

def execTget (c : Ctx) (rd : GReg) (n : Fin 8) (s : State) : Host.Outcome State Fault Refusal :=
  s.doOn c.die fun d => d.issue c (.tget c rd n) fun d x => d.retire c (x.setGr rd (BitVec.ofNat 32 (d.stamp n)))

/-- A special register (Table 4.1). -/
def Context.special (x : Context) (code : Nat) : Word :=
  match code with
  | 0 => x.pc.zeroExtend 32
  | 1 => x.lk.zeroExtend 32
  | 2 => x.cur.zeroExtend 32
  | 3 => fdWord x.fd
  | 4 => x.ev
  | 5 => x.st.zeroExtend 32
  | _ => x.fl.zeroExtend 32

def execMfs (c : Ctx) (rd : GReg) (code : Fin 8) (s : State) : Host.Outcome State Fault Refusal :=
  s.doOn c.die fun d => d.compute c (.mfs c rd code) fun x => x.setGr rd (x.special code)

def execMts (c : Ctx) (code : Fin 8) (ra : GReg) (s : State) : Host.Outcome State Fault Refusal :=
  s.doOn c.die fun d => d.issue c (.mts c code ra) fun d x =>
    let v := x.gr ra
    if code.val = 1 then d.retire c { x with lk := v.truncate 15 }
    else if code.val = 2 then d.moveCursor c x v.toNat
    else d.retire c { x with st := v.truncate 16 &&& 0x1FF }

/-! ### Control flow (R106 to R108) -/

/-- A branch. -/
def DieState.branch (d : DieState) (c : Ctx) (i : Instr) (off : BitVec 15) (taken : Context → Bool) : DieState :=
  d.issue c i fun d x =>
    if taken x then d.setCtx (ctxNum c) { x with pc := branchTarget x.pc off } else d.retire c x

def execBeq (c : Ctx) (ra rb : GReg) (off : BitVec 15) (s : State) : Host.Outcome State Fault Refusal :=
  s.doOn c.die fun d => d.branch c (.beq c ra rb off) off fun x => decide (x.gr ra = x.gr rb)

def execBne (c : Ctx) (ra rb : GReg) (off : BitVec 15) (s : State) : Host.Outcome State Fault Refusal :=
  s.doOn c.die fun d => d.branch c (.bne c ra rb off) off fun x => decide (x.gr ra ≠ x.gr rb)

def execBlt (c : Ctx) (ra rb : GReg) (off : BitVec 15) (s : State) : Host.Outcome State Fault Refusal :=
  s.doOn c.die fun d => d.branch c (.blt c ra rb off) off fun x => (x.gr ra).slt (x.gr rb)

def execBge (c : Ctx) (ra rb : GReg) (off : BitVec 15) (s : State) : Host.Outcome State Fault Refusal :=
  s.doOn c.die fun d => d.branch c (.bge c ra rb off) off fun x => !(x.gr ra).slt (x.gr rb)

def execBltu (c : Ctx) (ra rb : GReg) (off : BitVec 15) (s : State) : Host.Outcome State Fault Refusal :=
  s.doOn c.die fun d => d.branch c (.bltu c ra rb off) off fun x => (x.gr ra).ult (x.gr rb)

def execBgeu (c : Ctx) (ra rb : GReg) (off : BitVec 15) (s : State) : Host.Outcome State Fault Refusal :=
  s.doOn c.die fun d => d.branch c (.bgeu c ra rb off) off fun x => !(x.gr ra).ult (x.gr rb)

def execBfs (c : Ctx) (bit : GReg) (off : BitVec 15) (s : State) : Host.Outcome State Fault Refusal :=
  s.doOn c.die fun d => d.branch c (.bfs c bit off) off fun x => x.st.getLsbD bit

def execBfc (c : Ctx) (bit : GReg) (off : BitVec 15) (s : State) : Host.Outcome State Fault Refusal :=
  s.doOn c.die fun d => d.branch c (.bfc c bit off) off fun x => !x.st.getLsbD bit

def execJmp (c : Ctx) (tgt : BitVec 15) (s : State) : Host.Outcome State Fault Refusal :=
  s.doOn c.die fun d => d.issue c (.jmp c tgt) fun d x => d.setCtx (ctxNum c) { x with pc := tgt }

def execJal (c : Ctx) (tgt : BitVec 15) (s : State) : Host.Outcome State Fault Refusal :=
  s.doOn c.die fun d => d.issue c (.jal c tgt) fun d x => d.setCtx (ctxNum c) { x with lk := x.pc + 1, pc := tgt }

def execJr (c : Ctx) (ra : GReg) (s : State) : Host.Outcome State Fault Refusal :=
  s.doOn c.die fun d => d.issue c (.jr c ra) fun d x => d.setCtx (ctxNum c) { x with pc := (x.gr ra).truncate 15 }

def execRet (c : Ctx) (s : State) : Host.Outcome State Fault Refusal :=
  s.doOn c.die fun d => d.issue c (.ret c) fun d x => d.setCtx (ctxNum c) { x with pc := x.lk }

def execEndInv (c : Ctx) (s : State) : Host.Outcome State Fault Refusal :=
  s.doOn c.die fun d => d.issue c (.endInv c) fun d _ => d.endInv (ctxNum c)

/-- `rel`: HELD is cleared; the lock itself is free once R61 is met. -/
def execRel (c : Ctx) (s : State) : Host.Outcome State Fault Refusal :=
  s.doOn c.die fun d => d.issue c (.rel c) fun d x =>
    if x.lock.isSome then d.retire c { x with fl := x.fl &&& 0x7FFF, relReq := true, released := true } else d.retire c x

def execYield (c : Ctx) (s : State) : Host.Outcome State Fault Refusal :=
  s.doOn c.die fun d => d.issue c (.yield c) fun d x => d.retire c { x with yields := d.readyOthers (ctxNum c) }

def execWaitPost (c : Ctx) (s : State) : Host.Outcome State Fault Refusal :=
  s.doOn c.die fun d => d.issue c (.waitPost c) fun d x => d.retire c { x with state := .waitPost }

def execWaitTime (c : Ctx) (ra : GReg) (s : State) : Host.Outcome State Fault Refusal :=
  s.doOn c.die fun d => d.issue c (.waitTime c ra) fun d x => d.retire c { x with state := .waitTime (x.gr ra) }

def execTrap (c : Ctx) (code : Byte) (s : State) : Host.Outcome State Fault Refusal :=
  s.doOn c.die fun d => d.issue c (.trap c code) fun d _ => d.abort (ctxNum c) (.trap code.toNat)

/-- UNDEFINED_ENCODING (R85, R106): the fetched word names no instruction, or the fetch lies at or above the code top. -/
def execUndefinedEncoding (c : Ctx) (s : State) : Host.Outcome State Fault Refusal :=
  s.doOn c.die fun d =>
    let n := ctxNum c
    if !d.mayIssue n then d
    else if d.aboveTop n then d.abort n .badOpcode
    else if (forrekDecode c (d.fetchCode n)).isSome then d
    else if d.overLimit n then d.abort n .exposure
    else (d.countIssue n).abort n .badOpcode

end Sys2Proof.Machine
end

