-- ==== Sys2Proof/Machine/Host.lean ====
section
/-! DEFINITION. Machine/Host.lean: the host complex, the consumers of queue blocks, the PCIe endpoint with its DMA channels and
the virtual NIC (chapter 13). -/

namespace Sys2Proof.Machine

/-! ### Host cores (R345 to R347) -/

/-- The cores that a write of CORE_CTL.RST names are reset, each alone (R346; 01 R13). -/
def DieState.coreCtl (d : DieState) (v : Word) : DieState :=
  ((List.range 4).filter fun c => v.getLsbD (8 + c)).foldl (fun d c => d.unitReset 0 c 0) d

/-- CORE_RESET: a write of SYS.CORE_CTL with RST bits. -/
def execCoreReset (a : Acc) (v : Word) (s : State) : Host.Outcome State Fault Refusal :=
  s.doOn a.die fun d => d.writeReg a.req 0 0 0x50 v fun d => d.coreCtl v

/-- CORE_RUN: a write of SYS.CORE_CTL that sets RUN bits; each such core starts at CORE_BOOT. -/
def execCoreRun (a : Acc) (v : Word) (s : State) : Host.Outcome State Fault Refusal :=
  s.doOn a.die fun d => (d.writeReg a.req 0 0 0x50 v fun d => d.coreCtl v)

/-- MTIME (R347): 40 MHz, 0 when the Host hall powers up. -/
def DieState.mtime (d : DieState) : Nat := (d.now - d.host.mtBase) / 25 % 2 ^ 64

/-- The machine timer interrupt of a core is pending. -/
def DieState.timerPending (d : DieState) (c : Nat) : Bool :=
  decide (d.rd sysMtimecmpLo 0 c + 2 ^ 32 * d.rd sysMtimecmpHi 0 c ≤ d.mtime)

/-- MTIME_MATCH: the timer interrupt is a level of MTIME and MTIMECMP; in Doze a match is a wake source (15 R397). -/
def execMtimeMatch (d : Die) (c : Fin 4) (s : State) : Host.Outcome State Fault Refusal :=
  s.doOn d fun x => if x.timerPending c && x.inDoze then x.wakeDie 6 else x

/-- MSIP_WRITE (R347). -/
def execMsipWrite (a : Acc) (v : Word) (s : State) : Host.Outcome State Fault Refusal :=
  s.doOn a.die fun d => d.writeReg a.req 0 0 0x88 v fun d => d

/-- The host complex is fenced (R345): counted as an uncorrectable error of the Host hall, raised once. -/
def DieState.hostFenced (d : DieState) (addr : Nat) : DieState :=
  let d1 := d.cnt evtUe 0 Hall.host.num
  if d1.host.fenced then d1 else ({ d1 with host := { d1.host with fenced := true } }).raise 0x0030 (addr % 2 ^ 32)

/-- HOST_FENCE. -/
def execHostFence (d : Die) (addr : Nat) (s : State) : Host.Outcome State Fault Refusal :=
  s.doOn d fun x => if x.hallOn .host then x.hostFenced addr else x

/-! ### Consumers of queue blocks (R352 to R354) -/

/-- NOTE of a queue block turned true: what its rise sets off (R353). -/
def DieState.qbRose (d : DieState) (was : Bool) (n : Nat) : DieState :=
  if !was && d.qbNote n then
    let p := d.noteRise n
    p.1.settle 256 p.2
  else d

/-- RP takes a value (R354): a change clears STALE and restarts the stale timer, and NOTE may rise. -/
def DieState.qbSeek (d : DieState) (n p : Nat) : DieState :=
  if p = d.rd qbkRp n then d
  else
    let d1 := (d.wr qbkRp p n).wr qbkStatStale 0 n
    let st := if d1.qbUnread n = 0 then Tab.erase d1.host.stale n else Tab.insert d1.host.stale n d1.now
    ({ d1 with host := { d1.host with stale := st } }).qbRose (d.qbNote n) n

/-- Operations of QBK.OP (13 Table 13.1). -/
inductive QbOp where
  | adv (count : Nat)
  | setmark
  | rewind
  | release
  | releaseMark
  | flush
  deriving DecidableEq, Repr

/-- An operation on a queue block. -/
def DieState.qbOp (d : DieState) (n : Nat) (op : QbOp) : DieState :=
  match op with
  | .adv k => if d.qbUnread n < k then d.wr qbkStatErr 1 n else d.qbSeek n ((d.rd qbkRp n + k) % (2 * d.qbSize n))
  | .setmark => d.wr qbkMark (d.rd qbkRp n) n
  | .rewind => d.qbSeek n (d.rd qbkMark n)
  | .release => (d.wr qbkRel (d.rd qbkRp n) n).wr qbkMark (d.rd qbkRp n) n
  | .releaseMark => d.wr qbkRel (d.rd qbkMark n) n
  | .flush => ((d.qbSeek n (d.rd qbkWp n)).wr qbkMark (d.rd qbkWp n) n).wr qbkRel (d.rd qbkWp n) n

/-- The word of a QBK.OP write. -/
def qbOpWord (op : QbOp) : Word :=
  match op with
  | .adv k => BitVec.ofNat 32 (1 + k * 256)
  | .setmark => 2
  | .rewind => 3
  | .release => 4
  | .releaseMark => 5
  | .flush => 6

/-- A write of QBK.OP. -/
def DieState.qbWriteOp (d : DieState) (req : Requester) (n : Nat) (op : QbOp) : DieState :=
  d.writeReg req 14 n 0x134 (qbOpWord op) fun d => d.qbOp n op

/-- QB_POP: a read of QBK.POP returns word RP and advances RP; with nothing unread it returns 0 and sets UNDER. -/
def DieState.qbPopRead (d : DieState) (req : Requester) (n : Nat) : DieState :=
  d.readReg req 14 n 0x130 (fun d => if d.qbUnread n = 0 then 0 else (d.qbWord n 0).toNat) fun d =>
    if d.qbUnread n = 0 then d.wr qbkStatUnder 1 n else d.qbSeek n ((d.rd qbkRp n + 1) % (2 * d.qbSize n))

/-- QB_POP. -/
def execQbPop (a : Acc) (n : Fin 64) (s : State) : Host.Outcome State Fault Refusal := s.doOn a.die fun d => d.qbPopRead a.req n

/-- QB_ADV. -/
def execQbAdv (a : Acc) (n : Fin 64) (count : BitVec 18) (s : State) : Host.Outcome State Fault Refusal :=
  s.doOn a.die fun d => d.qbWriteOp a.req n (.adv count.toNat)

/-- QB_SETMARK. -/
def execQbSetmark (a : Acc) (n : Fin 64) (s : State) : Host.Outcome State Fault Refusal :=
  s.doOn a.die fun d => d.qbWriteOp a.req n .setmark

/-- QB_REWIND. -/
def execQbRewind (a : Acc) (n : Fin 64) (s : State) : Host.Outcome State Fault Refusal :=
  s.doOn a.die fun d => d.qbWriteOp a.req n .rewind

/-- QB_RELEASE. -/
def execQbRelease (a : Acc) (n : Fin 64) (s : State) : Host.Outcome State Fault Refusal :=
  s.doOn a.die fun d => d.qbWriteOp a.req n .release

/-- QB_RELEASE_MARK. -/
def execQbReleaseMark (a : Acc) (n : Fin 64) (s : State) : Host.Outcome State Fault Refusal :=
  s.doOn a.die fun d => d.qbWriteOp a.req n .releaseMark

/-- QB_FLUSH. -/
def execQbFlush (a : Acc) (n : Fin 64) (s : State) : Host.Outcome State Fault Refusal :=
  s.doOn a.die fun d => d.qbWriteOp a.req n .flush

/-- A write of PUSH_CTL (R351): with GO the requester's first COUNT + 1 PUSH words enter as one record. -/
def DieState.qbPushAct (d : DieState) (req : Requester) (n : Nat) (v : Word) : DieState :=
  if v.msb then
    let ch := n + 64 * reqCopy req
    let p := d.qbWrite n ((List.range (v.toNat % 16 + 1)).map fun k => BitVec.ofNat 32 (d.rd qbkPush ch k))
    p.2.wr qbkStatPushResult (if p.1 then 1 else 2) ch
  else d

/-- QB_PUSH. -/
def execQbPush (a : Acc) (n : Fin 64) (v : Word) (s : State) : Host.Outcome State Fault Refusal :=
  s.doOn a.die fun d =>
    let w := commitWord v 31
    d.writeReg a.req 14 n 0x180 w fun d => d.qbPushAct a.req n w

/-- QB_STALE_EXPIRY: the stale timer has run out with words unread (R354). -/
def execQbStaleExpiry (d : Die) (n : Fin 64) (s : State) : Host.Outcome State Fault Refusal :=
  s.doOn d fun x =>
    match Tab.get? x.host.stale n.val with
    | none => x
    | some t =>
      let tmo := x.rd qbkCfgD n
      if x.hallOn .host ∧ tmo ≠ 0 ∧ t + 1000 * tmo ≤ x.now ∧ x.qbUnread n ≠ 0 then
        (({ x with host := { x.host with stale := Tab.erase x.host.stale n } }).wr qbkStatStale 1 n).qbRose (x.qbNote n) n
      else x

/-! ### DMA channels (R362) -/

/-- A DMA descriptor's fields (13 Table 13.4). -/
def dmaField (ws : List Word) (k lo w : Nat) : Nat := (ws.getD k 0).toNat / 2 ^ lo % 2 ^ w

/-- A channel. -/
def DieState.dmaCh (d : DieState) (c : Nat) : DmaChan := Tab.get {} d.pci.dma c

/-- The descriptor of a channel ends (R362): its record is written, then its MSI-X message is sent. -/
def DieState.dmaEnd (d : DieState) (c status moved : Nat) : DieState :=
  match (d.dmaCh c).cur with
  | none => d
  | some ws =>
    let tag := dmaField ws 0 8 8
    let d1 := ({ d with pci := { d.pci with dma := Tab.put {} d.pci.dma c {}, turn := (c + 1) % 8 } }).wr pciDmaBBusy 0 0 c
    let d2 := if status = 0 then d1 else (d1.cnt pciDmaBErrors 0 c).raise 0x1104 (tag + status * 256) c
    let d3 := (d2.qbWrite (d2.rd pciDmaACq 0 c) [BitVec.ofNat 32 (tag + status * 256), BitVec.ofNat 32 moved]).2
    if (ws.getD 0 0).getLsbD 22 then d3.msixSend (dmaField ws 0 16 6) else d3

/-- A descriptor breaks Table 13.4. -/
def dmaBad (ws : List Word) : Bool :=
  decide (dmaField ws 0 1 7 ≠ 0) || decide (dmaField ws 0 23 9 ≠ 0) || decide ((ws.getD 1 0).toNat = 0) || decide (65536 < (ws.getD 1 0).toNat)
    || decide ((ws.drop 5).any fun w => decide (w ≠ 0))

/-- LOCAL of a descriptor is within reach of the endpoint's requester. -/
def DieState.dmaLocal (d : DieState) (ws : List Word) : Bool :=
  let a := (ws.getD 2 0).toNat
  inSram a (ws.getD 1 0).toNat && d.hallOn .host && d.sramOpen (d.bit sysSecCfgPci) a

/-- A channel takes its next descriptor; one that cannot run ends at once with its STATUS. -/
def DieState.dmaStart (d : DieState) (c : Nat) : DieState :=
  let q := d.rd pciDmaASq 0 c
  if !d.hallOn .host || !d.bit pciDmaAEn 0 c || (d.dmaCh c).cur.isSome || decide (d.qbUnread q < 8) then d
  else
    let ws := (List.range 8).map fun i => d.qbWord q i
    let d1 := d.qbTake q 8
    let d2 := ({ d1 with pci := { d1.pci with dma := Tab.put {} d1.pci.dma c { cur := some ws, since := d1.now } } }).wr pciDmaBBusy 1 0 c
    if dmaBad ws then d2.dmaEnd c 6 0
    else if !d2.dmaLocal ws then d2.dmaEnd c 1 0
    else if !d2.bit pciLinkUp then d2.dmaEnd c 5 0
    else d2

/-- DMA_DESCRIPTOR_START. -/
def execDmaDescriptorStart (d : Die) (c : Fin 8) (s : State) : Host.Outcome State Fault Refusal := s.doOn d fun x => x.dmaStart c

/-- Bytes written to external memory. -/
def DieState.extWrite (d : DieState) (a : Nat) (bs : List Byte) : DieState :=
  if bs.isEmpty then d else { d with pci := { d.pci with ext := d.pci.ext ++ [(a, bs)] } }

/-- DMA_COMPLETE: the external side has answered with a status and, for external to local, the bytes read; the bytes moved are
stored, then the descriptor ends. -/
def execDmaComplete (d : Die) (c : Fin 8) (status : Fin 16) (moved : Nat) (data : List Byte) (s : State) :
    Host.Outcome State Fault Refusal :=
  s.doOn d fun x =>
    match (x.dmaCh c).cur with
    | none => x
    | some ws =>
      let len := (ws.getD 1 0).toNat
      let n := if status.val = 0 then len else min moved len
      let off := (ws.getD 2 0).toNat - 0x10000000
      if !x.dmaLocal ws then x.dmaEnd c 1 0
      else
        let y := if (ws.getD 0 0).getLsbD 0 then x.extWrite ((ws.getD 3 0).toNat + 2 ^ 32 * (ws.getD 4 0).toNat) (x.host.sram.bytes off n)
          else x.sramStore off (fit n data)
        y.dmaEnd c status n

/-- DMA_READ_TIMEOUT: an external read that has waited CPL_TMO ends its descriptor with STATUS 3. -/
def execDmaReadTimeout (d : Die) (c : Fin 8) (s : State) : Host.Outcome State Fault Refusal :=
  s.doOn d fun x =>
    match (x.dmaCh c).cur with
    | none => x
    | some ws =>
      if !(ws.getD 0 0).getLsbD 0 ∧ (x.dmaCh c).since + 1000 * x.rd pciCplTmo ≤ x.now then x.dmaEnd c 3 0 else x

/-! ### The link (R360) -/

/-- PCIE_LINK_UP: speed 1 to 4, width 1 or 2. -/
def execPcieLinkUp (d : Die) (speed : Fin 8) (width : Fin 4) (s : State) : Host.Outcome State Fault Refusal :=
  s.doOn d fun x =>
    if x.hallOn .host ∧ !x.bit pciLinkUp ∧ 1 ≤ speed.val ∧ speed.val ≤ 4 ∧ 1 ≤ width.val ∧ width.val ≤ 2 then
      let y := ((x.wr pciLinkUp 1).wr pciLinkSpeed speed).wr pciLinkWidth width
      ({ y with pci := { y.pci with linkIrq := true } }).raise 0x1101 (speed.val * 2 + width.val * 16)
    else x

/-- Every descriptor in progress ends. -/
def DieState.dmaAll (d : DieState) (status : Nat) : DieState := (List.range 8).foldl (fun d c => d.dmaEnd c status 0) d

/-- PCIE_LINK_DOWN: descriptors in progress end with STATUS 5, and P_26 goes down with an external owner (R363). -/
def execPcieLinkDown (d : Die) (s : State) : Host.Outcome State Fault Refusal :=
  s.doOn d fun x =>
    if x.bit pciLinkUp then
      let y := ((x.wr pciLinkUp 0).wr pciLinkSpeed 0).wr pciLinkWidth 0
      ((({ y with pci := { y.pci with linkIrq := true } }).dmaAll 5).portFell (x.portUp 26) 26).raise 0x1102
    else x

/-- The endpoint, its DMA channels and the virtual NIC are as after reset; bytes already written outside stay. -/
def DieState.pciReset (d : DieState) : DieState :=
  { d with regs := d.regs.filter fun e => decide (keyBlk e.1 ≠ 17), staged := d.staged.filter fun e => decide (keyBlk e.1 ≠ 17),
           pci := { ext := d.pci.ext } }

/-- PCIE_HOT_RESET: hot reset or PERST#. -/
def execPcieHotReset (d : Die) (s : State) : Host.Outcome State Fault Refusal :=
  s.doOn d fun x =>
    if x.hallOn .host then ((x.pciReset).portFell (x.portUp 26) 26).raise 0x1103 else x

/-! ### The virtual NIC (R363 to R365) -/

/-- A word of a ring descriptor in host SRAM, and whether the descriptor lies there. -/
def DieState.ringWord (d : DieState) (a k : Nat) : Nat := (d.host.sram.word (a - 0x10000000 + 4 * k)).toNat

/-- The address of ring entry `i`. -/
def ringAddr (lo hi i : Nat) : Nat := lo + 2 ^ 32 * hi + 16 * i

/-- The virtual NIC's owner is the external processor. -/
def DieState.vnicOuter (d : DieState) : Bool := d.bit pciVnicOwner

/-- A notification: a vector for the external processor, an interrupt for the host cores (R365). -/
def DieState.vnicNotify (d : DieState) (vec : Nat) : DieState :=
  if d.vnicOuter then d.msixSend vec else { d with pci := { d.pci with vnicIrq := true } }

/-- A driver's write of a ring tail answers the notification of owner 0. -/
def DieState.vnicSeen (d : DieState) : DieState := { d with pci := { d.pci with vnicIrq := false } }

/-- VNIC_TX_TAIL. -/
def execVnicTxTail (a : Acc) (v : Word) (s : State) : Host.Outcome State Fault Refusal :=
  s.doOn a.die fun d => d.writeReg a.req 17 0 0x220 v DieState.vnicSeen

/-- VNIC_RX_TAIL. -/
def execVnicRxTail (a : Acc) (v : Word) (s : State) : Host.Outcome State Fault Refusal :=
  s.doOn a.die fun d => (d.writeReg a.req 17 0 0x228 v DieState.vnicSeen)

/-- A frame of the host enters the switch core as received on P_26 (R364); a stamp request rides with it. -/
def DieState.vnicEnter (d : DieState) (bs : List Byte) (req : Option Nat) : DieState :=
  let n := d.sw.nextDesc
  let tb := d.rd ethTs 26
  let o := if d.pairMode = 0 then (0, d) else d.newOrigin 26 0
  let d1 := o.2.ethReceive 26 { bytes := pad60 bs, fcsOk := true, cut := false } (d.stamp tb) (d.position tb) o.1
  match req with
  | some tag => if d1.sw.nextDesc = n then d1 else d1.onFrame n fun f => { f with tsReq := some (1, tag) }
  | none => d1

/-- The device advances TX_HEAD. -/
def DieState.txAdvance (d : DieState) : DieState := d.wr pciTxHead ((d.rd pciTxHead + 1) % 2 ^ d.rd pciRingsTxlog2)

/-- A transmit descriptor is served: words 2 of it and the frame's bytes. -/
def DieState.vnicTx (d : DieState) (a w2 w3 : Nat) (bytes : List Byte) : DieState :=
  let len := w2 % 2 ^ 14
  if len < 14 ∨ d.rd ethMaxlen 26 < len + 4 then (d.cnt pciVcntTxBad).txAdvance
  else
    let d1 := d.vnicEnter (fit len bytes) (if w2.testBit 14 then some (w2 / 65536) else none)
    let done := leBytes 4 (Nat.lor w3 1)
    let d2 := if d1.vnicOuter then d1.extWrite (a + 12) done else d1.sramStore (a + 12 - 0x10000000) done
    d2.txAdvance.vnicNotify (d2.rd pciIntATxvec)

/-- VNIC_TX_FRAME: the next transmit descriptor. With owner 0 descriptor and frame are read from host SRAM; with owner 1 the
external side gives them. -/
def execVnicTxFrame (d : Die) (desc : List Word) (bytes : List Byte) (s : State) : Host.Outcome State Fault Refusal :=
  s.doOn d fun x =>
    let a := ringAddr (x.rd pciTxbLo) (x.rd pciTxbHi) (x.rd pciTxHead)
    if !x.hallOn .host || !x.hallOn .swc || !x.portUp 26 || decide (x.rd pciTxHead = x.rd pciTxTail % 2 ^ x.rd pciRingsTxlog2) then x
    else if x.vnicOuter then x.vnicTx a (desc.getD 2 0).toNat (desc.getD 3 0).toNat bytes
    else
      let buf := x.ringWord a 0 + 2 ^ 32 * x.ringWord a 1
      if !inSram a 16 || !inSram buf (x.ringWord a 2 % 2 ^ 14) then (x.cnt pciVcntTxBad).txAdvance
      else x.vnicTx a (x.ringWord a 2) (x.ringWord a 3) (x.host.sram.bytes (buf - 0x10000000) (x.ringWord a 2 % 2 ^ 14))

/-- A receive notification empties the batch (R365). -/
def DieState.vnicRxNotify (d : DieState) : DieState :=
  ({ d with pci := { d.pci with rxCount := 0 } }).vnicNotify (d.rd pciIntARxvec)

/-- A frame has been written: the batch grows, and is notified at FRAMES frames. -/
def DieState.vnicBatch (d : DieState) : DieState :=
  let n := d.pci.rxCount + 1
  let d1 := { d with pci := { d.pci with rxCount := n, rxFirst := if n = 1 then d.now else d.pci.rxFirst } }
  if d1.rd pciIntBFrames ≤ n then d1.vnicRxNotify else d1

/-- A frame goes into the buffer of the receive descriptor at `a`, and its words 2 and 3 are written. -/
def DieState.vnicStore (d : DieState) (a buf : Nat) (bs : List Byte) (pos : Nat) : DieState :=
  let w2 := leBytes 4 (bs.length + 2 ^ 15 + pos / 1000000000 % 65536 * 65536)
  let w3 := leBytes 4 (pos % 1000000000)
  if d.vnicOuter then (d.extWrite buf bs).extWrite (a + 8) (w2 ++ w3)
  else (d.sramStore (buf - 0x10000000) bs).sramStore (a + 8 - 0x10000000) (w2 ++ w3)

/-- The head frame of a class of P_26 is delivered, or dropped for its length (07 R183; R364). -/
def DieState.vnicDeliver (d : DieState) (t buf0 : Nat) : DieState :=
  match d.outQueue 26 t with
  | [] => d
  | c :: r =>
    let d1 := d.setQueue 26 t r
    let d2 := if d1.bit swcQcAHold 0 26 t then d1.wr swcQcDAllow (d1.rd swcQcDAllow 0 26 t - 1) 0 26 t else d1
    match d2.frameOf c.desc with
    | none => d2
    | some f =>
      let bs := d2.egressBytes f 26
      let d3 := d2.releaseFrame c.desc
      let a := ringAddr (d.rd pciRxbLo) (d.rd pciRxbHi) (d.rd pciRxHead)
      let buf := if d.vnicOuter then buf0 else d.ringWord a 0 + 2 ^ 32 * d.ringWord a 1
      if d.rd ethMaxlen 26 < bs.length + 4 then d3.cnt ethCntTxOversize 26
      else if d.rd pciRingsBuf < bs.length ∨ (!d.vnicOuter ∧ (!inSram a 16 ∨ !inSram buf bs.length)) then d3.cnt pciVcntRxToolong
      else
        let d4 := ((d3.vnicStore a buf bs f.rxPos).txCount 26 (bs.length + 4)).cnt swcQcntA 0 26 t
        (d4.wr pciRxHead ((d4.rd pciRxHead + 1) % 2 ^ d4.rd pciRingsRxlog2)).vnicBatch

/-- VNIC_RX_WRITE: the frame that P_26 selects, into the next free receive descriptor. With owner 1 the external side gives the
buffer address. -/
def execVnicRxWrite (d : Die) (buf : Nat) (s : State) : Host.Outcome State Fault Refusal :=
  s.doOn d fun x =>
    if !x.hallOn .host || !x.hallOn .swc || !x.portUp 26 || x.portShut 26 || decide (x.rd pciRxHead = x.rd pciRxTail % 2 ^ x.rd pciRingsRxlog2) then x
    else
      match x.pickClass 26 fun _ => true with
      | some t => x.vnicDeliver t buf
      | none => x

/-- VNIC_RX_NOTIFY_TIMER: USEC µs after the first frame of the batch (R365). -/
def execVnicRxNotifyTimer (d : Die) (s : State) : Host.Outcome State Fault Refusal :=
  s.doOn d fun x =>
    if x.pci.rxCount ≠ 0 ∧ x.pci.rxFirst + 1000 * x.rd pciIntBUsec ≤ x.now then x.vnicRxNotify else x

end Sys2Proof.Machine
end

