-- ==== Sys2Proof/Machine/Power.lean ====
section
/-! DEFINITION. Machine/Power.lean: halls and their resets, Doze and Rest, supply sequencing, the reset scopes and the boot ROM
(chapter 15; 01 R18 to R22). -/

namespace Sys2Proof.Machine

/-! ### What a hall loses (01 R18, R19) -/

/-- The hall of a register-file key. -/
def keyHall (k : Nat) : Hall :=
  if keyBlk k = 7 ∧ 0x800 ≤ keyOff k % 0x80000 then (if keyChan k < 2 then .engA else .engB) else hallOfReg (keyBlk k) (keyChan k) (keyOff k)

/-- The registers of a hall return to their reset values, staged copies with them. -/
def DieState.regsClear (d : DieState) (h : Hall) : DieState :=
  let keep (t : Tab Nat) : Tab Nat := t.filter fun (e : Nat × Nat) => decide (keyHall e.1 ≠ h)
  let base := (resetRegs (decide (d.die = .east))).filter fun (e : Nat × Nat) => decide (keyHall e.1 = h)
  { d with regs := base.foldl (fun t (e : Nat × Nat) => Tab.insert t e.1 e.2) (keep d.regs), staged := keep d.staged, old := keep d.old }

/-- An engine cluster loses its state: frames that its events and contexts hold are freed. -/
def DieState.clusterWipe (d : DieState) (cl : Nat) : DieState :=
  let es := (d.cluster cl).evq
  let d1 := (d.boundCtxs cl).foldl (fun d n => d.wipeCtx n) d
  let d2 := es.foldl (fun (d : DieState) (e : EngEvent) => match e.frame with
    | some f => d.consume f
    | none => d) d1
  let d3 := (d2.onCluster cl fun _ => {}).clearClusterCounters cl
  { d3 with eng := { d3.eng with
      timers := d3.eng.timers.filter fun (e : Nat × ETimer) => decide (e.2.cluster ≠ cl)
      code := d3.eng.code.filter fun (e : Nat × Word) => decide (e.1 / 32768 ≠ cl)
      data := d3.eng.data.filter fun e => decide (e.1 / 131072 ≠ cl) } }

/-- A Gallery write whose hall goes, or that is fenced, ends with that status at its requester (R15, R18): the handler as a
memory-bound exception. -/
def DieState.galGone (d : DieState) (st : Status) (r : GalReq) : DieState :=
  match r.ctx, r.host with
  | some n, _ => if (d.ctx n).state = .stalled then d.abort n .memBound else d
  | none, some p =>
    if r.group ∨ p.posted then d
    else d.answerAcc p.tag st
  | none, none => d

/-- Engine A: two clusters, the Gallery, the cipher lanes with their jobs. -/
def DieState.engAClear (d : DieState) : DieState :=
  let d1 := (d.clusterWipe 0).clusterWipe 1
  let d2 := (d1.gal.req ++ d1.gal.pipe).foldl (fun d r => d.galGone .hallAsleep r) d1
  let d3 := d2.sec.jobs.foldl (fun (d : DieState) (j : CJob) => j.refs.foldl (fun d p => d.releaseKey p.1 p.2) d) d2
  { d3 with gal := {}, sec := { d3.sec with jobs := [], jobPtr := 0 } }

/-- Lookups that a hall was to answer find it asleep (R18). -/
def DieState.lookupsAsleep (d : DieState) (h : Hall) : DieState :=
  let turn (t : LkpTag) : LkpTag :=
    match t with
    | .busy n k => if lkpHall n = h then .asleep else .busy n k
    | x => x
  { d with eng := { d.eng with ctxs := d.eng.ctxs.map fun (e : Nat × Context) => (e.1, { e.2 with tags := e.2.tags.map turn }) } }

/-- Links of a range of ports go down. -/
def DieState.linksFall (d : DieState) (ps : List Nat) : DieState :=
  ps.foldl (fun d p => if d.bit ethLinkUp p then d.linkFall p else d) d

/-- The units of a hall return to their reset state. -/
def DieState.unitsClear (d : DieState) (h : Hall) : DieState :=
  match h with
  | .aon => d
  | .host =>
    { d with host := { mtBase := d.now }, evt := {}, bus := {}, pci := { ext := d.pci.ext }, upd := { flash := d.upd.flash, fuses := d.upd.fuses },
             guard := {}, cm := {} }
  | .drk => let x := d.wipeKeys; { x with sec := { x.sec with chal := none, resp := [], seeded := false } }
  | .engA => d.engAClear
  | .engB => (d.clusterWipe 2).clusterWipe 3
  | .bus =>
    let x := d.lookupsAsleep .bus
    { x with can := [], lin := [], rte := {}, sec := { x.sec with fw := [] }
             tbl := { x.tbl with
                      ent := x.tbl.ent.filter fun (e : Nat × List Word) => decide (tableHall (e.1 / 65536) ≠ .bus),
                      ue := x.tbl.ue.filter fun k => decide (tableHall (k / 65536) ≠ .bus) } }
  | .swc =>
    let x := (d.linksFall (List.range 26)).lookupsAsleep .swc
    { x with port := [], sw := {}, sec := { x.sec with testEnd := [] }
             tbl := { ent := x.tbl.ent.filter fun (e : Nat × List Word) => decide (tableHall (e.1 / 65536) = .bus),
                      ue := x.tbl.ue.filter fun k => decide (tableHall (k / 65536) = .bus) } }
  | .phy => d.linksFall ((List.range 20).map (6 + ·))
  | .ser => d.linksFall (List.range 6)
  | .stw =>
    let x := d.endDown 0 true
    { x with stw := { downAt := x.now, hbSeen := x.now } }

/-- A die that leaves reset, or whose Stairwell hall is reset, takes the Newel's pairing mode (12 R326). -/
def DieState.takeMode (d : DieState) (m : Nat) : DieState :=
  ((d.wr stwPairMode m).wr stwPairStatMode m).wr stwPairStatRole (if m = 0 then 0 else 4)

/-- A hall is reset, or loses its power. -/
def DieState.hallClear (d : DieState) (h : Hall) : DieState :=
  let m := d.rd stwPairStatMode
  let x := (d.unitsClear h).regsClear h
  let y := { x with fences := x.fences.filter fun f =>
    !(decide (h = .bus) && decide (16 ≤ f) && decide (f ≤ 24)) && !(decide (h = .swc) && decide (32 ≤ f) && decide (f ≤ 36)) &&
      !(decide (h = .engA) && decide (f = 40)) && !(decide (h = .swc) && decide (f = 41)) &&
      !(decide (64 ≤ f) && decide (hallOfBlock (f - 64) = h)) }
  if h = .stw then y.takeMode m else y

/-- The halls in the order of Table 15.1. -/
def allHalls : List Hall := [.aon, .host, .drk, .engA, .engB, .bus, .swc, .phy, .ser, .stw]

/-- The partner's flits go unanswered when a die or its Stairwell hall falls: its retry budget runs from now (12 R317). -/
def DieState.partnerMute (d : DieState) : DieState :=
  if d.linkUp then { d with stw := { d.stw with failAt := some (d.stw.failAt.getD d.now) } } else d

/-- A power request is refused with its reason (R397, R398, R412). -/
def DieState.pwrRefuse (d : DieState) (reason : Nat) : DieState :=
  ((d.wr pwrStateResult 2).wr pwrStateReason reason).raise 0x0102 reason

/-! ### Switching and resetting halls (R396) -/

/-- What a write of HALL_CTL does once the field has taken it: halls go off and on. `was` is the mask before. -/
def DieState.hallSwitch (d : DieState) (was : Nat) : DieState :=
  let now := Nat.lor (d.rd pwrHallCtl) 3
  let d0 := d.wr pwrHallCtl now
  let off := allHalls.filter fun h => was.testBit h.num && !now.testBit h.num
  let on := allHalls.filter fun h => !was.testBit h.num && now.testBit h.num
  let d1 := off.foldl (fun (d : DieState) h =>
    let x := d.hallClear h
    let y := (x.wr pwrHallStatOn (x.rd pwrHallStatOn - 2 ^ h.num)).wr pwrHallStatReady
      (x.rd pwrHallStatReady - if (x.rd pwrHallStatReady).testBit h.num then 2 ^ h.num else 0)
    { y with pow := { y.pow with rising := y.pow.rising.erase h.num } }) d0
  on.foldl (fun (d : DieState) h =>
    { d.wr pwrHallStatOn (Nat.lor (d.rd pwrHallStatOn) (2 ^ h.num)) with pow := { d.pow with rising := h.num :: d.pow.rising.erase h.num } }) d1

/-- HALL_CTL_WRITE: in Mirror and Vote mode a write that would switch off STW has no effect and is refused with reason 3. -/
def execHallCtlWrite (a : Acc) (v : Word) (s : State) : Host.Outcome State Fault Refusal :=
  let x := s.get a.die
  let was := Nat.lor (x.rd pwrHallCtl) 3
  let w := v ||| 3
  let ok := decide (x.regStatus a.req 1 0 8 true = .okay)
  if ok && decide (x.pairMode ≠ 0) && !w.getLsbD 9 then
    .next (s.on a.die fun d => (d.complete a.req (regAddr 1 8) .okay).pwrRefuse 3)
  else
    let s1 := s.on a.die fun d => d.writeReg a.req 1 0 8 w fun d => d.hallSwitch was
    .next (if ok && was.testBit 9 && !w.getLsbD 9 then s1.on a.die.other DieState.partnerMute else s1)

/-- HALL_POWER_READY: within 20 µs a hall switched on leaves power-up. -/
def execHallPowerReady (d : Die) (h : Fin 10) (s : State) : Host.Outcome State Fault Refusal :=
  s.doOn d fun x =>
    if x.pow.rising.contains h.val then
      { x.wr pwrHallStatReady (Nat.lor (x.rd pwrHallStatReady) (2 ^ h.val)) with pow := { x.pow with rising := x.pow.rising.erase h.val } }
    else x

/-- HALL_RESET: a write of HALL_RST; AON and HOST are ignored. -/
def execHallReset (a : Acc) (v : Word) (s : State) : Host.Outcome State Fault Refusal :=
  let x := s.get a.die
  let ok := decide (x.regStatus a.req 1 0 0x10 true = .okay)
  let s1 := s.on a.die fun d => d.writeReg a.req 1 0 0x10 v fun d =>
    (allHalls.filter fun h => decide (2 ≤ h.num) && v.getLsbD h.num).foldl (fun d h => d.hallClear h) d
  .next (if ok && v.getLsbD 9 then s1.on a.die.other DieState.partnerMute else s1)

/-! ### Doze (R397, R399) -/

/-- The halls that stop in Doze: HOST always, any other by its gate, as far as they have power. -/
def DieState.dozeHalls (d : DieState) : List Hall :=
  allHalls.filter fun h => decide (h ≠ .aon) && d.hallOn h && (decide (h = .host) || (d.rd pwrDozeGate).testBit (h.num - 1))

/-- The halls that hold a port. -/
def portHalls (p : Nat) : List Hall := if p ≤ 5 then [.swc, .ser] else if p ≤ 25 then [.swc, .phy] else [.stw]

/-- Why a Doze request is refused: 6 a channel awake, 7 a link up, 3 paired. -/
def DieState.dozeBar (d : DieState) : Option Nat :=
  let hs := d.dozeHalls
  let awake := hs.contains .bus && ((List.range 32).any d.canLive || (List.range 8).any d.linLive)
  let linked := ((List.range 26) ++ [28]).any fun p =>
    d.bit ethLinkUp p && !d.bit ethLinkAsleep p && (portHalls p).any hs.contains
  if awake then some 6 else if linked then some 7 else if d.pairMode ≠ 0 then some 3 else none

/-- The word written to PWR.STATE with REQ. -/
def pwrReqWord (v : Word) (req : Nat) : Word := ((v >>> 2) <<< 2) ||| BitVec.ofNat 32 req

/-- DOZE_REQUEST. A request while another entry runs changes nothing. -/
def execDozeRequest (a : Acc) (v : Word) (s : State) : Host.Outcome State Fault Refusal :=
  s.doOn a.die fun d => d.writeReg a.req 1 0 4 (pwrReqWord v 1) fun d =>
    if d.rd pwrStateCur ≠ 0 then d
    else
      match d.dozeBar with
      | some r => d.pwrRefuse r
      | none => { (d.wr pwrStateResult 1).wr pwrStateCur 1 with pow := { d.pow with wakeHit := false } }

/-- DOZE_ENTER: no transaction of the halls is outstanding; a wake during the entry ends Doze again (R399). -/
def execDozeEnter (d : Die) (s : State) : Host.Outcome State Fault Refusal :=
  s.doOn d fun x =>
    if x.rd pwrStateCur = 1 ∧ x.bus.waiting.isEmpty then
      let y := (x.wr pwrStateCur 0).cnt pwrCntDozes
      if x.pow.wakeHit then ({ y with pow := { y.pow with wakeHit := false } }).woken
      else { y with pow := { y.pow with stopped := x.dozeHalls.map Hall.num } }
    else x

/-- DOZE_WAKE: a Doze wake source fires. -/
def execDozeWake (d : Die) (src : Fin 7) (s : State) : Host.Outcome State Fault Refusal :=
  s.doOn d fun x => if x.inDoze ∨ x.rd pwrStateCur = 1 then x.wakeDie src else x

/-! ### Rest (R398 to R400) -/

/-- A load channel is on that the die owns: in Split mode by the OWNER map, else every channel. -/
def State.loadHeld (s : State) (d : Die) : Bool :=
  let w := s.newel
  (List.range 24).any fun n => (w.chan n).on && (decide (w.mode ≠ 0) || decide (w.ownerOf n = d))

/-- What an accepted or refused Rest request does. -/
def State.restAsk (s : State) (d : Die) : State :=
  let x := s.get d
  if x.rd pwrStateCur ≠ 0 then s
  else if x.rd pwrWakeEn = 0 then s.on d fun x => x.pwrRefuse 1
  else if s.loadHeld d then s.on d fun x => x.pwrRefuse 2
  else
    let go (cur : Nat) (x : DieState) : DieState :=
      { (x.wr pwrStateResult 1).wr pwrStateCur cur with pow := { x.pow with pendAt := x.now, wakeHit := false } }
    if x.pairMode = 0 then s.on d (go 3)
    else if (s.get d.other).rd pwrStateCur = 2 then (s.on d (go 3)).on d.other fun y => y.wr pwrStateCur 3
    else s.on d (go 2)

/-- REST_REQUEST. -/
def execRestRequest (a : Acc) (v : Word) (s : State) : Host.Outcome State Fault Refusal :=
  let ok := decide ((s.get a.die).regStatus a.req 1 0 4 true = .okay)
  let s1 := s.on a.die fun d => d.writeReg a.req 1 0 4 (pwrReqWord v 2) fun d => d
  .next (if ok then s1.restAsk a.die else s1)

/-- REST_PENDING_TIMEOUT: the partner has not asked within 1 s. -/
def execRestPendingTimeout (d : Die) (s : State) : Host.Outcome State Fault Refusal :=
  s.doOn d fun x =>
    if x.rd pwrStateCur = 2 ∧ x.pow.pendAt + 1000000000 ≤ x.now then (x.wr pwrStateCur 0).pwrRefuse 4 else x

/-- The die is in Rest: every hall but AON has lost its power, its link is stopped. -/
def DieState.restNow (d : DieState) : DieState :=
  let d1 := ([.stw, .ser, .phy, .swc, .bus, .engB, .engA, .drk, .host] : List Hall).foldl (fun d h => d.hallClear h) d
  let d2 := ((((d1.wr pwrHallStatOn 1).wr pwrHallStatReady 1).wr pwrStateCur 0).cnt pwrCntRests).wr nwlLinkUp 0
  { d2 with pow := { d2.pow with alive := false, rising := [], wakeHit := false }, nl := {}, bus := {} }

/-- The Newel turns SQ_1 and SQ_2 of a die off and does not count its link as lost. -/
def NewelState.restDie (w : NewelState) (d : Die) : NewelState :=
  { w with supply := w.supply.set (dieIdx d) { w.supply.get (dieIdx d) with on := 1, good := 1, why := 6 } }.onLink d fun l =>
    { l with stopped := true, lost := false }

/-- One die enters Rest. -/
def State.restOne (s : State) (d : Die) : State := (s.on d DieState.restNow).onNewel fun w => w.restDie d

/-- REST_ENTER: in Mirror and Vote mode both dies at one instant, so that neither starts a failover. -/
def execRestEnter (d : Die) (s : State) : Host.Outcome State Fault Refusal :=
  if (s.get d).rd pwrStateCur ≠ 3 then .next s
  else if (s.get d).pairMode ≠ 0 ∧ (s.get d.other).rd pwrStateCur = 3 then .next ((s.restOne d).restOne d.other)
  else .next ((s.restOne d).on d.other DieState.partnerMute)

/-- REST_WAKE: a Rest wake source fires; sources of the Newel reach both dies (R409). -/
def execRestWake (d : Die) (src : Fin 7) (s : State) : Host.Outcome State Fault Refusal :=
  if 5 ≤ src.val then .next s
  else
    let s1 := s.on d fun x => x.wakeDie src
    .next (if src.val = 0 ∨ src.val = 1 ∨ src.val = 3 then s1.on d.other fun x => x.wakeDie src else s1)

/-! ### Die reset (R20, R404; 16 R423; 17 R438, R439) -/

/-- A die right after a reset: all of it, but its flash and fuses and the numbers of its free and random values; host SRAM where
the power stayed. `cause` is RST_CAUSE, `mode` the Newel's pairing mode. -/
def DieState.afterReset (d : DieState) (cause mode : Nat) (powered expired : Bool) : DieState :=
  let z := DieState.reset d.die
  let x := { z with free := d.free, host := { z.host with sram := if powered then d.host.sram else [] }
                    upd := { flash := d.upd.flash, fuses := d.upd.fuses }, sec := { z.sec with rng := d.sec.rng }, pci := { z.pci with ext := d.pci.ext }
                    pow := { expired := expired } }
  let y := (((x.takeMode mode).wr pwrRstCause cause).wr updFuse d.upd.fuses).showBank
  if d.bit prtStatOpen then y.raise 0x1312 1 else y

/-- A die is reset and runs again at once. -/
def State.dieReset (s : State) (d : Die) (cause : Nat) (expired : Bool := false) : State :=
  (s.on d fun x => x.afterReset cause s.newel.mode true expired).on d.other DieState.partnerMute

/-- RSTIN_ASSERT: the pad low for 1 µs; a die without power does not see it. -/
def execRstinAssert (d : Die) (s : State) : Host.Outcome State Fault Refusal :=
  .next (if (s.get d).pow.alive then s.dieReset d 3 else s)

/-- PWR_RESET_WRITE: the key with DIE resets the die; any other key is refused with reason 5, which STATE.REASON then shows
(R404, Table 15.7). -/
def execPwrResetWrite (a : Acc) (v : Word) (s : State) : Host.Outcome State Fault Refusal :=
  let ok := decide ((s.get a.die).regStatus a.req 1 0 0x24 true = .okay)
  let s1 := s.on a.die fun d => d.writeReg a.req 1 0 0x24 v fun d =>
    if v.toNat % 65536 = 0xD1E0 then d else (d.wr pwrStateReason 5).raise 0x0102 5
  .next (if ok ∧ v.toNat % 65536 = 0xD1E0 ∧ v.msb then s1.dieReset a.die 4 else s1)

/-! ### Supplies (R401, R402) -/

/-- A die's supplies. -/
def NewelState.supplyOf (w : NewelState) (d : Die) : SupplyState := w.supply.get (dieIdx d)

/-- Changes a die's supplies. -/
def NewelState.onSupply (w : NewelState) (d : Die) (g : SupplyState → SupplyState) : NewelState :=
  { w with supply := w.supply.set (dieIdx d) (g (w.supplyOf d)) }

/-- Reset is released 0.2 ms after the last power-good: after Rest the AON hall has kept its state, and the halls of HALL_CTL are
on in their reset state. WAKE is raised now that the die runs (R409). -/
def State.release (s : State) (d : Die) : State :=
  let why := (s.newel.supplyOf d).why
  if why = 6 then
    s.on d fun x =>
      let on := Nat.lor (x.rd pwrHallCtl) 3
      let y := ((((x.wr pwrHallStatOn on).wr pwrHallStatReady on).wr pwrRstCause 6).takeMode s.newel.mode).wr pwrBootStage 0
      (((({ y with pow := { alive := true }, gal := {}, host := { mtBase := y.now }, nl := { resyncAt := y.now } }.wr
        pwrBootBank 0).wr pwrBootFallback 0).wr pwrBootFail 0).wr updFuse y.upd.fuses).showBank.woken
  else s.on d fun x => x.afterReset why s.newel.mode false x.pow.expired

/-- The groups that are enabled: a wake in Rest enables SQ_1 at once. -/
def State.groupsOn (s : State) (d : Die) : Nat :=
  let p := s.newel.supplyOf d
  if p.on = 1 ∧ p.good = 1 ∧ (s.get d).pow.wakeHit ∧ !(s.get d).pow.alive then 2 else p.on

/-- POWER_GOOD_RISE: the power-good of the enabled group; the next group follows, or the reset is released. -/
def execPowerGoodRise (d : Die) (g : Fin 3) (s : State) : Host.Outcome State Fault Refusal :=
  let p := s.newel.supplyOf d
  if !s.newel.offline ∧ p.good = g.val ∧ s.groupsOn d = g.val + 1 then
    let s1 := s.onNewel fun w => w.onSupply d fun p => { p with good := g.val + 1, on := min 3 (g.val + 2) }
    .next (if g.val = 2 then s1.release d else s1)
  else .next s

/-- A die held in reset without power. -/
def DieState.dark (d : DieState) : DieState :=
  let x := d.afterReset 2 0 false false
  { x with pow := { x.pow with alive := false } }

/-- POWER_GOOD_FAULT: a power-good is late or drops while its group is enabled: reset asserted, groups off, a retry after 10 ms
with the cause PG_FAULT; the third failure within 1 s leaves the die off and PG_FAIL on the other die. -/
def execPowerGoodFault (d : Die) (g : Fin 3) (s : State) : Host.Outcome State Fault Refusal :=
  let p := s.newel.supplyOf d
  if s.newel.offline ∨ s.groupsOn d ≤ g.val then .next s
  else
    let now := s.newel.now
    let fails := now :: p.fails.filter fun t => decide (now < t + 1000000000)
    let off := decide (3 ≤ fails.length)
    let s1 := ((s.on d DieState.dark).on d.other DieState.partnerMute).onNewel fun w =>
      w.onSupply d fun _ => { on := 0, good := 0, fails := fails, off := off, retryAt := if off then none else some (now + 10000000), why := 2 }
    .next (if off then s1.on d.other fun x => if x.pow.alive then x.raise 0x0105 ((dieIdx d).val + 2 * g.val) else x else s1)

/-- PG_RETRY: 10 ms after a fault the sequence starts again. -/
def execPgRetry (d : Die) (s : State) : Host.Outcome State Fault Refusal :=
  .next (s.onNewel fun w =>
    match (w.supplyOf d).retryAt with
    | some t => if t ≤ w.now ∧ !w.offline then w.onSupply d fun p => { p with on := 1, good := 0, retryAt := none } else w
    | none => w)

/-- NL_PWR_RETRY: the partner of the sender starts a new sequence with three attempts; NAK 2 while it is not left off. -/
def execNlPwrRetry (d : Die) (seq : Fin 16) (s : State) : Host.Outcome State Fault Refusal :=
  s.nlDo d seq fun w =>
    if (w.supplyOf d.other).off then
      (none, w.onSupply d.other fun _ => { on := 1, good := 0, fails := [], off := false, retryAt := none, why := 2 })
    else (some 2, w)

/-- The Newel's state after one of its resets: what the EEPROM holds stays. The challenges are seeded from noise at power-on only. -/
def NewelState.restart (w : NewelState) : NewelState :=
  let fsKeep (e : Nat × Nat) : Option (Nat × Nat) :=
    match chanOfWord e.1 with
    | some _ =>
      let k := (e.1 - 0x80) % 8
      if k = 1 then some (e.1, Nat.land e.2 0x1800)
      else if k = 2 then some (e.1, Nat.land e.2 0x3FF)
      else none
    | none => if 65536 ≤ e.1 then some e else none
  { now := w.now, mode := w.mode, active := w.active, owner := w.owner, cfg := w.cfg.filterMap fsKeep, vbat := w.vbat, low := w.low, rev := w.rev,
    slPin := w.slPin, lh := w.lh, wk := w.wk, ntemp := w.ntemp, ee := w.ee, epochs := w.epochs, supply := w.supply,
    offline := w.offline, free := w.free, wdAuto := some w.now
    link := Vector.replicate 2 { seen := w.now }
    wd := w.wd.map fun x => { chal := x.chal } }

/-- NEWEL_RESET (R403): every load channel off, watchdogs disarmed, both links lost; NEWEL_RESET follows on each die when its link
is up again. -/
def execNewelReset (s : State) : Host.Outcome State Fault Refusal :=
  if s.newel.offline then .next s
  else
    let s1 := s.onNewel fun w => { w.restart with note := [0, 1] }
    let lost (x : DieState) : DieState := if x.pow.alive && x.bit nwlLinkUp then x.nlLost 1 else x
    .next (((s1.on .west lost).on .east lost).showArmed 0)

/-- MODULE_OFF: below 4.5 V all state is lost except fuses, EEPROM and flash (R401). -/
def execModuleOff (s : State) : Host.Outcome State Fault Refusal :=
  let s1 := (s.on .west DieState.dark).on .east DieState.dark
  .next (s1.onNewel fun w =>
    { w.restart with offline := true, active := .west, vbat := 0, low := true, rev := false, slPin := true, lh := 0, wk := 0,
                     ntemp := 0, supply := Vector.replicate 2 { on := 0, good := 0 } })

/-- A free seed of a watchdog challenge (14 R386). -/
def NewelState.seed (w : NewelState) (d : Die) : NewelState :=
  { w.onWd d fun x => { x with chal := (Config.freeNoise w.free).toNat } with free := w.free + 1 }

/-- MODULE_POWER_ON: VBAT above 4.5 V starts both supply sequences. -/
def execModulePowerOn (v : BitVec 16) (s : State) : Host.Outcome State Fault Refusal :=
  if s.newel.offline ∧ 450 < v.toNat then
    .next (s.onNewel fun w =>
      ((({ w with offline := false, vbat := v.toNat, low := decide (v.toNat ≤ 700), wdAuto := some w.now
                  supply := Vector.replicate 2 { on := 1, good := 0, why := 0 } } : NewelState).seed .west).seed .east))
  else .next s

/-! ### The boot ROM (R405, R406; 16 R413, R423) -/

/-- The trial timer of a boot: it counts from the release of reset of a trial boot (16 R423); ACTIVATE starts none (16 R422). -/
def DieState.trialStart (d : DieState) : Option Nat := if (d.bootRec.map BootRec.trial).getD 0 = 1 then some d.now else none

/-- BOOT_START: core 0 starts in the ROM; cores 1 to 3 stay stopped. -/
def execBootStart (d : Die) (s : State) : Host.Outcome State Fault Refusal :=
  s.doOn d fun x =>
    if x.pow.alive ∧ x.rd pwrBootStage = 0 then
      { (x.wr sysCoreCtlRun 1).wr pwrBootStage 1 with pow := { x.pow with tried := false, firstFail := 0 }, upd := { x.upd with trialAt := x.trialStart } }
    else x

/-- The flash XTS unit as the ROM leaves it (16 R413). -/
def DieState.romXts (d : DieState) : DieState :=
  let areas : List (Nat × Nat × Nat) := [(0, 0x00100000, 0x00200000), (1, 0x01000000, 0x03000000), (2, 0x03000000, 0x05000000), (3, 0x05000000, Config.flashSize)]
  let d1 := areas.foldl (fun (d : DieState) a => (d.wr cipXrBase a.2.1 0 a.1).wr cipXrLimit a.2.2 0 a.1) d
  (d1.wr cipXtsKs 254).wr cipXtsEn 1

/-- A blob of the boot record is loaded into its slot with LOAD. -/
def State.romLoad (s : State) (d : Die) (k : Nat) (blob : List Byte) : State :=
  match Config.keyUnwrap (Config.deviceKey (s.get d).num) blob with
  | none => s
  | some bs => (s.drkPlace d k ((bs.drop 8).take 32) (leAt bs 0 4) (leAt bs 4 4)).2

/-- The ROM reads the boot record: a trial boot takes one of TRIES, or falls back when none is left (16 R423). -/
def DieState.romRecord (d : DieState) : DieState :=
  match d.bootRec with
  | none => d
  | some r =>
    if r.trial = 0 then d
    else if r.tries = 0 then d.fallBack
    else d.changeRecord (setRecord { r with tries := r.tries - 1 })

/-- The ROM refuses a bank: it tries the other one once, or halts with FAILED and the first refusal's cause (R406). -/
def DieState.romRefuse (d : DieState) (fail : Nat) : DieState :=
  if d.pow.tried then (d.wr pwrBootStage 7).wr pwrBootFail d.pow.firstFail
  else { d.wr pwrBootStage 1 with pow := { d.pow with tried := true, firstFail := fail, bootBank := 1 - d.pow.bootBank } }

/-- The ROM's first pass over the boot record: keys and the XTS unit, then the bank to boot. -/
def State.romBegin (s : State) (d : Die) : State :=
  let bs := ((s.get d).currentCopy.map fun k => (s.get d).recordCopy k).getD []
  let s1 := ((s.romLoad d 254 ((bs.drop 20).take 48)).romLoad d 255 ((bs.drop 68).take 48)).on d fun x => x.romXts.romRecord
  s1.on d fun x => { x with pow := { x.pow with bootBank := (x.bootRec.map BootRec.active).getD 0 } }

/-- BOOT_HEADER_DONE: a boot record with no valid copy is refused with FAIL 1 and halts the ROM. -/
def execBootHeaderDone (d : Die) (s : State) : Host.Outcome State Fault Refusal :=
  let x := s.get d
  if x.rd pwrBootStage ≠ 1 then .next s
  else if x.currentCopy.isNone then .next (s.on d fun x => (x.wr pwrBootStage 7).wr pwrBootFail 1)
  else
    let s1 := if x.pow.tried then s else s.romBegin d
    s1.doOn d fun x =>
      let f := headerCheck x.upd.fuses (x.flashRead (bankAddr x.pow.bootBank) 512)
      if f = 0 then x.wr pwrBootStage 2 else x.romRefuse f

/-- BOOT_VERIFY_DONE. -/
def execBootVerifyDone (d : Die) (s : State) : Host.Outcome State Fault Refusal :=
  s.doOn d fun x =>
    if x.rd pwrBootStage ≠ 2 then x
    else if x.signed x.pow.bootBank then x.wr pwrBootStage 3
    else x.romRefuse 6

/-- The firmware runs: bank and stage are recorded; a fallback and an expired trial are told now that the die is up. -/
def DieState.romDone (d : DieState) : DieState :=
  let b := d.pow.bootBank
  let d1 := ((d.wr pwrBootStage 4).wr pwrBootBank b).wr pwrBootFallback d.pow.tried.toNat
  let d2 := if d.pow.tried then (d1.wr pwrBootFail d.pow.firstFail).raise 0x0104 d.pow.firstFail else d1
  let d3 := if d.pow.expired then d2.raise 0x1206 (d2.rd updBankActive) else d2
  { d3 with pow := { d3.pow with expired := false } }

/-- BOOT_COPY_DONE: the host firmware is copied into host SRAM. -/
def execBootCopyDone (d : Die) (s : State) : Host.Outcome State Fault Refusal :=
  s.doOn d fun x =>
    if x.rd pwrBootStage ≠ 3 then x
    else
      let a := bankAddr x.pow.bootBank
      let h := x.flashRead a 512
      (x.sramStore (leAt h 32 4 - 0x10000000) (x.flashRead (a + leAt h 24 4) (leAt h 28 4))).romDone

end Sys2Proof.Machine
end

