-- ==== Sys2Proof/Machine/Update.lean ====
section
/-! DEFINITION. Machine/Update.lean: the UPD block: receiving an image, the boot record's operations, the trial (chapter 16). -/

namespace Sys2Proof.Machine

/-- RESULT values of UPD.STAT (Table 16.8). -/
inductive UpdRes where
  | ok
  | header
  | trial
  | notReady
  | range
  | protected_
  | order
  | notTrial
  | mismatch
  | flash
  deriving DecidableEq, Repr

/-- The RESULT number. -/
def UpdRes.num (r : UpdRes) : Nat :=
  match r with
  | .ok => 0
  | .header => 1
  | .trial => 2
  | .notReady => 3
  | .range => 4
  | .protected_ => 5
  | .order => 6
  | .notTrial => 7
  | .mismatch => 8
  | .flash => 9

/-- The word written to UPD.CTL with OP and GO. -/
def updWord (v : Word) (op : Nat) : Word := ((v >>> 4) <<< 4) ||| BitVec.ofNat 32 (2 ^ 31 + op)

/-- The operation ends with its RESULT. -/
def DieState.updEnd (d : DieState) (r : UpdRes) : DieState :=
  { (d.wr updStatResult r.num).wr updStatBusy 0 with upd := { d.upd with op := none } }

/-- The address in SRC. -/
def DieState.updSource (d : DieState) : Nat := 4 * d.rd updSrc

/-- An operation starts with the buffer that SRC names, and keeps UPD busy until it is done. -/
def DieState.updRun (d : DieState) (op a b : Nat) : DieState :=
  { d.wr updStatBusy 1 with upd := { d.upd with op := some (op, a, b), src := d.updSource } }

/-- An operation of CTL starts; a GO while BUSY is ignored. -/
def DieState.updGo (d : DieState) (op : Nat) : DieState := if d.bit updStatBusy then d else d.updRun op d.updSource 0

/-- A write of UPD.CTL that starts an operation. -/
def State.updStart (s : State) (a : Acc) (v : Word) (op : Nat) : State :=
  s.on a.die fun d => d.writeReg a.req 18 0 4 (updWord v op) fun d => d.updGo op

/-- The buffer in host SRAM. -/
def DieState.updBuffer (d : DieState) (addr n : Nat) : List Byte := d.host.sram.bytes (addr - 0x10000000) n

/-- The bank that is not ACTIVE. -/
def DieState.spareBank (d : DieState) : Nat := 1 - d.rd updBankActive

/-! ### Receiving an image (R417, R418) -/

/-- UPD_OPEN. -/
def execUpdOpen (a : Acc) (v : Word) (s : State) : Host.Outcome State Fault Refusal := .next (s.updStart a v 1)

/-- The session, or the READY state, is discarded (R417). -/
def DieState.sessionDrop (d : DieState) : DieState := { d with upd := { d.upd with hdr := [] } }.wr updStatState 0

/-- OPEN ends: refused while a trial runs, or by the header, or with a session in BODY. -/
def DieState.openDone (d : DieState) (addr : Nat) : DieState :=
  if d.bit updBankTrial then d.sessionDrop.updEnd .trial
  else
    let h := d.updBuffer addr 512
    let f := headerCheck d.upd.fuses h
    if f ≠ 0 then
      (((d.sessionDrop.wr updStatFail f).updEnd .header).cnt updCntRefused).raise 0x1201 f
    else
      ((((({ d with upd := { d.upd with hdr := h } }.wr updStatState 1).wr updStatFail 0).wr updNext 0).wr updHdrId (leAt h 464 4)).updEnd .ok)

/-- SIGNED_LEN of the session. -/
def DieState.sessionLen (d : DieState) : Nat := leAt d.upd.hdr 8 4

/-- Where a PROG goes, or its refusal (R417, R418). -/
def DieState.progPlace (d : DieState) (target unit : Nat) : Except UpdRes Nat :=
  if !inSram d.updSource 4096 then .error .range
  else if target = 0 then
    if d.rd updStatState ≠ 1 then .error .notReady
    else if d.rd updNext < unit then .error .order
    else if (d.sessionLen + 8192) / 4096 ≤ unit then .error .range
    else if unit = 0 ∧ d.updBuffer d.updSource 512 ≠ d.upd.hdr then .error .mismatch
    else .ok (bankAddr d.spareBank + 4096 * unit)
  else if target = 3 then
    if 0x05000000 + 4096 * (unit + 1) ≤ Config.flashSize then .ok (0x05000000 + 4096 * unit) else .error .range
  else if 128 ≤ unit then .error .range
  else if d.bit updBankTrial ∧ target - 1 = d.rd updBankSetOld then .error .protected_
  else .ok (0x00100000 + 0x80000 * (target - 1) + 4096 * unit)

/-- What a write of PROG with GO does. -/
def DieState.progGo (d : DieState) : DieState :=
  if d.bit updStatBusy then d
  else
    let u := d.rd updProgUnit
    match d.progPlace (d.rd updProgTarget) u with
    | .ok a => d.updRun 16 a u
    | .error .protected_ => (d.updEnd .protected_).raise 0x1207 u
    | .error r => d.updEnd r

/-- UPD_PROG. -/
def execUpdProg (a : Acc) (v : Word) (s : State) : Host.Outcome State Fault Refusal :=
  s.doOn a.die fun d => d.writeReg a.req 18 0 0x10 (commitWord v 31) DieState.progGo

/-- Bytes of flash whose programming failed are open: free values. -/
def DieState.flashBroken (d : DieState) (a : Nat) : DieState :=
  let bs := (List.range 1024).flatMap fun i => leBytes 4 (Config.freeWord (2 * (d.free + i) + if d.die = .west then 0 else 1)).toNat
  { d with upd := { d.upd with flash := d.upd.flash.setBytes a bs }, free := d.free + 1024 }

/-- UPD_PROG_DONE: the unit is erased, encrypted, programmed and read back. -/
def execUpdProgDone (d : Die) (readBackOk : Bool) (s : State) : Host.Outcome State Fault Refusal :=
  s.doOn d fun x =>
    match x.upd.op with
    | some (16, a, u) =>
      if !readBackOk then (x.flashBroken a).updEnd .flash
      else
        let y := (x.flashProgram a (x.updBuffer x.upd.src 4096)).cnt updCntUnits
        (if bankAddr 0 ≤ a ∧ a < 0x05000000 then y.wr updNext (max (y.rd updNext) (u + 1)) else y).updEnd .ok
    | _ => x

/-- What VERIFY does when it starts: it needs a session whose units are all there. -/
def DieState.verifyGo (d : DieState) : DieState :=
  if d.bit updStatBusy then d
  else if d.rd updStatState ≠ 1 then d.updEnd .notReady
  else if d.rd updNext < (d.sessionLen + 8192) / 4096 then d.updEnd .order
  else (d.updRun 2 0 0).wr updStatState 2

/-- UPD_VERIFY. -/
def execUpdVerify (a : Acc) (v : Word) (s : State) : Host.Outcome State Fault Refusal :=
  s.doOn a.die fun d => d.writeReg a.req 18 0 4 (updWord v 2) DieState.verifyGo

/-- UPD_VERIFY_DONE: READY, or FAILED with FAIL 6. -/
def execUpdVerifyDone (d : Die) (s : State) : Host.Outcome State Fault Refusal :=
  s.doOn d fun x =>
    match x.upd.op with
    | some (2, _, _) =>
      let y := { x with upd := { x.upd with ready := x.spareBank } }.updEnd .ok
      if x.signed x.spareBank then (y.wr updStatState 3).raise 0x1202 (x.rd updHdrId)
      else ((y.wr updStatState 4).wr updStatFail 6).raise 0x1203 6
    | _ => x

/-- UPD_ABORT: the session ends, the bank is invalid. -/
def execUpdAbort (a : Acc) (v : Word) (s : State) : Host.Outcome State Fault Refusal :=
  s.doOn a.die fun d => d.writeReg a.req 18 0 4 (updWord v 5) fun d =>
    if d.bit updStatBusy then d
    else (d.sessionDrop.wr updNext 0).updEnd .ok

/-! ### The boot record's operations (R422, R423, R425, R426) -/

/-- UPD_ACTIVATE. -/
def execUpdActivate (a : Acc) (v : Word) (s : State) : Host.Outcome State Fault Refusal := .next (s.updStart a v 3)

/-- UPD_CONFIRM. -/
def execUpdConfirm (a : Acc) (v : Word) (s : State) : Host.Outcome State Fault Refusal := .next (s.updStart a v 4)

/-- UPD_FALLBACK. -/
def execUpdFallback (a : Acc) (v : Word) (s : State) : Host.Outcome State Fault Refusal := .next (s.updStart a v 6)

/-- UPD_CHAIN. -/
def execUpdChain (a : Acc) (v : Word) (s : State) : Host.Outcome State Fault Refusal := .next (s.updStart a v 7)

/-- UPD_INIT. -/
def execUpdInit (a : Acc) (v : Word) (s : State) : Host.Outcome State Fault Refusal := .next (s.updStart a v 8)

/-- ACTIVATE ends. -/
def DieState.activateDone (d : DieState) : DieState :=
  match d.bootRec with
  | none => d.updEnd .notReady
  | some r =>
    if d.rd updStatState ≠ 3 then d.updEnd .notReady
    else
      let r' : BootRec := { active := d.upd.ready, trial := 1, tries := d.rd updActTries, trialS := d.rd updActTrialS, setOld := r.setCur,
                            setCur := 1 - r.setCur }
      ((d.changeRecord (setRecord r')).updEnd .ok).raise 0x1204 r'.active

/-- CONFIRM ends: the trial is over, fuses are blown up to the header's ROLLBACK. -/
def DieState.confirmDone (d : DieState) : DieState :=
  match d.bootRec with
  | none => d.updEnd .notTrial
  | some r =>
    if r.trial = 0 then d.updEnd .notTrial
    else
      let n := max d.upd.fuses (leAt (d.flashRead (bankAddr r.active) 512) 12 4)
      let y := d.changeRecord (setRecord { r with trial := 0 })
      ((({ y with upd := { y.upd with fuses := n, trialAt := none } }.wr updFuse n).updEnd .ok)).raise 0x1205 n

/-- FALLBACK ends. -/
def DieState.fallbackDone (d : DieState) : DieState :=
  if (d.bootRec.map BootRec.trial).getD 0 = 0 then d.updEnd .notTrial else d.fallBack.updEnd .ok

/-- CHAIN ends: 64 bytes from SRC are in the record. -/
def DieState.chainDone (d : DieState) (addr : Nat) : DieState :=
  if d.currentCopy.isNone then d.updEnd .notReady
  else (d.changeRecord fun bs => patch bs 116 (d.updBuffer addr 64)).updEnd .ok

/-- INIT ends: a first boot record, only where none is valid. -/
def DieState.initDone (d : DieState) (addr : Nat) : DieState :=
  if d.currentCopy.isSome then d.updEnd .protected_ else (d.putRecord 0 (d.updBuffer addr 4096)).updEnd .ok

/-- UPD_OPERATION_DONE. An operation that reads the buffer ends with RANGE when SRC was outside host SRAM. -/
def execUpdOperationDone (d : Die) (s : State) : Host.Outcome State Fault Refusal :=
  s.doOn d fun x =>
    match x.upd.op with
    | some (op, addr, _) =>
      if (op = 1 ∨ op = 7 ∨ op = 8) ∧ !inSram addr 4096 then (if op = 1 then x.sessionDrop else x).updEnd .range
      else
        match op with
        | 1 => x.openDone addr
        | 3 => x.activateDone
        | 4 => x.confirmDone
        | 6 => x.fallbackDone
        | 7 => x.chainDone addr
        | 8 => x.initDone addr
        | _ => x
    | none => x

/-- Seconds left on the trial timer (R423, R426). -/
def DieState.trialLeft (d : DieState) : Nat :=
  match d.bootRec, d.upd.trialAt with
  | some r, some t => ceilDiv (r.trialS * 1000000000 - (d.now - t)) 1000000000
  | _, _ => 0

/-- UPD_TRIAL_EXPIRY: FALLBACK, then the die is reset. An operation that runs is taken first. -/
def execUpdTrialExpiry (d : Die) (s : State) : Host.Outcome State Fault Refusal :=
  let x := s.get d
  match x.bootRec, x.upd.trialAt with
  | some r, some t =>
    if x.pow.alive ∧ x.upd.op.isNone ∧ r.trial = 1 ∧ r.trialS ≠ 0 ∧ t + 1000000000 * r.trialS ≤ x.now then
      .next ((s.on d DieState.fallBack).dieReset d 4 true)
    else .next s
  | _, _ => .next s

end Sys2Proof.Machine
end

