-- ==== Sys2Proof/Machine/Guard.lean ====
section
/-! DEFINITION. Machine/Guard.lean: fences of uncorrectable errors (01 R15; 17 R428), enabling the event log (R437), the lock and
the commands of perturbation (R439 to R441). -/

namespace Sys2Proof.Machine

/-! ### Fences (01 R15, 17 R428) -/

/-- The items of a class that a fence discards are counted. -/
def DieState.fenceLoss (d : DieState) (cls n : Nat) : DieState := d.cnt evtResetLoss 0 cls 0 n

/-- An engine cluster is fenced: its invocations end, its events are disposed of by the policy of a fence. -/
def DieState.fenceEngine (d : DieState) (cl idx : Nat) : DieState :=
  if (d.cluster cl).fenced then d
  else
    let cs := d.boundCtxs cl
    let es := (d.cluster cl).evq
    let d1 := cs.foldl (fun d n => d.wipeCtx n) d
    let d2 := (d1.onCluster cl fun c => { c with evq := [], locks := [], fenced := true }).wr fkeClStatFenced
      (Nat.lor (d1.rd fkeClStatFenced) (2 ^ cl))
    let d3 := es.foldl (fun d e => let p := d.disposeEvent cl e 3; p.1.settle 256 p.2) d2
    (d3.fenceLoss 7 (cs.length + es.length)).raise 0x0711 (7 + 256 * idx) cl

/-- Work in flight on the CAN channels of a cluster. -/
def DieState.fenceCan (d : DieState) (k : Nat) : DieState :=
  (List.range 8).foldl (fun (d : DieState) i =>
    let ch := 8 * k + i
    let n := (d.canCh ch).q.length
    (d.onCan ch fun c => { c with q := [] }).fenceLoss 2 n) d

/-- Work in flight on the LIN channels. -/
def DieState.fenceLin (d : DieState) : DieState :=
  (List.range 8).foldl (fun (d : DieState) ch =>
    let n := if (d.linCh ch).cur.isSome then 1 else 0
    (d.onLin ch fun c => { c with cur := none, unsent := [] }).fenceLoss 3 n) d

/-- The ports of a fence number. -/
def fencePorts (f : Nat) : List Nat := (List.range 29).filter fun p => decide (fenceOf 4 p = f)

/-- Work in flight on a port: its transmissions are cut, its output queues emptied. -/
def DieState.fencePort (d : DieState) (p : Nat) : DieState :=
  let n := d.queuedCopies p
  ((List.range 8).foldl (fun (d : DieState) t =>
    (d.outQueue p t).foldl (fun d c => d.releaseFrame c.desc) (d.setQueue p t [])) (d.cutTx p)).fenceLoss 4 n

/-- Writes on their way to the Gallery. -/
def DieState.fenceGallery (d : DieState) : DieState :=
  let rs := d.gal.req ++ d.gal.pipe
  let d1 := rs.foldl (fun d r => d.galGone .clusterFenced r) d
  { d1 with gal := { d1.gal with req := [], pipe := [] } }.fenceLoss 8 rs.length

/-- The switch core: every queue and every lookup. -/
def DieState.fenceSwitch (d : DieState) : DieState :=
  let n := d.sw.fifo.length
  let d1 := (List.range 29).foldl (fun d p => d.fencePort p) d
  { d1 with sw := { d1.sw with fifo := [] } }.fenceLoss 5 n

/-- The route pipeline. -/
def DieState.fenceRoutes (d : DieState) : DieState :=
  let n := d.rte.fifo.length
  { d with rte := { d.rte with fifo := [], talkers := [] } }.fenceLoss 9 n

/-- The table unit: its lookups, its learn queue and its edit buffer (09 R246). -/
def DieState.fenceTables (d : DieState) : DieState :=
  let n := d.sw.fifo.length + d.tbl.lq.length + d.tbl.flushReq.length + d.tbl.edits.length
  let d1 := d.sw.fifo.foldl (fun d k => d.releaseFrame k) d
  ({ d1 with sw := { d1.sw with fifo := [] }, tbl := { d1.tbl with lq := [], flushReq := [], edits := [] } }.wr fwtFlushBusy 0).fenceLoss 6 n

/-- The fence number of a unit's scope: its cluster, or itself (01 R15). -/
def fenceOfUnit (cls idx : Nat) : Nat :=
  if cls = 2 ∨ cls = 3 ∨ cls = 4 then fenceOf cls idx
  else if cls = 8 then 40
  else if cls = 5 then 41
  else 64 + cls

/-- What a new fence discards. -/
def DieState.fenceDrop (d : DieState) (cls idx : Nat) : DieState :=
  match cls with
  | 2 => d.fenceCan (idx / 8)
  | 3 => d.fenceLin
  | 4 => (fencePorts (fenceOf 4 idx)).foldl (fun d p => d.fencePort p) d
  | 5 => d.fenceSwitch
  | 6 => d.fenceTables
  | 8 => d.fenceGallery
  | 9 => d.fenceRoutes
  | _ => d

/-- The units of a class. -/
def unitCount (cls : Nat) : Nat :=
  match cls with
  | 2 => 32
  | 3 => 8
  | 4 => 29
  | 7 => 32
  | 13 => 64
  | 14 => 64
  | _ => 1

/-- An uncorrectable error in table entry `k` (table · 65,536 + index): it is unusable until it is written (09 R246). -/
def DieState.entryError (d : DieState) (k : Nat) : DieState :=
  if 8 ≤ k / 65536 ∨ tableSize (k / 65536) ≤ k % 65536 ∨ !d.hallUp (tableHall (k / 65536)) ∨ d.tbl.ue.contains k then d
  else { d with tbl := { d.tbl with ue := d.tbl.ue ++ [k] } }

/-- An uncorrectable error in a unit (R15, R428). A table entry (class 6, index 65,536 on; log 29) and a cipher unit (class 11) are
contained more finely and fence nothing; class 0 is the host complex. -/
def DieState.unitError (d : DieState) (cls idx : Nat) : DieState :=
  let h := hallOfReg cls idx 0x100
  if cls = 6 ∧ 65536 ≤ idx then d.entryError (idx - 65536)
  else if unitCount cls ≤ idx ∨ !d.hallUp h then d
  else if cls = 0 then d.hostFenced 0
  else
    let d1 := d.cnt evtUe 0 h.num
    if cls = 7 then d1.fenceEngine (idx / 8) idx
    else if cls = 11 ∨ d1.fences.contains (fenceOfUnit cls idx) then d1
    else
      ({ d1.fenceDrop cls idx with fences := fenceOfUnit cls idx :: d1.fences }).raise 0x1402 (cls + 256 * idx + 65536 * h.num) idx

/-- UNCORRECTABLE_ERROR. A fenced Stairwell bridge takes the link down with it. -/
def execUncorrectableError (d : Die) (u : UnitRef) (s : State) : Host.Outcome State Fault Refusal :=
  let s1 := s.on d fun x => x.unitError u.cls.val u.idx
  .next (if u.cls.val = 15 ∧ (s1.get d).fences.contains 79 then s1.linkDown 0 else s1)

/-! ### The event log (R437) -/

/-- EN goes from 0 to 1: a fresh header, STOPPED and TRIGGERED clear. -/
def DieState.logStart (d : DieState) : DieState :=
  ((({ d with evt := { d.evt with logCnt := 0, logPost := 0 } }).wr evtLogStatStopped 0).wr evtLogStatTriggered 0).logHeader

/-- LOG_ENABLE: a write of LOG_CFG that sets EN. -/
def execLogEnable (a : Acc) (v : Word) (s : State) : Host.Outcome State Fault Refusal :=
  s.doOn a.die fun d =>
    let was := d.bit evtLogCfgEn
    d.writeReg a.req 20 0 0x14 (commitWord v 8) fun d => if was then d else d.logStart

/-! ### Perturbation (R439 to R441) -/

/-- A requester as the unlock sequence knows it: its ID and origin. -/
def unlockId (r : Requester) : Nat := reqId r * 32 + reqOrigin r

/-- What a write of UNLOCK.KEY does (R439, R440). -/
def DieState.unlockKey (d : DieState) (r : Requester) (key : Nat) : DieState :=
  if Config.fusePrtLock d.num then d.cnt prtStatDenied
  else if key = 0x5A5A then { d with guard := { d.guard with half := some (unlockId r) } }
  else
    let d1 := { d with guard := { d.guard with half := none } }
    if key = 0xA5A5 ∧ d.guard.half = some (unlockId r) ∧ !d.bit prtStatOpen then (d1.wr prtStatOpen 1).raise 0x1310 (reqId r) else d1

/-- PRT_UNLOCK. -/
def execPrtUnlock (a : Acc) (v : Word) (s : State) : Host.Outcome State Fault Refusal :=
  s.doOn a.die fun d => d.writeReg a.req 19 0 4 v fun d => d.unlockKey a.req (v.toNat % 65536)

/-- A register-file key of a perturbation field. -/
def isPerturb (k : Nat) : Bool :=
  decide (keyBlk k = 19) && decide (0x100 ≤ keyOff k) &&
    match fieldOfKey k with
    | some f => decide (f.acs = .rws)
    | none => false

/-- 0 is staged into every perturbation field (R439), BURST and SEED among them (DEDUCED, log 51). -/
def DieState.stageZero (d : DieState) : DieState :=
  if d.commitOpen then
    let ks := ((d.regs ++ d.staged).map Prod.fst).filter isPerturb
    let d1 := { d with staged := ks.foldl (fun t k => if Tab.get? d.regs k = none then Tab.erase t k else Tab.insert t k 0) d.staged }
    (d1.stage prtStwABurst 0).stage prtCuejBSeed 0
  else d

/-- PRT_RELOCK: the block closes; the next commit ends all perturbation and raises PRT_CLOSED. -/
def execPrtRelock (a : Acc) (v : Word) (s : State) : Host.Outcome State Fault Refusal :=
  s.doOn a.die fun d => d.writeReg a.req 19 0 0xC (commitWord v 31) fun d =>
    if d.bit prtStatOpen then { d.stageZero.wr prtStatOpen 0 with guard := { d.guard with relock := true } } else d

/-- PRT_CAN_ARM. -/
def execPrtCanArm (a : Acc) (c : Fin 32) (v : Word) (s : State) : Host.Outcome State Fault Refusal :=
  s.doOn a.die fun d => d.writeReg a.req 19 0 (0x400 + 16 * c) (commitWord v 12) fun d =>
    if d.bit prtStatOpen then { d with guard := { d.guard with armed := c.val :: d.guard.armed.erase c.val } } else d

/-- PRT_WD_N: LEFT takes N. -/
def execPrtWdN (a : Acc) (v : Word) (s : State) : Host.Outcome State Fault Refusal :=
  s.doOn a.die fun d => d.writeReg a.req 19 0 0x640 v fun d =>
    if d.bit prtStatOpen then d.wr prtWdLeft (prtWdN.ofWord v) else d

/-- PRT_BP_PHASE: a phase of the injected back-pressure begins on a port whose BP_ON is not 0. -/
def execPrtBpPhase (d : Die) (p : Fin 29) (on : Bool) (s : State) : Host.Outcome State Fault Refusal :=
  s.doOn d fun x => if x.rd prtPortBBpOn 0 p ≠ 0 then x.onPort p fun y => { y with bpBlocked := on } else x

end Sys2Proof.Machine
end

