-- ==== Sys2Proof/Machine/Views.lean ====
section
/-! DEFINITION. Machine/Views.lean: what a read of a register returns (00 R8, 02 R48): its fields by their types, the fields that
show what a unit holds at the moment, and what the read does. -/

namespace Sys2Proof.Machine

/-! ### Fields that show a unit as it stands -/

/-- A value list that a block's live fields form. -/
abbrev Live := List (Fld × Nat)

/-- The bits `n` of a range for which `p` holds, as a number. -/
def bitsWhere (n : Nat) (p : Nat → Bool) : Nat := (List.range n).foldl (fun a k => if p k then a + 2 ^ k else a) 0

/-- A queue block interrupts a core (13 R348, R353). -/
def DieState.qbIrq (d : DieState) (n c : Nat) : Bool :=
  d.bit qbkCfgCInten n && decide (d.rd qbkCfgCCore n = c) && d.qbNote n

/-- An end of a mailbox interrupts a core: a doorbell or a drain timeout of a host core's end (13 R357, R358). -/
def DieState.mbEndIrq (d : DieState) (m e c : Nat) : Bool :=
  let code := d.endCode m e
  let core := if code = 4 then (if e = 0 then d.rd mbxCfgCCore m else d.rd mbxCfgDCore m) else code
  d.bit mbxCfgAEn m && decide (code ≤ 4) && decide (core = c) && (d.bit mbxStatDb (endChan m e) || d.bit mbxStatTmo (endChan m e))

/-- A mailbox interrupts a core. -/
def DieState.mbIrq (d : DieState) (m c : Nat) : Bool := d.mbEndIrq m 0 c || d.mbEndIrq m 1 c

/-- The endpoint's interrupts go to core CORE (13 R365). -/
def DieState.pciIrq (d : DieState) (c : Nat) (on : Bool) : Nat := (on && decide (d.rd pciIntACore = c)).toNat

/-- SYS: the grade, MTIME, semaphores, the pending sources of a core. -/
def DieState.liveSys (d : DieState) (i : Nat) : Live :=
  [(sysIdentGrade, if Config.gradeMq then 2 else 1), (sysMtimeLo, d.mtime % 2 ^ 32), (sysMtimeHi, d.mtime / 2 ^ 32), (sysSem, d.sem i),
   (sysIrqQbLo, bitsWhere 32 fun n => d.qbIrq n i), (sysIrqQbHi, bitsWhere 32 fun n => d.qbIrq (32 + n) i),
   (sysIrqOtherMb, bitsWhere 16 fun m => d.mbIrq m i), (sysIrqOtherPci, d.pciIrq i d.pci.linkIrq),
   (sysIrqOtherVnic, d.pciIrq i d.pci.vnicIrq)]

/-- Triple sampling is in effect (06 R148): a nominal bit of 640 clocks or more, TSEG1 of 3 or more. -/
def DieState.canTriple (d : DieState) (ch : Nat) : Bool :=
  d.bit canCtrlTriple ch && decide (2 ≤ d.rd canNbtTseg1 ch)
    && decide (640 ≤ (d.rd canNbtBrp ch + 1) * (1 + (d.rd canNbtTseg1 ch + 1) + (d.rd canNbtTseg2 ch + 1)))

/-- CAN: the measured loop delay, which is a free value, triple sampling, the transmit queue. -/
def DieState.liveCan (d : DieState) (ch : Nat) : Live :=
  [(canTdcTdcv, d.freshVal.toNat % 128), (canStatTripleAct, (d.canTriple ch).toNat), (canTxqEntries, (d.canCh ch).q.length),
   (canTxqBytes, (d.canCh ch).bytes)]

/-- ETH: the signal quality of a T1 port whose PHY is on, a free value; PAUSE; the latched upper halves of the byte counters. -/
def DieState.liveEth (d : DieState) (p : Nat) : Live :=
  [(ethLinkSqi, if 6 ≤ p ∧ p ≤ 25 ∧ d.hallOn .phy then d.freshVal.toNat % 8 else 0),
   (ethPauseDErr, (decide (d.rd ethPauseBHigh p ≤ d.rd ethPauseBLow p)).toNat),
   (ethPauseDPaused, (decide (d.now < (d.portOf p).pauseEnd)).toNat), (ethCntRxBytesHi, (d.portOf p).rxHi),
   (ethCntTxBytesHi, (d.portOf p).txHi)]

/-- SWC: descriptors, cells, the lookup FIFO, preemption, queue levels. -/
def DieState.liveSwc (d : DieState) (i j : Nat) : Live :=
  [(swcDesc, 65536 - d.sw.descUsed), (swcCells, 98304 - ((List.range 4).map d.poolUsed).foldl (· + ·) 0), (swcShared, d.sharedUsed),
   (swcLkp, d.sw.fifo.length), (swcPoolB, d.poolUsed i), (swcPreStatActive, (d.preemptActive i).toNat), (swcQcDLevel, d.queueCells i j)]

/-- FWT: the learn queue, the requester's edit, the Proofer. -/
def DieState.liveFwt (d : DieState) (copy : Nat) : Live :=
  [(fwtLqLevel, d.tbl.lq.length), (fwtEditStatCount, d.tbl.edits.length), (fwtEditStatResult, d.rd fwtEditStatResult copy),
   (fwtProofStatPaused, d.proofPaused.toNat), (fwtProofStatTable, d.tbl.swTable)]

/-- STATE of a context (03 Table 3.12). -/
def CtxState.num (x : CtxState) : Nat :=
  match x with
  | .free => 0
  | .ready => 1
  | .stalled => 2
  | .waitPost => 3
  | .waitTime _ => 3
  | .ending => 1

/-- FKE: clusters, the contexts of an engine, event queues, events that wait for a held lock. -/
def DieState.liveFke (d : DieState) (ch : Nat) : Live :=
  let c := d.cluster ch
  [(fkeClStatBusy, bitsWhere 4 fun k => !(d.boundCtxs k).isEmpty || !(d.cluster k).evq.isEmpty),
   (fkeClStatAsleep, bitsWhere 4 fun k => !d.hallUp (hallOfCluster k)),
   (fkeCtxStat, ((List.range 4).map fun k => (d.ctx (4 * ch + k)).state.num * 4 ^ k).foldl (· + ·) 0),
   (fkeEvqLevelLevel, c.evq.length), (fkeLockWait, (c.evq.filter fun e => !c.lockFree (d.lockOf ch e)).length)]

/-- GAL: the write pipeline and the binding buffer. -/
def DieState.liveGal (d : DieState) : Live := [(galWpipeLevel, d.gal.pipe.length), (galBindStatCount, d.gal.bind.length)]

/-- TIM: a base as it stands, the requester's latched words, armed cues. -/
def DieState.liveTim (d : DieState) (copy i : Nat) : Live :=
  [(timTbNowLo, (d.baseWords i).1), (timTbNowMid, d.rd timTbNowMid copy i), (timTbNowHiSecHi, d.rd timTbNowHiSecHi copy i),
   (timTbNowHiFrac, d.rd timTbNowHiFrac copy i), (timCueArm, bitsWhere 32 fun b => (Tab.get? d.tim.next (32 * i + b)).isSome)]

/-- The next PN of a transmit SA (11 R305). -/
def DieState.nextPn (d : DieState) (p a : Nat) : Nat :=
  let x := d.slot (d.rd cipTxsaAKs 0 p a)
  if d.bit cipSecyAXpn 0 p then x.c else x.n

/-- CIP: jobs in flight, packet numbers. -/
def DieState.liveCip (d : DieState) (i j : Nat) : Live :=
  [(cipJobsInflight, d.sec.jobs.length), (cipTxsaPnLo, d.nextPn i j % 2 ^ 32), (cipTxsaPnHi, d.nextPn i j / 2 ^ 32),
   (cipRxsaPnLo, d.lowPn i j % 2 ^ 32), (cipRxsaPnHi, d.lowPn i j / 2 ^ 32)]

/-- A word of the random generator: 0 until it is seeded (11 R288). -/
def DieState.rngWord (d : DieState) : Nat := if d.sec.seeded then leNat (d.randomBytes 4).1 else 0

/-- DRK: the generator, fuses, the challenge, key slots. -/
def DieState.liveDrk (d : DieState) (i : Nat) : Live :=
  let x := d.slot i
  let a : KeyCopy := x.active.getD { key := [], attrA := 0, attrB := 0 }
  [(drkRng, d.rngWord), (drkFuseSbEn, (Config.fuseSbEn d.num).toNat), (drkFuseSigpol, (Config.fuseSigpol d.num).toNat),
   (drkFuseDbgLock, (Config.fuseDbgLock d.num).toNat), (drkFuseRevoked, (Config.fuseRevoked d.num).toNat), (drkDbgChal, d.chalWord i),
   (drkSlotAState, if x.shadow.isSome then 2 else x.active.isSome.toNat), (drkSlotAExhausted, x.exhausted.toNat),
   (drkSlotARefs, a.refs), (drkSlotAttrA, a.attrA), (drkSlotAttrB, a.attrB), (drkSlotKcv, x.kcv), (drkSlotN, x.n), (drkSlotE, x.e),
   (drkSlotShadow, match x.shadow with
     | some c => c.refs
     | none => 0)]

/-- MBX: the requester's own end (13 Table 13.6). -/
def DieState.liveMbx (d : DieState) (id m : Nat) : Live :=
  let e := (d.mbEnd m id).getD 0
  let c := endChan m e
  [(mbxRx, ((d.mbWords m (1 - e)).headD 0).toNat), (mbxDbVal, d.rd mbxDbVal c), (mbxStatOut, (d.mbWords m e).length),
   (mbxStatIn, (d.mbWords m (1 - e)).length), (mbxStatDb, d.rd mbxStatDb c), (mbxStatTmo, d.rd mbxStatTmo c),
   (mbxStatOvf, d.rd mbxStatOvf c), (mbxStatUnder, d.rd mbxStatUnder c)]

/-- QBK: what is unread, NOTE, the words a POP or PEEK shows, the requester's push. -/
def DieState.liveQbk (d : DieState) (copy n i : Nat) : Live :=
  [(qbkLevel, d.qbUnread n), (qbkStatNote, (d.qbNote n).toNat), (qbkStatPushResult, d.rd qbkStatPushResult (n + 64 * copy)),
   (qbkPop, if d.qbUnread n = 0 then 0 else (d.qbWord n 0).toNat), (qbkPeek, if i < d.qbUnread n then (d.qbWord n i).toNat else 0)]

/-- Accesses of this die that wait for the other's answer. -/
def DieState.npOut (d : DieState) : Nat :=
  (d.bus.waiting.filter fun p => decide (0x1000000000 ≤ p.addr)).length

/-- STW: the vote stage, the landings, outstanding requests. -/
def DieState.liveStw (d : DieState) (i : Nat) : Live :=
  [(stwVstageLevel, (d.stw.stage.filter fun x => !x.matched).length), (stwVcLevel, (d.stw.landing.toList.getD i []).length),
   (stwVcNp, if i = 1 then d.npOut else 0)]

/-- The live fields of a block. `copy` and `id` name the requester. -/
def DieState.live (d : DieState) (blk copy id ch i j : Nat) : Live :=
  match blk with
  | 0 => d.liveSys i
  | 2 => d.liveCan ch
  | 4 => d.liveEth ch
  | 5 => d.liveSwc i j
  | 6 => d.liveFwt copy
  | 7 => d.liveFke ch
  | 8 => d.liveGal
  | 9 => [(brgPipe, d.rte.fifo.length)]
  | 10 => d.liveTim copy i
  | 11 => d.liveCip i j
  | 12 => d.liveDrk i
  | 13 => d.liveMbx id ch
  | 14 => d.liveQbk copy ch i
  | 15 => d.liveStw i
  | 18 => [(updTrial, d.trialLeft)]
  | 19 => [(prtStatFused, (Config.fusePrtLock d.num).toNat)]
  | _ => []

/-! ### Reads -/

/-- The value a field shows: 0 for WO, the staged value of RWS in the normal view, and 0 for a perturbation field once its fuse is
blown (00 R8, 02 R48, 17 R440). -/
def DieState.fieldShown (d : DieState) (r : Requester) (shadow : Bool) (ch : Nat) (p : Fld × Nat × Nat) : Nat :=
  let f := p.1
  if f.blk = 19 && decide (0x100 ≤ f.off) && Config.fusePrtLock d.num then 0
  else
    match f.acs with
    | .wo => 0
    | .rws => if shadow then d.rd f ch p.2.1 p.2.2 else d.rdStaged f ch p.2.1 p.2.2
    | _ =>
      match (d.live f.blk (reqCopy r) (reqId r) ch p.2.1 p.2.2).find? fun e => decide (e.1 = f) with
      | some e => e.2 % 2 ^ f.width
      | none => d.rd f ch p.2.1 p.2.2

/-- The word of a register as a requester reads it. -/
def DieState.regWord (d : DieState) (r : Requester) (blk ch off : Nat) : Nat :=
  let c := regChan blk ch (reqCopy r) off
  (fieldsAt blk off).foldl (fun a p => a + d.fieldShown r (decide (0x80000 ≤ off)) c p * 2 ^ p.1.lo) 0

/-- The fields of a register that a read clears. -/
def rcFields (blk off : Nat) : List (Fld × Nat × Nat) := (fieldsAt blk off).filter fun p => decide (p.1.acs = .rc)

/-- A read clears the RC fields of its register (00 R8); a read of the low word of a byte counter clears the pair and latches the
high word (07 Table 7.7). -/
def DieState.rcClear (d : DieState) (blk ch off : Nat) : DieState :=
  if blk = 4 ∧ off = 0x404 then
    ((d.onPort ch fun x => { x with rxHi := d.rd ethCntRxBytesHi ch }).wr ethCntRxBytesLo 0 ch).wr ethCntRxBytesHi 0 ch
  else if blk = 4 ∧ off = 0x410 then
    ((d.onPort ch fun x => { x with txHi := d.rd ethCntTxBytesHi ch }).wr ethCntTxBytesLo 0 ch).wr ethCntTxBytesHi 0 ch
  else if blk = 4 ∧ (off = 0x408 ∨ off = 0x414) then d
  else (rcFields blk off).foldl (fun d p => d.wr p.1 0 ch p.2.1 p.2.2) d

/-- What a read in the normal view does beside clearing RC fields: a word of the generator is used up, a free value is drawn, the
endpoint's link interrupt ends. -/
def DieState.readAct (d : DieState) (blk off : Nat) : DieState :=
  if blk = 12 ∧ off = 0x60 then (if d.sec.seeded then (d.randomBytes 4).2 else d)
  else if (blk = 2 ∧ off = 0x110) ∨ (blk = 4 ∧ off = 0x110) then d.drawn
  else if blk = 17 ∧ off = 4 then { d with pci := { d.pci with linkIrq := false } }
  else d

/-- A mailbox answers at 0x110 and above only one of its ends (13 R355). -/
def DieState.mbShut (d : DieState) (r : Requester) (blk ch off : Nat) : Bool :=
  blk = 13 && decide (0x110 ≤ off % 0x80000) && (d.mbEnd ch (reqId r)).isNone

/-- A read of a register that no command of its own describes: its word, and in the normal view its effects. -/
def DieState.regRead (d : DieState) (r : Requester) (blk ch off : Nat) : DieState :=
  if d.regStatus r blk ch off false = .okay ∧ d.mbShut r blk ch off then d.complete r (regAddr blk off) .decodeError
  else
    d.readReg r blk ch off (fun d => d.regWord r blk ch off) fun d =>
      if off < 0x80000 then (d.rcClear blk (regChan blk ch (reqCopy r) off) off).readAct blk off else d

end Sys2Proof.Machine
end

