-- ==== Sys2Proof/Machine/Access.lean ====
section
/-! DEFINITION. Machine/Access.lean: accesses by physical address (02 R36 to R44, R48): the regions of a die, register writes and reads,
the remote window and its bridge (12 R321, R322), inbound PCIe requests (13 R361). -/

namespace Sys2Proof.Machine

/-! ### Select registers (02 R41, R42) -/

/-- A windowed block: its class, the number of its channels, its select fields. -/
def winCls (b : WinBlock) : Nat :=
  match b with
  | .can => 2
  | .lin => 3
  | .eth => 4
  | .fke => 7
  | .mbx => 13
  | .qbk => 14

/-- The channels of a windowed block (Table 2.6). -/
def winCount (b : WinBlock) : Nat :=
  match b with
  | .can => 32
  | .lin => 8
  | .eth => 29
  | .fke => 32
  | .mbx => 16
  | .qbk => 64

/-- INDEX and ERR of a select register. -/
def winFields (b : WinBlock) : Fld × Fld :=
  match b with
  | .can => (canSelIndex, canSelErr)
  | .lin => (linSelIndex, linSelErr)
  | .eth => (ethSelIndex, ethSelErr)
  | .fke => (fkeSelIndex, fkeSelErr)
  | .mbx => (mbxSelIndex, mbxSelErr)
  | .qbk => (qbkSelIndex, qbkSelErr)

/-- The windowed block of a class. -/
def winOf (blk : Nat) : Option WinBlock :=
  match blk with
  | 2 => some .can
  | 3 => some .lin
  | 4 => some .eth
  | 7 => some .fke
  | 13 => some .mbx
  | 14 => some .qbk
  | _ => none

/-- A value is written to a requester's copy of a select register: out of range it sets ERR and changes nothing else. -/
def DieState.select (d : DieState) (b : WinBlock) (copy : Nat) (v : Word) : DieState :=
  let n := v.toNat % 256
  if n < winCount b then (d.wr (winFields b).1 n copy).wr (winFields b).2 0 copy else d.wr (winFields b).2 1 copy

/-- A write of a select register by a requester. -/
def DieState.selectWrite (d : DieState) (r : Requester) (b : WinBlock) (v : Word) : DieState :=
  d.actReg r (winCls b) 0 0 true 0 fun d => d.select b (reqCopy r) v

/-- SEL_WRITE. -/
def execSelWrite (a : Acc) (blk : WinBlock) (v : Word) (s : State) : Host.Outcome State Fault Refusal :=
  s.doOn a.die fun d => d.selectWrite a.req blk v

/-- The channel that a requester's accesses to a block reach. -/
def DieState.selected (d : DieState) (r : Requester) (blk : Nat) : Nat :=
  match winOf blk with
  | some b => d.rd (winFields b).1 (reqCopy r)
  | none => 0

/-! ### Register writes -/

/-- The state after a command that answers next. -/
def after (s : State) (f : State → Host.Outcome State Fault Refusal) : State :=
  match f s with
  | .next t => t
  | _ => s

/-- The part `n` of an index whose register array begins at `base`. -/
def arrayIdx (off base step n : Nat) : Option Nat :=
  if base ≤ off ∧ off < base + step * n ∧ (off - base) % step = 0 then some ((off - base) / step) else none

/-- A number as an index of `n + 1` values. -/
def idx (n k : Nat) : Fin (n + 1) := ⟨k % (n + 1), Nat.mod_lt _ (Nat.succ_pos n)⟩

/-- Registers of SYS and PWR with commands of their own. -/
def State.sysCommand (s : State) (a : Acc) (off : Nat) (v : Word) : Option State :=
  if off = 0x40 then
    if v.msb then some (after s (execCommitGo a v))
    else if v.getLsbD 30 then some (after s (execCommitAbort a v))
    else if v.getLsbD 29 then some (after s (execCommitDiscard a v))
    else none
  else if off = 0x50 then some (after s (execCoreReset a v))
  else if off = 0xFC then some (after s (execSemForce a (idx 63 (v.toNat % 64))))
  else (arrayIdx off 0x100 4 64).map fun n => after s (execSemRelease a (idx 63 n) v)

/-- Registers of PWR. -/
def State.pwrCommand (s : State) (a : Acc) (off : Nat) (v : Word) : Option State :=
  if off = 4 ∧ v.toNat % 4 = 1 then some (after s (execDozeRequest a v))
  else if off = 4 ∧ v.toNat % 4 = 2 then some (after s (execRestRequest a v))
  else if off = 8 then some (after s (execHallCtlWrite a v))
  else if off = 0x10 then some (after s (execHallReset a v))
  else if off = 0x24 then some (after s (execPwrResetWrite a v))
  else none

/-- Registers of the CAN and LIN channels and of the ports. -/
def State.busCommand (s : State) (a : Acc) (blk ch off : Nat) (v : Word) : Option State :=
  if blk = 2 ∧ off = 0x124 then some (after s (execCanRecover a (idx 31 ch) v))
  else if blk = 2 ∧ off = 0x130 then some (after s (execCanSleepReq a (idx 31 ch) v))
  else if blk = 2 then (arrayIdx off 0x1000 0x80 32).map fun k => after s (execCmbTrig a (idx 31 ch) (idx 31 k) v)
  else if blk = 3 ∧ off = 0x104 then some (after s (execLinTrig a (idx 7 ch) v))
  else if blk = 3 ∧ off = 0x108 then
    some (s.on a.die fun d => d.writeReg a.req 3 (ch % 8) 0x108 v fun d => d.linSleepAct (ch % 8) v)
  else if blk = 3 then
    (arrayIdx off 0x408 16 64).map fun i => s.on a.die fun d => d.writeReg a.req 3 (ch % 8) off v fun d => d.linRespAct (ch % 8) i v
  else if blk = 4 ∧ off = 0x3D0 ∧ ch < 26 then some (after s (execTc10SleepRequest a (idx 25 ch) v))
  else none

/-- Registers of the tables, the engines and the Gallery. -/
def State.tableCommand (s : State) (a : Acc) (blk off : Nat) (v : Word) : Option State :=
  if blk = 6 ∧ off = 0x1C then some (after s (execFlushGo a v))
  else if blk = 6 ∧ off = 0x20 then some (after s (execFdbUnlock a v))
  else if blk = 6 ∧ off = 0x200 then
    some (s.on a.die fun d => d.writeReg a.req 6 0 0x200 v fun d => d.editAct (reqCopy a.req) v)
  else if blk = 7 ∧ off = 8 then some (after s (execClusterReset a v))
  else if blk = 8 ∧ off = 0x200 then some (after s (execHostGroupWrite a v))
  else none

/-- Registers of TIM. -/
def State.timCommand (s : State) (a : Acc) (off : Nat) (v : Word) : Option State :=
  if off = 0xC then (if v.msb then some (after s (execCaptureNow a v)) else none)
  else
    match arrayIdx off 0x108 0x40 8, arrayIdx off 0x10C 0x40 8, arrayIdx off 0x118 0x40 8, arrayIdx off 0x614 0x40 4 with
    | some n, _, _, _ => some (after s (execTbAdj a (idx 7 n) v))
    | _, some n, _, _ => some (after s (execTbStep a (idx 7 n) v))
    | _, _, some n, _ =>
      some (s.on a.die fun d => d.writeReg a.req 10 0 off v (fun d => d.setAct n v) (blocked := d.followShut))
    | _, _, _, some u => some (after s (execPtpHoldClear a (idx 3 u) v))
    | _, _, _, _ => none

/-- Registers of CIP and DRK. A write of DBG_REQ that neither submits nor closes asks anew: the challenge read before it answers
nothing (DEDUCED, log 44). -/
def State.keyCommand (s : State) (a : Acc) (blk off : Nat) (v : Word) : Option State :=
  if blk = 11 ∧ off = 0x60 then (if v.msb then some (after s (execHostJobIssue a v)) else none)
  else if blk = 11 then
    (arrayIdx off 0x100C 32 256).bind fun k => if v.getLsbD 0 then some (after s (execFreshnessSet a (BitVec.ofNat 8 k) v)) else none
  else if blk = 12 ∧ off = 4 then
    (if v.msb then some (s.on a.die fun d => d.writeReg a.req 12 0 4 v DieState.drkGo) else none)
  else if blk = 12 ∧ off = 0x80 then
    let s1 := if v.getLsbD 30 then after s (execDbgClose a v) else s
    if v.msb then some (after s1 (execDbgResponse a v))
    else if v.getLsbD 30 then some s1
    else some (s.on a.die fun d => d.writeReg a.req 12 0 0x80 v fun d => { d with sec := { d.sec with chal := none } })
  else if blk = 12 then
    (arrayIdx off 0xC0 4 24).map fun k => s.on a.die fun d => d.writeReg a.req 12 0 off v fun d =>
      { d with sec := { d.sec with resp := Tab.put 0 d.sec.resp k v.toNat } }
  else none

/-- STAT of a mailbox end: the flags written 1 are cleared (13 Table 13.6). -/
def DieState.mbStatWrite (d : DieState) (r : Requester) (m : Nat) (v : Word) : DieState :=
  let c := endChan m ((d.mbEnd m (reqId r)).getD 0)
  d.actReg r 13 m 0x120 true 0 fun d =>
    [mbxStatTmo, mbxStatOvf, mbxStatUnder].foldl (fun d f => d.writeField f c 0 0 v) d

/-- Registers of a mailbox and of the queue blocks. -/
def State.mailCommand (s : State) (a : Acc) (blk ch off : Nat) (v : Word) : Option State :=
  if blk = 13 ∧ off = 0x110 then some (after s (execMbTx a (idx 15 ch) v))
  else if blk = 13 ∧ off = 0x118 then some (after s (execMbDoorbellRing a (idx 15 ch) v))
  else if blk = 13 ∧ off = 0x120 then some (s.on a.die fun d => d.mbStatWrite a.req (ch % 16) v)
  else if blk = 13 ∧ off = 0x124 then some (after s (execMbFlush a (idx 15 ch) v))
  else if blk = 13 then (arrayIdx off 0x10 4 4).map fun cl => after s (execClusterDoorbell a (idx 3 cl) v)
  else if blk = 14 ∧ off = 0x134 then
    let n : Fin 64 := idx 63 ch
    match v.toNat % 8 with
    | 1 => some (after s (execQbAdv a n (BitVec.ofNat 18 (v.toNat / 256))))
    | 2 => some (after s (execQbSetmark a n))
    | 3 => some (after s (execQbRewind a n))
    | 4 => some (after s (execQbRelease a n))
    | 5 => some (after s (execQbReleaseMark a n))
    | 6 => some (after s (execQbFlush a n))
    | _ => none
  else if blk = 14 ∧ off = 0x180 then (if v.msb then some (after s (execQbPush a (idx 63 ch) v)) else none)
  else none

/-- Registers of the Stairwell. -/
def State.stwCommand (s : State) (a : Acc) (off : Nat) (v : Word) : Option State :=
  if off = 8 then (if v.msb then some (after s (execPairPrep a v)) else none)
  else if off = 0x10 then (if v.msb then some (after s (execHandoverGo a v)) else none)
  else if off = 0x14 then
    let s1 := if v.getLsbD 30 then after s (execJoinTimego a v) else s
    if v.msb then some (after s1 (execJoinGo a v)) else if v.getLsbD 30 then some s1 else none
  else if off = 0x24 then (if v.getLsbD 0 then some (after s (execStwRetrain a v)) else none)
  else none

/-- A write of NWL.WK_STAT clears WOKE at the Newel too (14 R389). -/
def DieState.wokeClear (d : DieState) (v : Word) : DieState := (d.nlSend 1 0x2A).nlSend 2 (v.toNat % 65536)

/-- Registers of the Newel link; codes of CTRL that are no command have no effect. -/
def State.nwlCommand (s : State) (a : Acc) (off : Nat) (v : Word) : Option State :=
  if off = 0x54 then some (s.on a.die fun d => d.writeReg a.req 16 0 0x54 v fun d => d.wokeClear v)
  else if off = 0x38 then some (after s (execNwlWdAns a v))
  else if off = 0x74 then
    if v.getLsbD 0 then some (after s (execNwlEeRead a v))
    else if v.getLsbD 1 then some (after s (execNwlEeWrite a v))
    else none
  else if !v.msb then none
  else if off = 0x10 then some (after s (execNwlLoad a v))
  else if off = 0x14 then some (after s (execNwlDuty a v))
  else if off = 0x18 then some (after s (execNwlClear a v))
  else if off = 0x1C ∧ v.toNat % 16 = 1 then some (after s (execNwlWdArm a v))
  else if off = 0x1C ∧ v.toNat % 16 = 2 then some (after s (execNwlSlExit a v))
  else if off = 0x1C ∧ v.toNat % 16 = 9 then some (after s (execNwlPwrRetry a v))
  else if off = 0x24 then some (after s (execNwlOwnerSet a v))
  else none

/-- Registers of UPD; codes of CTL that are no operation have no effect. -/
def State.updCommand (s : State) (a : Acc) (off : Nat) (v : Word) : Option State :=
  if off = 0x10 ∧ v.msb then some (after s (execUpdProg a v))
  else if off = 4 ∧ v.msb then
    match v.toNat % 16 with
    | 1 => some (after s (execUpdOpen a v))
    | 2 => some (after s (execUpdVerify a v))
    | 3 => some (after s (execUpdActivate a v))
    | 4 => some (after s (execUpdConfirm a v))
    | 5 => some (after s (execUpdAbort a v))
    | 6 => some (after s (execUpdFallback a v))
    | 7 => some (after s (execUpdChain a v))
    | 8 => some (after s (execUpdInit a v))
    | _ => none
  else none

/-- Registers of the perturbation block and of the event log. -/
def State.prtCommand (s : State) (a : Acc) (blk off : Nat) (v : Word) : Option State :=
  if blk = 20 then
    if off = 0x14 ∧ v.getLsbD 8 ∧ !(s.get a.die).bit evtLogCfgEn then some (after s (execLogEnable a v)) else none
  else if off = 4 then some (after s (execPrtUnlock a v))
  else if off = 0xC then (if v.msb then some (after s (execPrtRelock a v)) else none)
  else if off = 0x640 then some (after s (execPrtWdN a v))
  else
    match arrayIdx off 0x400 16 32, arrayIdx off 0x40 8 16 with
    | some c, _ => if v.getLsbD 12 then some (after s (execPrtCanArm a (idx 31 c) v)) else none
    | _, some k => some (after s (execQtRelease a (idx 15 k) v))
    | _, _ => none

/-- A register whose write is a command of its own. -/
def State.ownCommand (s : State) (a : Acc) (blk ch off : Nat) (v : Word) : Option State :=
  match blk with
  | 0 => s.sysCommand a off v
  | 1 => s.pwrCommand a off v
  | 2 => s.busCommand a 2 ch off v
  | 3 => s.busCommand a 3 ch off v
  | 4 => s.busCommand a 4 ch off v
  | 6 => s.tableCommand a 6 off v
  | 7 => s.tableCommand a 7 off v
  | 8 => s.tableCommand a 8 off v
  | 10 => s.timCommand a off v
  | 11 => s.keyCommand a 11 off v
  | 12 => s.keyCommand a 12 off v
  | 13 => s.mailCommand a 13 ch off v
  | 14 => s.mailCommand a 14 ch off v
  | 15 => s.stwCommand a off v
  | 16 => s.nwlCommand a off v
  | 17 => if off = 0x220 then some (after s (execVnicTxTail a v)) else if off = 0x228 then some (after s (execVnicRxTail a v)) else none
  | 18 => s.updCommand a off v
  | 19 => s.prtCommand a 19 off v
  | 20 => s.prtCommand a 20 off v
  | _ => none

/-- The select register at offset 0 of a windowed block. -/
def selAt (blk off : Nat) : Option WinBlock := if off = 0 then winOf blk else none

/-- A register write: a select register, a register whose write is a command, or one that acts by its fields alone. -/
def State.regWrite (s : State) (a : Acc) (blk off : Nat) (v : Word) : State :=
  let d := s.get a.die
  let ch := d.selected a.req blk
  match selAt blk off with
  | some b => s.on a.die fun d => d.selectWrite a.req b v
  | none =>
    (s.ownCommand a blk ch off v).getD (s.on a.die fun d =>
      d.writeReg a.req blk ch off v (fun d => d) (blocked := d.mbShut a.req blk ch off))

/-- A register whose read is a command of its own, in the normal view. -/
def State.ownRead (s : State) (a : Acc) (blk ch off : Nat) : Option State :=
  match blk with
  | 0 => (arrayIdx off 0x100 4 64).map fun n => after s (execSemClaim a (idx 63 n))
  | 10 => (arrayIdx off 0x120 0x40 8).map fun n => after s (execTbNowRead a (idx 7 n))
  | 12 => (arrayIdx off 0x90 4 8).map fun k => after s (execDbgChallengeRead a (idx 7 k))
  | 13 =>
    if off = 0x114 then some (after s (execMbRx a (idx 15 ch)))
    else if off = 0x11C then some (after s (execMbDbValRead a (idx 15 ch)))
    else none
  | 14 => if off = 0x130 then some (after s (execQbPop a (idx 63 ch))) else none
  | _ => none

/-- A register read. -/
def State.regReadAt (s : State) (a : Acc) (blk off : Nat) : State :=
  let ch := (s.get a.die).selected a.req blk
  (s.ownRead a blk ch off).getD (s.on a.die fun d => d.regRead a.req blk ch off)

/-! ### The regions of a die (02 Table 2.1) -/

/-- What an address decodes to. -/
inductive Region where
  | rom
  | sram
  | gallery
  | code
  | data
  | regs
  | xip
  | remote
  | none
  deriving DecidableEq, Repr

/-- The region of an address. -/
def regionOf (a : Nat) : Region :=
  if a < 0x10000 then .rom
  else if 0x10000000 ≤ a ∧ a < 0x10400000 then .sram
  else if 0x20000000 ≤ a ∧ a < 0x20100000 then .gallery
  else if 0x30000000 ≤ a ∧ a < 0x30080000 then .code
  else if 0x30100000 ≤ a ∧ a < 0x30180000 then .data
  else if 0x40000000 ≤ a ∧ a < 0x42000000 then .regs
  else if 0x60000000 ≤ a ∧ a < 0x70000000 then .xip
  else if 0x1000000000 ≤ a ∧ a < 0x2000000000 then .remote
  else .none

/-- The sizes and alignments that memory takes and the bridge accepts (12 R321): none of them crosses a 64-byte boundary. -/
def sizeOk (r : BusReq) : Bool :=
  (r.size = 1 || r.size = 2 || r.size = 4 || r.size = 8 || r.size = 16 || r.size = 32 || r.size = 64) && decide (r.addr % r.size = 0)

/-- The bytes of a write, one for each byte of its size. -/
def reqBytes (r : BusReq) : List Byte := (List.range r.size).map (byteAt r.data)

/-- The number that the written bytes form. -/
def reqValue (r : BusReq) : Nat := leNat (reqBytes r)

/-- The block class of a register address (02 Table 2.5). -/
def regBlk (a : Nat) : Nat := (a - 0x40000000) / 0x100000

/-- The offset of a register address in its block. -/
def regOff (a : Nat) : Nat := (a - 0x40000000) % 0x100000

/-- The hall of a register address is off. -/
def DieState.regAsleep (d : DieState) (r : Requester) (a : Nat) : Bool :=
  decide (regBlk a ≤ 20) && !d.hallUp (hallOfReg (regBlk a) (d.selected r (regBlk a)) (regOff a))

/-- The target of an address lies in a hall that is off (01 R18). -/
def DieState.targetAsleep (d : DieState) (r : Requester) (a : Nat) : Bool :=
  match regionOf a with
  | .rom => !d.hallUp .host
  | .sram => !d.hallUp .host
  | .gallery => !d.hallUp .engA
  | .code => !d.hallUp (hallOfCluster ((a - 0x30000000) / 0x20000))
  | .data => !d.hallUp (hallOfCluster ((a - 0x30100000) / 0x20000))
  | .regs => d.regAsleep r a
  | .xip => !d.hallUp .host
  | .remote => false
  | .none => false

/-- A byte of engine code. -/
def DieState.codeByte (d : DieState) (x : Nat) : Byte := byteAt (leBytes 4 (Tab.get 0 d.eng.code (x / 4)).toNat) (x % 4)

/-- Stores bytes in engine code memory. -/
def DieState.codeStore (d : DieState) (x : Nat) (bs : List Byte) : DieState :=
  match bs with
  | [] => d
  | b :: r =>
    let w := (Tab.get 0 d.eng.code (x / 4)).toNat
    let v := BitVec.ofNat 32 (leNat ((List.range 4).map fun i => if i = x % 4 then b else byteAt (leBytes 4 w) i))
    DieState.codeStore { d with eng := { d.eng with code := Tab.put 0 d.eng.code (x / 4) v } } (x + 1) r

/-- The status with which an access to a memory region begins. -/
def DieState.memStatus (d : DieState) (r : Requester) (q : BusReq) : Status :=
  if d.debugShut r then .secureViolation
  else if d.targetAsleep r q.addr then .hallAsleep
  else if !sizeOk q then .sizeError
  else
    match regionOf q.addr with
    | .sram => if d.sramOpen (d.secure r) q.addr then .okay else .secureViolation
    | .code => if (d.cluster ((q.addr - 0x30000000) / 0x20000)).fenced then .clusterFenced else .okay
    | .data => if (d.cluster ((q.addr - 0x30100000) / 0x20000)).fenced then .clusterFenced else .okay
    | .rom => if q.write then .decodeError else .okay
    | .xip => if q.write then .decodeError else .okay
    | _ => .decodeError

/-- The bytes that a read of a memory region returns. -/
def DieState.memRead (d : DieState) (q : BusReq) : List Byte :=
  match regionOf q.addr with
  | .rom => (List.range q.size).map fun i => Config.rom (q.addr + i)
  | .sram => d.host.sram.bytes (q.addr - 0x10000000) q.size
  | .code => (List.range q.size).map fun i => d.codeByte (q.addr - 0x30000000 + i)
  | .data => d.eng.data.bytes (q.addr - 0x30100000) q.size
  | .xip => d.flashRead (q.addr - 0x60000000) q.size
  | _ => []

/-- A write of a memory region; a remote requester's reservation stands against its own write alone (12 R323). -/
def DieState.memWrite (d : DieState) (r : Requester) (q : BusReq) : DieState :=
  match regionOf q.addr with
  | .sram =>
    d.sramStore (q.addr - 0x10000000) (reqBytes q)
      (match r with
        | .remote o _ => some o.val
        | _ => none)
  | .code => d.codeStore (q.addr - 0x30000000) (reqBytes q)
  | .data => { d with eng := { d.eng with data := d.eng.data.setBytes (q.addr - 0x30100000) (reqBytes q) } }
  | _ => d

/-- An access to a memory region. -/
def DieState.memAccess (d : DieState) (r : Requester) (q : BusReq) : DieState :=
  match d.memStatus r q with
  | .okay =>
    if q.write then (d.complete r q.addr .okay).memWrite r q else d.complete r q.addr .okay (leNat (d.memRead q))
  | st => d.complete r q.addr st

/-- The bytes of a slot (05 Table 5.1): VALUE, STAMP, the status word, the active binding. -/
def DieState.slotBytes (d : DieState) (h : Nat) : List Byte :=
  let x := d.galSlot h
  leBytes 4 x.value.toNat ++ leBytes 4 x.stamp.toNat ++ leBytes 2 x.seq ++ leBytes 1 x.status ++ leBytes 1 x.source
    ++ leBytes 4 (x.subh + 65536 * x.prof)

/-- An access to a slot (05 Table 5.3). A posted put answers its writer nothing. -/
def DieState.slotAccess (d : DieState) (r : Requester) (q : BusReq) (posted : Bool) : DieState :=
  let h := (q.addr - 0x20000000) / 16
  let o := q.addr % 16
  if d.debugShut r then d.complete r q.addr .secureViolation
  else
    match d.galShut with
    | some st => d.complete r q.addr st
    | none =>
      if (q.size ≠ 4 ∧ q.size ≠ 8) ∨ q.addr % q.size ≠ 0 then d.complete r q.addr .sizeError
      else if !q.write then d.complete r q.addr .okay (leAt (d.slotBytes h) o q.size)
      else if q.size = 4 ∧ o = 12 then d.bindingWrite r h (reqValue q)
      else if o = 8 then d.complete r q.addr .decodeError
      else if q.size = 4 then d.complete r q.addr .sizeError
      else
        let v := BitVec.ofNat 32 (reqValue q)
        let stamp := BitVec.ofNat 32 ((reqValue q) / 2 ^ 32)
        if posted then (d.complete r q.addr .okay).hostPut r h v stamp true 0 else d.hostPutReq r h v stamp

/-- An access to the register space: an aligned word alone (02 R38). -/
def State.regAccess (s : State) (a : Acc) (q : BusReq) : State :=
  if 20 < regBlk q.addr then s.on a.die fun d => d.complete a.req q.addr .decodeError
  else if q.size ≠ 4 ∨ q.addr % 4 ≠ 0 then s.on a.die fun d => d.complete a.req q.addr .sizeError
  else if q.write then s.regWrite a (regBlk q.addr) (regOff q.addr) (BitVec.ofNat 32 (reqValue q))
  else s.regReadAt a (regBlk q.addr) (regOff q.addr)

/-- An access to an address of the die itself. -/
def State.localAccess (s : State) (a : Acc) (q : BusReq) (posted : Bool := false) : State :=
  match regionOf q.addr with
  | .regs => s.regAccess a q
  | .gallery => s.on a.die fun d => d.slotAccess a.req q posted
  | .remote => s.on a.die fun d => d.complete a.req q.addr .decodeError
  | .none => s.on a.die fun d => d.complete a.req q.addr .decodeError
  | _ => s.on a.die fun d => d.memAccess a.req q

/-! ### The commands of a local requester -/

/-- REGISTER_WRITE: an access to an address of the die itself. The register space is the row's subject; the other regions have no row
of their own, and an access to them is taken here too (log 45). -/
def execRegisterWrite (a : Acc) (req : BusReq) (s : State) : Host.Outcome State Fault Refusal :=
  .next (if regionOf req.addr = .remote then s else s.localAccess a req)

/-- RC_READ: a read of a register of the register space (00 R8). -/
def execRcRead (a : Acc) (addr : Nat) (s : State) : Host.Outcome State Fault Refusal :=
  .next (s.regAccess a { write := false, addr := 0x40000000 + addr % 0x2000000, size := 4, data := [] })

/-- DECODE_ERROR_ACCESS: an address that no region holds. -/
def execDecodeErrorAccess (a : Acc) (req : BusReq) (s : State) : Host.Outcome State Fault Refusal :=
  s.doOn a.die fun d => if regionOf req.addr = .none then d.complete a.req req.addr .decodeError else d

/-- HALL_ASLEEP_ANSWER: the target of the address lies in a hall that is off (01 R18). -/
def execHallAsleepAnswer (a : Acc) (req : BusReq) (s : State) : Host.Outcome State Fault Refusal :=
  s.doOn a.die fun d => if d.targetAsleep a.req req.addr then d.complete a.req req.addr .hallAsleep else d

/-! ### The remote window (02 R37; 12 R318, R321, R322) -/

/-- A request leaves for the other die: a write is posted on VC_0 and completes at once, a read waits for its answer on VC_1. A
requester that finds 64 requests outstanding stalls: nothing is sent (12 R318). -/
def DieState.sendRemote (d : DieState) (r : Requester) (q : BusReq) : DieState :=
  let n := d.bus.nextTag
  let m : VMsg := .req (reqId r) (d.secure r) q.write (q.addr - 0x1000000000) q.size (reqBytes q) q.write n
  if q.write then ({ d with bus := { d.bus with nextTag := n + 1 } }.sendVc 0 m).complete r q.addr .okay
  else if 64 ≤ d.npOut then d
  else ((d.waitAcc r q.addr false).2).sendVc 1 m

/-- An access in the remote window: forwarded once only, in the sizes of the bridge, while the link is up and the bridge's hall on. -/
def DieState.remoteAccess (d : DieState) (r : Requester) (q : BusReq) : DieState :=
  match r with
  | .remote _ _ => d.complete r q.addr .decodeError
  | _ =>
    if d.debugShut r then d.complete r q.addr .secureViolation
    else if !d.linkUp then d.complete r q.addr .linkDown
    else if !sizeOk q then d.complete r q.addr .sizeError
    else d.sendRemote r q

/-- REMOTE_WINDOW_ACCESS. -/
def execRemoteWindowAccess (a : Acc) (req : BusReq) (s : State) : Host.Outcome State Fault Refusal :=
  s.doOn a.die fun d => if regionOf req.addr = .remote then d.remoteAccess a.req req else d

/-- The tag and origin of a request. -/
def reqTag (m : VMsg) : Option (Nat × Nat) :=
  match m with
  | .req o _ _ _ _ _ _ t => some (t, o)
  | _ => none

/-- An earlier request of the same origin than `m` stands in a list. -/
def earlier (ms : List VMsg) (m : VMsg) : Bool :=
  match reqTag m with
  | none => false
  | some (t, o) => ms.any fun x =>
    match reqTag x with
    | some (t', o') => decide (o' = o) && decide (t' < t)
    | none => false

/-- The messages of a virtual channel that are on their way to a die or wait in its landing. -/
def State.onWay (s : State) (d : Die) (v : Fin 4) : List VMsg :=
  let t := (s.get d.other).stw
  (s.get d).stw.landing.get v ++ (t.replay.filter fun e => decide (e.1 = v.val)).map Prod.snd ++ t.out.get v

/-- The virtual channel whose front request the bridge of a die performs next (R319, R322). -/
def State.nextReq (s : State) (d : Die) : Option (Fin 4 × VMsg) :=
  let front (v : Fin 4) (other : List VMsg) : Option (Fin 4 × VMsg) :=
    match (s.get d).stw.landing.get v with
    | m :: _ => if (reqTag m).isSome && !earlier other m then some (v, m) else none
    | [] => none
  match front 0 (s.onWay d 1) with
  | some x => some x
  | none => front 1 (s.onWay d 0)

/-- A request of the other die is performed here under its originating requester; a read's answer leaves over VC_2. -/
def State.remotePerform (s : State) (d : Die) (m : VMsg) : State :=
  match m with
  | .req o sec w addr size data posted tag =>
    let a : Acc := { die := d, req := .remote (idx 31 o) sec }
    let s1 := s.localAccess a { write := w, addr := addr, size := size, data := data } posted
    if posted then s1 else s1.on d fun x => x.sendVc 2 (.resp tag x.bus.resp)
  | _ => s

/-- STW_REMOTE_REQUEST: at an unfenced bridge the next request is taken from its landing and performed. -/
def execStwRemoteRequest (d : Die) (s : State) : Host.Outcome State Fault Refusal :=
  .next (if (s.get d).hallOn .stw ∧ (s.get d).linkUp then
    match s.nextReq d with
    | some (v, m) => (s.on d fun x => x.popLanding v).remotePerform d m
    | none => s
  else s)

/-! ### Inbound PCIe requests (13 R361) -/

/-- The block class that a PCIe address reaches, with the offset in the block. -/
def pcieReg (bar2 : Bool) (o : Nat) : Option (Nat × Nat) :=
  if !bar2 then (if o < 0x1500000 then some (o / 0x100000, o % 0x100000) else none)
  else if o < 0x100000 then some (14, o)
  else if o < 0x200000 then some (13, o - 0x100000)
  else none

/-- A request is answered UR and has no effect. -/
def DieState.pcieUr (d : DieState) : DieState := { d with bus := { d.bus with resp := { status := .decodeError } } }

/-- A block is reachable through BAR0: by its class bit; in a failed boot UPD and PWR alone (15 R406). -/
def DieState.bar0Open (d : DieState) (k : Nat) : Bool :=
  if d.rd pwrBootStage = 7 then k = 1 || k = 18 else (d.rd pciBar0En).testBit k

/-- The MSI-X table and the pending bits in BAR2 (13 R361, R365). An unmasked pending vector is sent. -/
def DieState.msixUnmask (d : DieState) (v : Nat) : DieState :=
  if d.pci.pba.contains v && !d.msixMasked v then
    { d with pci := { d.pci with pba := d.pci.pba.erase v }, host := { d.host with msix := d.host.msix ++ [v] } }
  else d

/-- An access to the MSI-X table or the PBA: one aligned DWORD; the PBA is read-only. -/
def DieState.msixAccess (d : DieState) (q : BusReq) (o : Nat) : DieState :=
  let ok (v : Nat) : DieState := { d with bus := { d.bus with resp := { status := .okay, value := v } } }
  if o < 0x200400 then
    let x := o - 0x200000
    if q.write then
      let d1 := ok 0
      { d1 with pci := { d1.pci with table := d1.pci.table.setBytes x (reqBytes q) } }.msixUnmask (x / 16)
    else ok (d.pci.table.word x).toNat
  else if 0x208000 ≤ o ∧ o < 0x208008 then
    if q.write then ok 0 else ok (bitsWhere 32 fun b => d.pci.pba.contains (8 * (o - 0x208000) + b))
  else d.pcieUr

/-- An inbound request at an offset of a BAR. -/
def State.pcieAccess (s : State) (d : Die) (bar2 : Bool) (q : BusReq) : State :=
  let a : Acc := { die := d, req := .pcie }
  let o := q.addr
  let word := decide (q.size = 4) && decide (o % 4 = 0)
  if bar2 ∧ (s.get d).rd pwrBootStage = 7 then s.on d DieState.pcieUr
  else if bar2 ∧ 0x300000 ≤ o ∧ o < 0x400000 then
    if word ∨ (q.size = 8 ∧ o % 8 = 0) then
      s.on d fun x => x.slotAccess .pcie { q with addr := 0x20000000 + (o - 0x300000) } q.write
    else s.on d DieState.pcieUr
  else if !word then s.on d DieState.pcieUr
  else
    match pcieReg bar2 o with
    | some (k, off) =>
      if !bar2 ∧ !(s.get d).bar0Open k then s.on d DieState.pcieUr
      else s.regAccess a { q with addr := regAddr k off }
    | none => s.on d fun x => if bar2 && decide (0x200000 ≤ o) && decide (o < 0x300000) then x.msixAccess q o else x.pcieUr

/-- PCIE_INBOUND_REQUEST: with the link up; it wakes a die in Doze and is performed after the exit (15 R397). -/
def execPcieInboundRequest (d : Die) (bar2 : Bool) (req : BusReq) (s : State) : Host.Outcome State Fault Refusal :=
  .next (if (s.get d).bit pciLinkUp then
    let s1 := if (s.get d).inDoze then s.on d fun x => x.wakeDie 5 else s
    s1.pcieAccess d bar2 req
  else s)

end Sys2Proof.Machine
end

