-- ==== Sys2Proof/Machine/Dispatch.lean ====
section
/-! DEFINITION. Machine/Dispatch.lean: one arm for each command. -/

namespace Sys2Proof.Machine

def exec (i : Instr) (s : State) : Host.Outcome State Fault Refusal :=
  match i with
  | .registerWrite a req => Sys2Proof.Machine.execRegisterWrite a req s
  | .selWrite a blk v => Sys2Proof.Machine.execSelWrite a blk v s
  | .remoteWindowAccess a req => Sys2Proof.Machine.execRemoteWindowAccess a req s
  | .decodeErrorAccess a req => Sys2Proof.Machine.execDecodeErrorAccess a req s
  | .hallAsleepAnswer a req => Sys2Proof.Machine.execHallAsleepAnswer a req s
  | .busTimeout a => Sys2Proof.Machine.execBusTimeout a s
  | .lateResponse a => Sys2Proof.Machine.execLateResponse a s
  | .semClaim a n => Sys2Proof.Machine.execSemClaim a n s
  | .semRelease a n v => Sys2Proof.Machine.execSemRelease a n v s
  | .semForce a n => Sys2Proof.Machine.execSemForce a n s
  | .commitGo a v => Sys2Proof.Machine.execCommitGo a v s
  | .commitAbort a v => Sys2Proof.Machine.execCommitAbort a v s
  | .commitDiscard a v => Sys2Proof.Machine.execCommitDiscard a v s
  | .commitValidationDone d => Sys2Proof.Machine.execCommitValidationDone d s
  | .commitApply d => Sys2Proof.Machine.execCommitApply d s
  | .commitBoundaryApply d u => Sys2Proof.Machine.execCommitBoundaryApply d u s
  | .commitDrainDone d => Sys2Proof.Machine.execCommitDrainDone d s
  | .commitDrainLimit d => Sys2Proof.Machine.execCommitDrainLimit d s
  | .eventRemoteArrive d => Sys2Proof.Machine.execEventRemoteArrive d s
  | .uncorrectableError d u => Sys2Proof.Machine.execUncorrectableError d u s
  | .eventDispatch d cl => Sys2Proof.Machine.execEventDispatch d cl s
  | .residenceExpiry c => Sys2Proof.Machine.execResidenceExpiry c s
  | .lockRelease c => Sys2Proof.Machine.execLockRelease c s
  | .lookupResult c tag => Sys2Proof.Machine.execLookupResult c tag s
  | .contextWaitEnd c => Sys2Proof.Machine.execContextWaitEnd c s
  | .engineTimerFire d t => Sys2Proof.Machine.execEngineTimerFire d t s
  | .engineCodeWrite a cl index w => Sys2Proof.Machine.execEngineCodeWrite a cl index w s
  | .clusterReset a v => Sys2Proof.Machine.execClusterReset a v s
  | .add c rd ra rb => Sys2Proof.Machine.execAdd c rd ra rb s
  | .sub c rd ra rb => Sys2Proof.Machine.execSub c rd ra rb s
  | .and c rd ra rb => Sys2Proof.Machine.execAnd c rd ra rb s
  | .or c rd ra rb => Sys2Proof.Machine.execOr c rd ra rb s
  | .xor c rd ra rb => Sys2Proof.Machine.execXor c rd ra rb s
  | .shl c rd ra rb => Sys2Proof.Machine.execShl c rd ra rb s
  | .shr c rd ra rb => Sys2Proof.Machine.execShr c rd ra rb s
  | .sar c rd ra rb => Sys2Proof.Machine.execSar c rd ra rb s
  | .rol c rd ra rb => Sys2Proof.Machine.execRol c rd ra rb s
  | .mul c rd ra rb => Sys2Proof.Machine.execMul c rd ra rb s
  | .mulh c rd ra rb => Sys2Proof.Machine.execMulh c rd ra rb s
  | .mulhu c rd ra rb => Sys2Proof.Machine.execMulhu c rd ra rb s
  | .muls c rd ra rb => Sys2Proof.Machine.execMuls c rd ra rb s
  | .adds c rd ra rb => Sys2Proof.Machine.execAdds c rd ra rb s
  | .subs c rd ra rb => Sys2Proof.Machine.execSubs c rd ra rb s
  | .addsu c rd ra rb => Sys2Proof.Machine.execAddsu c rd ra rb s
  | .subsu c rd ra rb => Sys2Proof.Machine.execSubsu c rd ra rb s
  | .min c rd ra rb => Sys2Proof.Machine.execMin c rd ra rb s
  | .max c rd ra rb => Sys2Proof.Machine.execMax c rd ra rb s
  | .minu c rd ra rb => Sys2Proof.Machine.execMinu c rd ra rb s
  | .maxu c rd ra rb => Sys2Proof.Machine.execMaxu c rd ra rb s
  | .slt c rd ra rb => Sys2Proof.Machine.execSlt c rd ra rb s
  | .sltu c rd ra rb => Sys2Proof.Machine.execSltu c rd ra rb s
  | .sat c rd ra k => Sys2Proof.Machine.execSat c rd ra k s
  | .satu c rd ra k => Sys2Proof.Machine.execSatu c rd ra k s
  | .bswap c rd ra => Sys2Proof.Machine.execBswap c rd ra s
  | .addsh c rd ra rb => Sys2Proof.Machine.execAddsh c rd ra rb s
  | .subsh c rd ra rb => Sys2Proof.Machine.execSubsh c rd ra rb s
  | .minh c rd ra rb => Sys2Proof.Machine.execMinh c rd ra rb s
  | .maxh c rd ra rb => Sys2Proof.Machine.execMaxh c rd ra rb s
  | .packh c rd ra rb => Sys2Proof.Machine.execPackh c rd ra rb s
  | .scl c rd ra rb rc k => Sys2Proof.Machine.execScl c rd ra rb rc k s
  | .sclu c rd ra rb rc k => Sys2Proof.Machine.execSclu c rd ra rb rc k s
  | .addi c rd ra imm => Sys2Proof.Machine.execAddi c rd ra imm s
  | .andi c rd ra imm => Sys2Proof.Machine.execAndi c rd ra imm s
  | .ori c rd ra imm => Sys2Proof.Machine.execOri c rd ra imm s
  | .xori c rd ra imm => Sys2Proof.Machine.execXori c rd ra imm s
  | .lui c rd imm => Sys2Proof.Machine.execLui c rd imm s
  | .shli c rd ra n => Sys2Proof.Machine.execShli c rd ra n s
  | .shri c rd ra n => Sys2Proof.Machine.execShri c rd ra n s
  | .sari c rd ra n => Sys2Proof.Machine.execSari c rd ra n s
  | .roli c rd ra n => Sys2Proof.Machine.execRoli c rd ra n s
  | .slti c rd ra imm => Sys2Proof.Machine.execSlti c rd ra imm s
  | .sltiu c rd ra imm => Sys2Proof.Machine.execSltiu c rd ra imm s
  | .ldb c rd ra imm => Sys2Proof.Machine.execLdb c rd ra imm s
  | .ldh c rd ra imm => Sys2Proof.Machine.execLdh c rd ra imm s
  | .ldw c rd ra imm => Sys2Proof.Machine.execLdw c rd ra imm s
  | .ldbs c rd ra imm => Sys2Proof.Machine.execLdbs c rd ra imm s
  | .ldhs c rd ra imm => Sys2Proof.Machine.execLdhs c rd ra imm s
  | .stb c rs ra imm => Sys2Proof.Machine.execStb c rs ra imm s
  | .sth c rs ra imm => Sys2Proof.Machine.execSth c rs ra imm s
  | .stw c rs ra imm => Sys2Proof.Machine.execStw c rs ra imm s
  | .fext c rd src pos w1 o => Sys2Proof.Machine.execFext c rd src pos w1 o s
  | .fexts c rd src pos w1 o => Sys2Proof.Machine.execFexts c rd src pos w1 o s
  | .fins c dst pos w1 rs o => Sys2Proof.Machine.execFins c dst pos w1 rs o s
  | .cset c imm => Sys2Proof.Machine.execCset c imm s
  | .cadd c imm => Sys2Proof.Machine.execCadd c imm s
  | .csetr c ra imm => Sys2Proof.Machine.execCsetr c ra imm s
  | .flen c rd => Sys2Proof.Machine.execFlen c rd s
  | .fnew c rd ra len => Sys2Proof.Machine.execFnew c rd ra len s
  | .fnewz c rd len => Sys2Proof.Machine.execFnewz c rd len s
  | .fswp c rd ra => Sys2Proof.Machine.execFswp c rd ra s
  | .emit c ra => Sys2Proof.Machine.execEmit c ra s
  | .ffree c => Sys2Proof.Machine.execFfree c s
  | .fsetlen c ra => Sys2Proof.Machine.execFsetlen c ra s
  | .crc8 c rd ra src n1 => Sys2Proof.Machine.execCrc8 c rd ra src n1 s
  | .crc16 c rd ra src n1 => Sys2Proof.Machine.execCrc16 c rd ra src n1 s
  | .crc32c c rd ra src n1 => Sys2Proof.Machine.execCrc32c c rd ra src n1 s
  | .gget c rd ra => Sys2Proof.Machine.execGget c rd ra s
  | .ggets c rd ra => Sys2Proof.Machine.execGgets c rd ra s
  | .ggetm c rd ra => Sys2Proof.Machine.execGgetm c rd ra s
  | .ggetp c rd ra => Sys2Proof.Machine.execGgetp c rd ra s
  | .gput c ra rb rc => Sys2Proof.Machine.execGput c ra rb rc s
  | .gputn c ra rb rc k => Sys2Proof.Machine.execGputn c ra rb rc k s
  | .gadd c rd ra rb => Sys2Proof.Machine.execGadd c rd ra rb s
  | .gcas c rd ra rb rc => Sys2Proof.Machine.execGcas c rd ra rb rc s
  | .lkp c ra table tag => Sys2Proof.Machine.execLkp c ra table tag s
  | .lwait c rd tag => Sys2Proof.Machine.execLwait c rd tag s
  | .qput c ra rb k => Sys2Proof.Machine.execQput c ra rb k s
  | .qget c rd ra k => Sys2Proof.Machine.execQget c rd ra k s
  | .mbput c ra rb k db => Sys2Proof.Machine.execMbput c ra rb k db s
  | .mbget c rd ra k => Sys2Proof.Machine.execMbget c rd ra k s
  | .raise c ra code => Sys2Proof.Machine.execRaise c ra code s
  | .cjob c rd ra => Sys2Proof.Machine.execCjob c rd ra s
  | .tarm c ra rd entry => Sys2Proof.Machine.execTarm c ra rd entry s
  | .tdis c ra => Sys2Proof.Machine.execTdis c ra s
  | .tget c rd n => Sys2Proof.Machine.execTget c rd n s
  | .mfs c rd code => Sys2Proof.Machine.execMfs c rd code s
  | .mts c code ra => Sys2Proof.Machine.execMts c code ra s
  | .beq c ra rb off => Sys2Proof.Machine.execBeq c ra rb off s
  | .bne c ra rb off => Sys2Proof.Machine.execBne c ra rb off s
  | .blt c ra rb off => Sys2Proof.Machine.execBlt c ra rb off s
  | .bge c ra rb off => Sys2Proof.Machine.execBge c ra rb off s
  | .bltu c ra rb off => Sys2Proof.Machine.execBltu c ra rb off s
  | .bgeu c ra rb off => Sys2Proof.Machine.execBgeu c ra rb off s
  | .bfs c bit off => Sys2Proof.Machine.execBfs c bit off s
  | .bfc c bit off => Sys2Proof.Machine.execBfc c bit off s
  | .jmp c tgt => Sys2Proof.Machine.execJmp c tgt s
  | .jal c tgt => Sys2Proof.Machine.execJal c tgt s
  | .jr c ra => Sys2Proof.Machine.execJr c ra s
  | .ret c => Sys2Proof.Machine.execRet c s
  | .endInv c => Sys2Proof.Machine.execEndInv c s
  | .rel c => Sys2Proof.Machine.execRel c s
  | .yield c => Sys2Proof.Machine.execYield c s
  | .waitPost c => Sys2Proof.Machine.execWaitPost c s
  | .waitTime c ra => Sys2Proof.Machine.execWaitTime c ra s
  | .trap c code => Sys2Proof.Machine.execTrap c code s
  | .galleryClearDone d => Sys2Proof.Machine.execGalleryClearDone d s
  | .bindingWrite a handle v => Sys2Proof.Machine.execBindingWrite a handle v s
  | .galleryPipelineEntry d => Sys2Proof.Machine.execGalleryPipelineEntry d s
  | .galleryWriteApply d => Sys2Proof.Machine.execGalleryWriteApply d s
  | .hostPut a handle v stamp => Sys2Proof.Machine.execHostPut a handle v stamp s
  | .hostGroupWrite a v => Sys2Proof.Machine.execHostGroupWrite a v s
  | .freshnessMark d handle => Sys2Proof.Machine.execFreshnessMark d handle s
  | .routePipelineEntry d ch f stamp => Sys2Proof.Machine.execRoutePipelineEntry d ch f stamp s
  | .routeFrameProcess d => Sys2Proof.Machine.execRouteFrameProcess d s
  | .tokenAdd d n => Sys2Proof.Machine.execTokenAdd d n s
  | .talkerHoldExpiry d t => Sys2Proof.Machine.execTalkerHoldExpiry d t s
  | .ieee1722Ingress d port f stamp => Sys2Proof.Machine.execIeee1722Ingress d port f stamp s
  | .signalPduImport d pdu => Sys2Proof.Machine.execSignalPduImport d pdu s
  | .canFrameReceive d ch f stamp => Sys2Proof.Machine.execCanFrameReceive d ch f stamp s
  | .canHostRecordTake d ch => Sys2Proof.Machine.execCanHostRecordTake d ch s
  | .canTxAttempt d ch => Sys2Proof.Machine.execCanTxAttempt d ch s
  | .canTxComplete d ch => Sys2Proof.Machine.execCanTxComplete d ch s
  | .canTxError d ch e fld => Sys2Proof.Machine.execCanTxError d ch e fld s
  | .canRetryTimeExpiry d ch => Sys2Proof.Machine.execCanRetryTimeExpiry d ch s
  | .canTxtmoExpiry d ch => Sys2Proof.Machine.execCanTxtmoExpiry d ch s
  | .cmbTrig a ch k v => Sys2Proof.Machine.execCmbTrig a ch k v s
  | .canBoffHoldExpiry d ch => Sys2Proof.Machine.execCanBoffHoldExpiry d ch s
  | .canRecover a ch v => Sys2Proof.Machine.execCanRecover a ch v s
  | .canBusoffRecovered d ch => Sys2Proof.Machine.execCanBusoffRecovered d ch s
  | .canSleepReq a ch v => Sys2Proof.Machine.execCanSleepReq a ch v s
  | .canSleepEnter d ch => Sys2Proof.Machine.execCanSleepEnter d ch s
  | .canWake d ch w => Sys2Proof.Machine.execCanWake d ch w s
  | .canTmSyncQueue d ch => Sys2Proof.Machine.execCanTmSyncQueue d ch s
  | .linTrig a ch v => Sys2Proof.Machine.execLinTrig a ch v s
  | .linHeaderReceive d ch id ok => Sys2Proof.Machine.execLinHeaderReceive d ch id ok s
  | .linResponseReceive d ch data csumOk collision stamp => Sys2Proof.Machine.execLinResponseReceive d ch data csumOk collision stamp s
  | .linResponseTimeout d ch got => Sys2Proof.Machine.execLinResponseTimeout d ch got s
  | .linPub a ch e => Sys2Proof.Machine.execLinPub a ch e s
  | .linRespClr a ch e => Sys2Proof.Machine.execLinRespClr a ch e s
  | .linGts a ch => Sys2Proof.Machine.execLinGts a ch s
  | .linWakeup a ch => Sys2Proof.Machine.execLinWakeup a ch s
  | .linWake d ch => Sys2Proof.Machine.execLinWake d ch s
  | .linWakeReady d ch => Sys2Proof.Machine.execLinWakeReady d ch s
  | .linIdleSleep d ch => Sys2Proof.Machine.execLinIdleSleep d ch s
  | .ethFrameReceive d p f stamp => Sys2Proof.Machine.execEthFrameReceive d p f stamp s
  | .pauseExpiry d p => Sys2Proof.Machine.execPauseExpiry d p s
  | .pauseWindowEnd d p => Sys2Proof.Machine.execPauseWindowEnd d p s
  | .pauseRefresh d p => Sys2Proof.Machine.execPauseRefresh d p s
  | .ethLinkUp d p rate => Sys2Proof.Machine.execEthLinkUp d p rate s
  | .ethLinkDown d p => Sys2Proof.Machine.execEthLinkDown d p s
  | .lpiEnter d p => Sys2Proof.Machine.execLpiEnter d p s
  | .stepWindowEnd d p => Sys2Proof.Machine.execStepWindowEnd d p s
  | .stepUpTrigger d p => Sys2Proof.Machine.execStepUpTrigger d p s
  | .stepReqReceive d p f => Sys2Proof.Machine.execStepReqReceive d p f s
  | .stepAckReceive d p f => Sys2Proof.Machine.execStepAckReceive d p f s
  | .stepNakReceive d p f => Sys2Proof.Machine.execStepNakReceive d p f s
  | .stepSwitch d p => Sys2Proof.Machine.execStepSwitch d p s
  | .stepLock d p => Sys2Proof.Machine.execStepLock d p s
  | .stepReqTimeout d p => Sys2Proof.Machine.execStepReqTimeout d p s
  | .stepLockTimeout d p => Sys2Proof.Machine.execStepLockTimeout d p s
  | .stepHoldoffEnd d p => Sys2Proof.Machine.execStepHoldoffEnd d p s
  | .plcaConflictDetect d p => Sys2Proof.Machine.execPlcaConflictDetect d p s
  | .plcaYieldEnd d p => Sys2Proof.Machine.execPlcaYieldEnd d p s
  | .plcaStatusChange d p active => Sys2Proof.Machine.execPlcaStatusChange d p active s
  | .tc10SleepRequest a p v => Sys2Proof.Machine.execTc10SleepRequest a p v s
  | .tc10PartnerSleep d p => Sys2Proof.Machine.execTc10PartnerSleep d p s
  | .tc10SleepAck d p => Sys2Proof.Machine.execTc10SleepAck d p s
  | .tc10Wake d p => Sys2Proof.Machine.execTc10Wake d p s
  | .tc10Wup a p v => Sys2Proof.Machine.execTc10Wup a p v s
  | .txSelection d p => Sys2Proof.Machine.execTxSelection d p s
  | .ethTxEnd d p => Sys2Proof.Machine.execEthTxEnd d p s
  | .lookupPipelineEntry d p => Sys2Proof.Machine.execLookupPipelineEntry d p s
  | .forwardingLookup d => Sys2Proof.Machine.execForwardingLookup d s
  | .p27Handover d => Sys2Proof.Machine.execP27Handover d s
  | .gateChange d p => Sys2Proof.Machine.execGateChange d p s
  | .holdRequest d p => Sys2Proof.Machine.execHoldRequest d p s
  | .preemptVerifyTimeout d p => Sys2Proof.Machine.execPreemptVerifyTimeout d p s
  | .sfUnblock a w v => Sys2Proof.Machine.execSfUnblock a w v s
  | .meterUnlatch a m v => Sys2Proof.Machine.execMeterUnlatch a m v s
  | .frerReset d n => Sys2Proof.Machine.execFrerReset d n s
  | .learnItemServe d => Sys2Proof.Machine.execLearnItemServe d s
  | .flushGo a v => Sys2Proof.Machine.execFlushGo a v s
  | .fdbUnlock a v => Sys2Proof.Machine.execFdbUnlock a v s
  | .agingTick d => Sys2Proof.Machine.execAgingTick d s
  | .editWrite a v => Sys2Proof.Machine.execEditWrite a v s
  | .editClear a v => Sys2Proof.Machine.execEditClear a v s
  | .editFdbAdd a v => Sys2Proof.Machine.execEditFdbAdd a v s
  | .editFdbDel a v => Sys2Proof.Machine.execEditFdbDel a v s
  | .proofSweepStart d => Sys2Proof.Machine.execProofSweepStart d s
  | .proofEntryCheck d => Sys2Proof.Machine.execProofEntryCheck d s
  | .proofSweepEnd d => Sys2Proof.Machine.execProofSweepEnd d s
  | .proofRepair d => Sys2Proof.Machine.execProofRepair d s
  | .tbAdj a n v => Sys2Proof.Machine.execTbAdj a n v s
  | .tbStep a n v => Sys2Proof.Machine.execTbStep a n v s
  | .tbSet a n v => Sys2Proof.Machine.execTbSet a n v s
  | .tbNowRead a n => Sys2Proof.Machine.execTbNowRead a n s
  | .phaseQuadEdge d k levelA levelB age => Sys2Proof.Machine.execPhaseQuadEdge d k levelA levelB age s
  | .phaseIndexEdge d k => Sys2Proof.Machine.execPhaseIndexEdge d k s
  | .phaseHallChange d k u v w age => Sys2Proof.Machine.execPhaseHallChange d k u v w age s
  | .phasePulseEdge d k age => Sys2Proof.Machine.execPhasePulseEdge d k age s
  | .phaseLossTimeout d k => Sys2Proof.Machine.execPhaseLossTimeout d k s
  | .cueFire d n => Sys2Proof.Machine.execCueFire d n s
  | .tpPulseEnd d k => Sys2Proof.Machine.execTpPulseEnd d k s
  | .captureNow a v => Sys2Proof.Machine.execCaptureNow a v s
  | .ppsInEdge d => Sys2Proof.Machine.execPpsInEdge d s
  | .ppsOutRise d => Sys2Proof.Machine.execPpsOutRise d s
  | .ppsOutFall d => Sys2Proof.Machine.execPpsOutFall d s
  | .ptpSyncReceive d p bytes stamp => Sys2Proof.Machine.execPtpSyncReceive d p bytes stamp s
  | .ptpFollowupReceive d p bytes stamp => Sys2Proof.Machine.execPtpFollowupReceive d p bytes stamp s
  | .ptpGmSync d u => Sys2Proof.Machine.execPtpGmSync d u s
  | .ptpGmFollowup d u => Sys2Proof.Machine.execPtpGmFollowup d u s
  | .ptpHoldClear a u v => Sys2Proof.Machine.execPtpHoldClear a u v s
  | .tbFollowState => Sys2Proof.Machine.execTbFollowState s
  | .tbFollowLost => Sys2Proof.Machine.execTbFollowLost s
  | .drkLoad a v => Sys2Proof.Machine.execDrkLoad a v s
  | .drkGenerate a v => Sys2Proof.Machine.execDrkGenerate a v s
  | .drkImport a v => Sys2Proof.Machine.execDrkImport a v s
  | .drkErase a v => Sys2Proof.Machine.execDrkErase a v s
  | .drkZeroize a v => Sys2Proof.Machine.execDrkZeroize a v s
  | .drkZeroizeAll a v => Sys2Proof.Machine.execDrkZeroizeAll a v s
  | .drkSigverify a v => Sys2Proof.Machine.execDrkSigverify a v s
  | .drkCommandDone d => Sys2Proof.Machine.execDrkCommandDone d s
  | .epochWriteDone d k => Sys2Proof.Machine.execEpochWriteDone d k s
  | .epochWriteRetry d k => Sys2Proof.Machine.execEpochWriteRetry d k s
  | .hostJobIssue a v => Sys2Proof.Machine.execHostJobIssue a v s
  | .cipJobStart d => Sys2Proof.Machine.execCipJobStart d s
  | .cipJobComplete d job => Sys2Proof.Machine.execCipJobComplete d job s
  | .cipParityError d u => Sys2Proof.Machine.execCipParityError d u s
  | .laneSelftestDone d l pass => Sys2Proof.Machine.execLaneSelftestDone d l pass s
  | .freshnessSet a k v => Sys2Proof.Machine.execFreshnessSet a k v s
  | .dbgChallengeRead a k => Sys2Proof.Machine.execDbgChallengeRead a k s
  | .dbgResponse a v => Sys2Proof.Machine.execDbgResponse a v s
  | .dbgClose a v => Sys2Proof.Machine.execDbgClose a v s
  | .dbgResponseTimeout d => Sys2Proof.Machine.execDbgResponseTimeout d s
  | .stwFlitReceive d f => Sys2Proof.Machine.execStwFlitReceive d f s
  | .stwFlitReplay d seq => Sys2Proof.Machine.execStwFlitReplay d seq s
  | .stwRetryTimeout d => Sys2Proof.Machine.execStwRetryTimeout d s
  | .stwRetrainTimer d => Sys2Proof.Machine.execStwRetrainTimer d s
  | .stwRetrain a v => Sys2Proof.Machine.execStwRetrain a v s
  | .stwLinkUp lanes => Sys2Proof.Machine.execStwLinkUp lanes s
  | .stwRemoteRequest d => Sys2Proof.Machine.execStwRemoteRequest d s
  | .stwResponseReceive d => Sys2Proof.Machine.execStwResponseReceive d s
  | .stwAmo a op addr size v => Sys2Proof.Machine.execStwAmo a op addr size v s
  | .stwLr a addr size => Sys2Proof.Machine.execStwLr a addr size s
  | .stwSc a addr size v => Sys2Proof.Machine.execStwSc a addr size v s
  | .stwReservationExpiry d origin => Sys2Proof.Machine.execStwReservationExpiry d origin s
  | .stwHeartbeatSend d => Sys2Proof.Machine.execStwHeartbeatSend d s
  | .stwHeartbeatReceive d => Sys2Proof.Machine.execStwHeartbeatReceive d s
  | .stwHeartbeatMiss d => Sys2Proof.Machine.execStwHeartbeatMiss d s
  | .pairPrep a v => Sys2Proof.Machine.execPairPrep a v s
  | .newelPairDisarm => Sys2Proof.Machine.execNewelPairDisarm s
  | .mirrorReplicaReceive d => Sys2Proof.Machine.execMirrorReplicaReceive d s
  | .replDrop d => Sys2Proof.Machine.execReplDrop d s
  | .mirrorNoticeReceive d => Sys2Proof.Machine.execMirrorNoticeReceive d s
  | .failoverConfirm d => Sys2Proof.Machine.execFailoverConfirm d s
  | .handoverGo a v => Sys2Proof.Machine.execHandoverGo a v s
  | .handoverChannelMove u => Sys2Proof.Machine.execHandoverChannelMove u s
  | .joinTimego a v => Sys2Proof.Machine.execJoinTimego a v s
  | .joinGo a v => Sys2Proof.Machine.execJoinGo a v s
  | .joinCopyDone d => Sys2Proof.Machine.execJoinCopyDone d s
  | .voteDigestReceive d => Sys2Proof.Machine.execVoteDigestReceive d s
  | .voteWindowExpiry d tag egress => Sys2Proof.Machine.execVoteWindowExpiry d tag egress s
  | .voteAlign d tag egress => Sys2Proof.Machine.execVoteAlign d tag egress s
  | .newelTxdMismatch lin xcvr => Sys2Proof.Machine.execNewelTxdMismatch lin xcvr s
  | .coreReset a v => Sys2Proof.Machine.execCoreReset a v s
  | .coreRun a v => Sys2Proof.Machine.execCoreRun a v s
  | .mtimeMatch d c => Sys2Proof.Machine.execMtimeMatch d c s
  | .msipWrite a v => Sys2Proof.Machine.execMsipWrite a v s
  | .hostFence d addr => Sys2Proof.Machine.execHostFence d addr s
  | .qbPop a n => Sys2Proof.Machine.execQbPop a n s
  | .qbAdv a n count => Sys2Proof.Machine.execQbAdv a n count s
  | .qbSetmark a n => Sys2Proof.Machine.execQbSetmark a n s
  | .qbRewind a n => Sys2Proof.Machine.execQbRewind a n s
  | .qbRelease a n => Sys2Proof.Machine.execQbRelease a n s
  | .qbReleaseMark a n => Sys2Proof.Machine.execQbReleaseMark a n s
  | .qbFlush a n => Sys2Proof.Machine.execQbFlush a n s
  | .qbPush a n v => Sys2Proof.Machine.execQbPush a n v s
  | .qbStaleExpiry d n => Sys2Proof.Machine.execQbStaleExpiry d n s
  | .mbTx a m v => Sys2Proof.Machine.execMbTx a m v s
  | .mbRx a m => Sys2Proof.Machine.execMbRx a m s
  | .mbDoorbellRing a m v => Sys2Proof.Machine.execMbDoorbellRing a m v s
  | .mbDbValRead a m => Sys2Proof.Machine.execMbDbValRead a m s
  | .mbDrainTimeout d m ba => Sys2Proof.Machine.execMbDrainTimeout d m ba s
  | .mbFlush a m v => Sys2Proof.Machine.execMbFlush a m v s
  | .clusterDoorbell a cl v => Sys2Proof.Machine.execClusterDoorbell a cl v s
  | .pcieInboundRequest d bar2 req => Sys2Proof.Machine.execPcieInboundRequest d bar2 req s
  | .pcieHotReset d => Sys2Proof.Machine.execPcieHotReset d s
  | .pcieLinkUp d speed width => Sys2Proof.Machine.execPcieLinkUp d speed width s
  | .pcieLinkDown d => Sys2Proof.Machine.execPcieLinkDown d s
  | .dmaDescriptorStart d c => Sys2Proof.Machine.execDmaDescriptorStart d c s
  | .dmaComplete d c status moved data => Sys2Proof.Machine.execDmaComplete d c status moved data s
  | .dmaReadTimeout d c => Sys2Proof.Machine.execDmaReadTimeout d c s
  | .vnicTxTail a v => Sys2Proof.Machine.execVnicTxTail a v s
  | .vnicTxFrame d desc bytes => Sys2Proof.Machine.execVnicTxFrame d desc bytes s
  | .vnicRxTail a v => Sys2Proof.Machine.execVnicRxTail a v s
  | .vnicRxWrite d buf => Sys2Proof.Machine.execVnicRxWrite d buf s
  | .vnicRxNotifyTimer d => Sys2Proof.Machine.execVnicRxNotifyTimer d s
  | .nwlLoad a v => Sys2Proof.Machine.execNwlLoad a v s
  | .nwlDuty a v => Sys2Proof.Machine.execNwlDuty a v s
  | .nwlClear a v => Sys2Proof.Machine.execNwlClear a v s
  | .nwlWdArm a v => Sys2Proof.Machine.execNwlWdArm a v s
  | .nwlSlExit a v => Sys2Proof.Machine.execNwlSlExit a v s
  | .nwlPwrRetry a v => Sys2Proof.Machine.execNwlPwrRetry a v s
  | .nwlOwnerSet a v => Sys2Proof.Machine.execNwlOwnerSet a v s
  | .nwlWdAns a v => Sys2Proof.Machine.execNwlWdAns a v s
  | .nwlEeRead a v => Sys2Proof.Machine.execNwlEeRead a v s
  | .nwlEeWrite a v => Sys2Proof.Machine.execNwlEeWrite a v s
  | .nlNop d => Sys2Proof.Machine.execNlNop d s
  | .nlAddr d seq addr => Sys2Proof.Machine.execNlAddr d seq addr s
  | .nlData d seq w => Sys2Proof.Machine.execNlData d seq w s
  | .nlRead d seq addr => Sys2Proof.Machine.execNlRead d seq addr s
  | .nlLoad d seq ch on => Sys2Proof.Machine.execNlLoad d seq ch on s
  | .nlDuty d seq ch duty => Sys2Proof.Machine.execNlDuty d seq ch duty s
  | .nlClear d seq ch therm oc wire => Sys2Proof.Machine.execNlClear d seq ch therm oc wire s
  | .nlWdAns d seq ans => Sys2Proof.Machine.execNlWdAns d seq ans s
  | .nlApply d seq => Sys2Proof.Machine.execNlApply d seq s
  | .nlWdArm d seq => Sys2Proof.Machine.execNlWdArm d seq s
  | .nlSlExit d seq => Sys2Proof.Machine.execNlSlExit d seq s
  | .nlOwnerSet d seq map => Sys2Proof.Machine.execNlOwnerSet d seq map s
  | .nlPairPrep d seq mode => Sys2Proof.Machine.execNlPairPrep d seq mode s
  | .nlSwitch d seq mode => Sys2Proof.Machine.execNlSwitch d seq mode s
  | .nlResync d => Sys2Proof.Machine.execNlResync d s
  | .nlEeRead d seq page => Sys2Proof.Machine.execNlEeRead d seq page s
  | .nlEeWrite d seq page data => Sys2Proof.Machine.execNlEeWrite d seq page data s
  | .nlPwrRetry d seq => Sys2Proof.Machine.execNlPwrRetry d seq s
  | .nlAck d seq => Sys2Proof.Machine.execNlAck d seq s
  | .nlRdata d seq w => Sys2Proof.Machine.execNlRdata d seq w s
  | .nlNak d seq reason => Sys2Proof.Machine.execNlNak d seq reason s
  | .nlEvent d arg => Sys2Proof.Machine.execNlEvent d arg s
  | .nlResendTimeout d => Sys2Proof.Machine.execNlResendTimeout d s
  | .nlDieSlotsInvalid d => Sys2Proof.Machine.execNlDieSlotsInvalid d s
  | .nlResyncTimer d => Sys2Proof.Machine.execNlResyncTimer d s
  | .nlMirrorRefresh d => Sys2Proof.Machine.execNlMirrorRefresh d s
  | .newelLinkSilent d => Sys2Proof.Machine.execNewelLinkSilent d s
  | .newelLinkLost d => Sys2Proof.Machine.execNewelLinkLost d s
  | .loadOcTrip n => Sys2Proof.Machine.execLoadOcTrip n s
  | .loadThermTrip n => Sys2Proof.Machine.execLoadThermTrip n s
  | .loadThermCool n => Sys2Proof.Machine.execLoadThermCool n s
  | .wireModelTick n => Sys2Proof.Machine.execWireModelTick n s
  | .loadDiagDetect n kind present => Sys2Proof.Machine.execLoadDiagDetect n kind present s
  | .loadRestart n => Sys2Proof.Machine.execLoadRestart n s
  | .loadWarmEnd n => Sys2Proof.Machine.execLoadWarmEnd n s
  | .pwmPeriodStart k => Sys2Proof.Machine.execPwmPeriodStart k s
  | .senseSample n sample => Sys2Proof.Machine.execSenseSample n sample s
  | .loadDisagree n => Sys2Proof.Machine.execLoadDisagree n s
  | .vbatLow v => Sys2Proof.Machine.execVbatLow v s
  | .vbatRecover v => Sys2Proof.Machine.execVbatRecover v s
  | .wdAutoArm => Sys2Proof.Machine.execWdAutoArm s
  | .wdPeriodMiss d => Sys2Proof.Machine.execWdPeriodMiss d s
  | .safelightPinChange high => Sys2Proof.Machine.execSafelightPinChange high s
  | .lhPinEdge k high => Sys2Proof.Machine.execLhPinEdge k high s
  | .xcvrTxdTimeout lin x => Sys2Proof.Machine.execXcvrTxdTimeout lin x s
  | .xcvrThermalShutdown lin x => Sys2Proof.Machine.execXcvrThermalShutdown lin x s
  | .wakePinEdge k rising => Sys2Proof.Machine.execWakePinEdge k rising s
  | .eePageDone ok => Sys2Proof.Machine.execEePageDone ok s
  | .hallCtlWrite a v => Sys2Proof.Machine.execHallCtlWrite a v s
  | .hallPowerReady d h => Sys2Proof.Machine.execHallPowerReady d h s
  | .hallReset a v => Sys2Proof.Machine.execHallReset a v s
  | .dozeRequest a v => Sys2Proof.Machine.execDozeRequest a v s
  | .dozeEnter d => Sys2Proof.Machine.execDozeEnter d s
  | .dozeWake d src => Sys2Proof.Machine.execDozeWake d src s
  | .restRequest a v => Sys2Proof.Machine.execRestRequest a v s
  | .restPendingTimeout d => Sys2Proof.Machine.execRestPendingTimeout d s
  | .restEnter d => Sys2Proof.Machine.execRestEnter d s
  | .restWake d src => Sys2Proof.Machine.execRestWake d src s
  | .moduleOff => Sys2Proof.Machine.execModuleOff s
  | .modulePowerOn v => Sys2Proof.Machine.execModulePowerOn v s
  | .powerGoodRise d g => Sys2Proof.Machine.execPowerGoodRise d g s
  | .powerGoodFault d g => Sys2Proof.Machine.execPowerGoodFault d g s
  | .pgRetry d => Sys2Proof.Machine.execPgRetry d s
  | .newelReset => Sys2Proof.Machine.execNewelReset s
  | .rstinAssert d => Sys2Proof.Machine.execRstinAssert d s
  | .pwrResetWrite a v => Sys2Proof.Machine.execPwrResetWrite a v s
  | .bootStart d => Sys2Proof.Machine.execBootStart d s
  | .bootHeaderDone d => Sys2Proof.Machine.execBootHeaderDone d s
  | .bootVerifyDone d => Sys2Proof.Machine.execBootVerifyDone d s
  | .bootCopyDone d => Sys2Proof.Machine.execBootCopyDone d s
  | .updOpen a v => Sys2Proof.Machine.execUpdOpen a v s
  | .updProg a v => Sys2Proof.Machine.execUpdProg a v s
  | .updProgDone d readBackOk => Sys2Proof.Machine.execUpdProgDone d readBackOk s
  | .updVerify a v => Sys2Proof.Machine.execUpdVerify a v s
  | .updVerifyDone d => Sys2Proof.Machine.execUpdVerifyDone d s
  | .updActivate a v => Sys2Proof.Machine.execUpdActivate a v s
  | .updConfirm a v => Sys2Proof.Machine.execUpdConfirm a v s
  | .updAbort a v => Sys2Proof.Machine.execUpdAbort a v s
  | .updFallback a v => Sys2Proof.Machine.execUpdFallback a v s
  | .updChain a v => Sys2Proof.Machine.execUpdChain a v s
  | .updInit a v => Sys2Proof.Machine.execUpdInit a v s
  | .updTrialExpiry d => Sys2Proof.Machine.execUpdTrialExpiry d s
  | .quarantineWindowEnd d k => Sys2Proof.Machine.execQuarantineWindowEnd d k s
  | .quarantineHoldEnd d k => Sys2Proof.Machine.execQuarantineHoldEnd d k s
  | .qtRelease a k v => Sys2Proof.Machine.execQtRelease a k v s
  | .logEnable a v => Sys2Proof.Machine.execLogEnable a v s
  | .prtUnlock a v => Sys2Proof.Machine.execPrtUnlock a v s
  | .prtRelock a v => Sys2Proof.Machine.execPrtRelock a v s
  | .prtCanArm a c v => Sys2Proof.Machine.execPrtCanArm a c v s
  | .prtWdN a v => Sys2Proof.Machine.execPrtWdN a v s
  | .prtBpPhase d p on => Sys2Proof.Machine.execPrtBpPhase d p on s
  | .rcRead a addr => Sys2Proof.Machine.execRcRead a addr s
  | .undefinedEncoding c => Sys2Proof.Machine.execUndefinedEncoding c s
  | .canRxError d ch e => Sys2Proof.Machine.execCanRxError d ch e s
  | .linResponseSent d ch => Sys2Proof.Machine.execLinResponseSent d ch s
  | .preemptVerifyResponse d p => Sys2Proof.Machine.execPreemptVerifyResponse d p s
  | .pairPrepTimeout => Sys2Proof.Machine.execPairPrepTimeout s
  | .ownerSetTimeout => Sys2Proof.Machine.execOwnerSetTimeout s
  | .reverseBattery negative => Sys2Proof.Machine.execReverseBattery negative s
  | .updOperationDone d => Sys2Proof.Machine.execUpdOperationDone d s
  | .rngSeeded d => Sys2Proof.Machine.execRngSeeded d s
  | .macsecSelftestDone d p => Sys2Proof.Machine.execMacsecSelftestDone d p s

end Sys2Proof.Machine
end

