-- ==== Sys2Proof/Safety.lean ====
section
/-! DEFINITION. Safety.lean: the notions in which statements about the package are made: a Forrek instruction that may issue, the
sound states of the Newel, a run of accesses to one direction of a mailbox. -/

namespace Sys2Proof.Machine

/-- The instruction `i` is what its context issues next and runs: the context is bound and ready in a cluster that works, its pc lies
below the code top and holds the word of `i`, the exposure limit leaves room for it, and `i` is no undefined encoding (03 R74, R75; 04 R85,
R106). -/
def DieState.issuable (d : DieState) (c : Ctx) (i : Instr) : Bool :=
  let n := ctxNum c
  d.mayIssue n && !d.aboveTop n && decide (forrekWord i = some (d.fetchCode n)) && !d.overLimit n && i.wf

/-- Where it may run, the instruction counts as issued and then leaves the die as `g` makes it of the die and the context. -/
def IssuesTo (c : Ctx) (i : Instr) (g : DieState → Context → DieState) : Prop :=
  ∀ s : State, (s.get c.die).issuable c i = true →
    exec i s = .next (s.set c.die
      (g ((s.get c.die).countIssue (ctxNum c)) (((s.get c.die).countIssue (ctxNum c)).ctx (ctxNum c))))

/-- Where it may run, the instruction changes, beside counting as issued, only its own context: to `f` of it, at the next pc. -/
def ComputesTo (c : Ctx) (i : Instr) (f : Context → Context) : Prop :=
  IssuesTo c i fun d x => d.setCtx (ctxNum c) { f x with pc := (f x).pc + 1 }

/-- A sound Newel: its EEPROM and its table of load channels are in their canonical form, the pairing mode is one of the three, and a
channel whose THERM or WIRE latch is set is off, unless VBAT is negative and every channel is closed (14 R378 to R381; 18 R444). -/
def NewelState.sound (w : NewelState) : Prop :=
  Memory.wf w.ee = true ∧ w.mode ≤ 2 ∧ Tab.wf {} w.ch = true ∧
    (w.rev = false → ∀ n, ((w.chan n).therm || (w.chan n).wire) = true → (w.chan n).on = false)

/-- Accesses to one direction of a mailbox, `e` the end that writes it: a word sent (`some`) or one taken. The die after them, the words
that entered and the words that were read, both in their order (13 R356). -/
def DieState.mbRun (d : DieState) (m e : Nat) (cs : List (Option Word)) : DieState × List Word × List Word :=
  match cs with
  | [] => (d, [], [])
  | some v :: r =>
    let p := d.mbSend m e [v]
    let q := p.2.mbRun m e r
    (q.1, if p.1 then v :: q.2.1 else q.2.1, q.2.2)
  | none :: r =>
    match d.mbTake m (1 - e) 1 with
    | some p => let q := p.2.mbRun m e r; (q.1, q.2.1, p.1 ++ q.2.2)
    | none => d.mbRun m e r

end Sys2Proof.Machine
end

