-- ==== Sys2Proof/Certificates/Slice0/Obligations.lean ====
section
/-! DEFINITION. Obligations.lean: the statements for the provers. First the statements about the whole package, then for each family of
commands what state each of its commands answers. -/

open Sys2Proof Sys2Proof.Machine

/-- A step takes the command at the front of the queue and runs it with the queue's rest; on an empty queue a nanosecond passes (the
model's choice, log 1). -/
def Obligations.StepTakesTheFrontCommand : Prop :=
  (∀ (c : Instr) (rest : List Instr) (s : State), step { s with pending := c :: rest } = exec c { s with pending := rest }) ∧
  (∀ (s : State), s.pending = [] → step s = .next s.tick)

/-- Every command completes in every state, whatever its operands: no fault and no refusal ends it. No command touches the queue of
those that wait. -/
def Obligations.EveryCommandKeepsTheQueue : Prop :=
  ∀ (c : Instr) (s : State), ∃ t, exec c s = .next t ∧ t.pending = s.pending

/-- Decoding undoes encoding, for every well-formed Forrek instruction with every operand (04 R85 to R108): the word of an instruction
fits in 32 bits and names that instruction and no other. `gputn` of one slot has the word of `gput` (04 R97, Table 4.12). -/
def Obligations.ForrekDecodeOfEncode : Prop :=
  (∀ (i : Instr) (w : Nat), forrekWord i = some w → i.wf = true → (∀ c ra rb rc, i ≠ .gputn c ra rb rc 0) →
    w < 2 ^ 32 ∧ ∃ c, forrekDecode c w = some i) ∧
  (∀ (c : Ctx) (ra rb rc : GReg), ∃ w, forrekWord (.gputn c ra rb rc 0) = some w ∧ forrekDecode c w = some (.gput c ra rb rc))

/-- Forrek words written out bit by bit from Tables 4.3 to 4.18 decode to what they stand for (04 R86 to R108); a word with a bit set in a
field that its instruction does not use is an undefined encoding (R85). -/
def Obligations.ForrekWordsDecode : Prop :=
  ∀ c : Ctx,
    forrekDecode c 0b000001_0001_0010_0011_0000_00000_00000 = some (.add c 1 2 3) ∧
    forrekDecode c 0b000001_0001_0010_0000_0000_00111_10111 = some (.sat c 1 2 7) ∧
    forrekDecode c 0b000010_0100_0101_0110_0111_10000_00000 = some (.scl c 4 5 6 7 16) ∧
    forrekDecode c 0b000100_1000_0001_00_1111111111111111 = some (.addi c 8 1 0xFFFF) ∧
    forrekDecode c 0b001001_0011_0100_10_0000000000011111 = some (.sari c 3 4 31) ∧
    forrekDecode c 0b001100_0010_1111_10_0000000000001000 = some (.ldw c 2 15 8) ∧
    forrekDecode c 0b001110_0010_1111_01_0000000000000110 = some (.sth c 2 15 6) ∧
    forrekDecode c 0x6428C840 = some (.gputn c 10 3 2 2) ∧
    forrekDecode c 0b101000_0001_0010_001_111111111111110 = some (.bne c 1 2 0x7FFE) ∧
    forrekDecode c 0b101001_0000_01_00000_000000000100000 = some (.jal c 32) ∧
    forrekDecode c 0b101010_0000_0000_00_0000000000000000 = some (.endInv c) ∧
    forrekDecode c 0b101011_0000_0000_00_0000000000000101 = some (.trap c 5) ∧
    forrekDecode c 0b000001_0001_0010_0011_0001_00000_00000 = none ∧
    forrekDecode c 0b000000_0001_0010_0011_0000_00000_00000 = none

/-- What every step keeps of the Newel: its EEPROM and channel table stay canonical, the pairing mode stays one of the three (12 R326), and a
load channel whose THERM or WIRE latch is set stays off while VBAT is not negative (14 R378 to R381). -/
def Obligations.StepKeepsTheNewelSound : Prop :=
  ∀ (s t : State), s.newel.sound → step s = .next t → t.newel.sound

/-- Right after reset the Newel is sound, no command waits, every memory is in its canonical form and lists nothing, and each die knows
itself (02 R36; 14; 15). -/
def Obligations.ResetIsSound : Prop :=
  State.reset.newel.sound ∧ State.reset.pending = [] ∧ State.reset.newel.ee = [] ∧
  ∀ i : Die, (State.reset.get i).die = i ∧ (State.reset.get i).host.sram = [] ∧ (State.reset.get i).eng.data = [] ∧
    (State.reset.get i).upd.flash = [] ∧ Tab.sorted 0 (State.reset.get i).regs = true

/-- Select registers (02 R42): every local requester ID and every originating ID of the remote die has its own copy in each windowed block; a
write changes the writer's copy alone (an index beyond the range changes no selection), and the copies of a block are 0 after a reset of the
block's hall. -/
def Obligations.SelectCopiesAreSeparate : Prop :=
  (∀ (p q : Requester), reqCopy p = reqCopy q → reqId p = reqId q ∧ reqOrigin p = reqOrigin q) ∧
  (∀ (a : Acc) (b : WinBlock) (v : Word) (s : State),
    let d := s.get a.die
    Tab.sorted 0 d.regs = true → d.regStatus a.req (winCls b) 0 0 true = .okay →
    ∃ t, exec (.selWrite a b v) s = .next t ∧
      (t.get a.die).selected a.req (winCls b) = (if v.toNat % 256 < winCount b then v.toNat % 256 else d.selected a.req (winCls b)) ∧
      (∀ (q : Requester) (k : WinBlock), (reqCopy q ≠ reqCopy a.req ∨ k ≠ b) →
        (t.get a.die).selected q (winCls k) = d.selected q (winCls k)) ∧
      t.get a.die.other = s.get a.die.other) ∧
  (∀ (d : DieState) (b : WinBlock) (q : Requester), (d.hallClear (hallOfBlock (winCls b))).selected q (winCls b) = 0)

/-- A mailbox direction is first in, first out (01 R29; 13 R356): a word written goes behind those that wait, a read returns the oldest
one and takes it away, and after any run of writes and reads the words read followed by the words left are the words that waited followed by
the words that entered. -/
def Obligations.MailboxWordsKeepTheirOrder : Prop :=
  (∀ (a : Acc) (m : Fin 16) (e : Nat) (v : Word) (s : State),
    let d := s.get a.die
    Tab.sorted 0 d.host.mbx = true → d.regStatus a.req 13 m 0x110 true = .okay → d.mbEnd m (reqId a.req) = some e →
    (d.mbWords m e).length < 8 →
    ∃ t, exec (.mbTx a m v) s = .next t ∧ (t.get a.die).mbWords m e = d.mbWords m e ++ [v] ∧
      ∀ k, k ≠ 2 * m + e → Tab.get [] (t.get a.die).host.mbx k = Tab.get [] d.host.mbx k) ∧
  (∀ (a : Acc) (m : Fin 16) (e : Nat) (v : Word) (rest : List Word) (s : State),
    let d := s.get a.die
    Tab.sorted 0 d.host.mbx = true → d.regStatus a.req 13 m 0x114 false = .okay → d.mbEnd m (reqId a.req) = some e →
    d.mbWords m (1 - e) = v :: rest →
    ∃ t, exec (.mbRx a m) s = .next t ∧ (t.get a.die).bus.resp.value = v.toNat ∧ (t.get a.die).mbWords m (1 - e) = rest ∧
      ∀ k, k ≠ 2 * m + (1 - e) → Tab.get [] (t.get a.die).host.mbx k = Tab.get [] d.host.mbx k) ∧
  (∀ (d : DieState) (m e : Nat) (cs : List (Option Word)), e ≤ 1 → Tab.sorted 0 d.host.mbx = true →
    (d.mbRun m e cs).2.2 ++ ((d.mbRun m e cs).1).mbWords m e = d.mbWords m e ++ (d.mbRun m e cs).2.1)

/-- The stamp rule of the Gallery (05 R117, with 97's changes of an applied write): a put or group write is applied to all its slots when each
passes, and else refused as a whole with its count, capture and event; an add, or a compare-and-swap that writes, leaves STAMP and passes. -/
def Obligations.GalleryStampRule : Prop :=
  (∀ (x : Slot) (stamp : Word), x.passes stamp = true ↔ x.status = 0 ∨ 0 ≤ (stamp - x.stamp).toInt) ∧
  (∀ (i : Die) (r : GalReq) (rest : List GalReq) (vals : List Word) (stamp : Word) (status h : Nat) (s : State),
    let d := s.get i
    let x : DieState := { d with gal := { d.gal with pipe := rest } }
    let y := ((x.cnt galOldStamp).wr galOldLastHandle h).wr galOldLastWriter r.source
    let z := (y.raiseHeld 0x0801 0 1000000 (h + r.source * 65536)).hostOutcome r .stamp
    d.galOpen = true → d.gal.pipe = r :: rest → r.op = .put vals stamp status →
    (r.handles.find? fun h => !(d.galSlot h).passes stamp) = some h →
    exec (.galleryWriteApply i) s = .next (s.set i z) ∧ z.gal.slots = d.gal.slots ∧ z.gal.deadline = d.gal.deadline) ∧
  (∀ (i : Die) (r : GalReq) (rest : List GalReq) (vals : List Word) (stamp : Word) (status : Nat) (s : State),
    let d := s.get i
    Tab.sorted 0 d.gal.slots = true → d.galOpen = true → d.gal.pipe = r :: rest → r.op = .put vals stamp status →
    (∀ h ∈ r.handles, (d.galSlot h).passes stamp = true) →
    ∃ t, exec (.galleryWriteApply i) s = .next t ∧
      (∀ (k : Nat) (v : Word), vals[k]? = some v →
        (t.get i).galSlot (r.handle + k) =
          { d.galSlot (r.handle + k) with value := v, stamp := stamp, seq := ((d.galSlot (r.handle + k)).seq + 1) % 65536, status := status, source := r.source }) ∧
      (∀ h, h ∉ r.handles → (t.get i).galSlot h = d.galSlot h)) ∧
  (∀ (i : Die) (r : GalReq) (rest : List GalReq) (rd : Nat) (a : Word) (s : State),
    let d := s.get i
    let x := d.galSlot r.handle
    Tab.sorted 0 d.gal.slots = true → d.galOpen = true → d.gal.pipe = r :: rest →
    (r.op = .add rd a ∨ r.op = .cas rd x.value (x.value + a)) →
    ∃ t, exec (.galleryWriteApply i) s = .next t ∧
      (t.get i).galSlot r.handle = { x with value := x.value + a, seq := (x.seq + 1) % 65536, status := 1, source := r.source } ∧
      (∀ h, h ≠ r.handle → (t.get i).galSlot h = d.galSlot h))

/-- No command that writes or marks slots takes the stamp of a valid slot back, in the signed-difference sense (01 R28). -/
def Obligations.GalleryStampsNeverGoBack : Prop :=
  ∀ (i : Die) (c : Instr) (s t : State) (h : Nat),
    (c = .galleryWriteApply i ∨ c = .galleryPipelineEntry i ∨ (∃ k, c = .freshnessMark i k) ∨
      ∃ q k v w, c = .hostPut { die := i, req := q } k v w) →
    Tab.sorted 0 (s.get i).gal.slots = true → exec c s = .next t →
    ((s.get i).galSlot h).status = 0 ∨ 0 ≤ (((t.get i).galSlot h).stamp - ((s.get i).galSlot h).stamp).toInt

/-- No command that resets cores, clusters, halls or a die, and no switching of a hall, touches the Newel, whose load channels keep their
state (01 R20, R22). -/
def Obligations.ResetsLeaveTheLoadChannels : Prop :=
  ∀ (c : Instr) (s t : State),
    ((∃ a v, c = .hallReset a v ∨ c = .hallCtlWrite a v ∨ c = .pwrResetWrite a v ∨ c = .clusterReset a v ∨ c = .coreReset a v) ∨
      (∃ i, c = .rstinAssert i)) →
    exec c s = .next t → t.newel = s.newel

/-- Accesses that have no effect but their completion (01 R18; 02 R36 to R39, R44, R48): a register word of another width or alignment, a
register access whose status is not OKAY, a host SRAM access of a non-secure requester below NSBASE, the remote window while the link is down
or reached over the link. A register access begins with SECURE_VIOLATION for a non-secure requester of a secure-only target, with HALL_ASLEEP
for a hall that is off, and a write of the shadow view never begins with OKAY. -/
def Obligations.RefusedAccessesHaveNoEffect : Prop :=
  (∀ (a : Acc) (q : BusReq) (s : State), regionOf q.addr = .regs → regBlk q.addr ≤ 20 → (q.size ≠ 4 ∨ q.addr % 4 ≠ 0) →
    exec (.registerWrite a q) s = .next (s.set a.die ((s.get a.die).complete a.req q.addr .sizeError))) ∧
  (∀ (a : Acc) (q : BusReq) (s : State),
    let d := s.get a.die
    let blk := regBlk q.addr
    let off := regOff q.addr
    let ch := d.selected a.req blk
    regionOf q.addr = .regs → blk ≤ 20 → q.addr % 4 = 0 → q.size = 4 → q.write = true → selAt blk off = none →
    s.ownCommand a blk ch off (BitVec.ofNat 32 (reqValue q)) = none → d.regStatus a.req blk ch off true ≠ .okay →
    exec (.registerWrite a q) s = .next (s.set a.die (d.complete a.req q.addr (d.regStatus a.req blk ch off true)))) ∧
  (∀ (a : Acc) (q : BusReq) (s : State),
    let d := s.get a.die
    regionOf q.addr = .sram → d.debugShut a.req = false → d.hallUp .host = true → sizeOk q = true →
    d.sramOpen (d.secure a.req) q.addr = false →
    exec (.registerWrite a q) s = .next (s.set a.die (d.complete a.req q.addr .secureViolation))) ∧
  (∀ (a : Acc) (q : BusReq) (s : State),
    let d := s.get a.die
    regionOf q.addr = .remote →
    (∀ o b, a.req = .remote o b → exec (.remoteWindowAccess a q) s = .next (s.set a.die (d.complete a.req q.addr .decodeError))) ∧
    ((∀ o b, a.req ≠ .remote o b) → d.debugShut a.req = false → d.linkUp = false →
      exec (.remoteWindowAccess a q) s = .next (s.set a.die (d.complete a.req q.addr .linkDown)))) ∧
  (∀ (d : DieState) (q : Requester) (blk ch off : Nat) (w : Bool), blk ≤ 20 → q ≠ .debug →
    (secureOnly blk ch off = true → d.secure q = false → d.regStatus q blk ch off w = .secureViolation) ∧
    (d.secure q = true → d.hallUp (hallOfReg blk ch off) = false → d.regStatus q blk ch off w = .hallAsleep)) ∧
  (∀ (d : DieState) (q : Requester) (blk ch off : Nat), 0x80000 ≤ off → d.regStatus q blk ch off true ≠ .okay)

/-- A write of a register that acts by its fields alone changes no field of any other register (02 R38, 00 R8). -/
def Obligations.RegisterWritesTouchTheirFieldsOnly : Prop :=
  ∀ (a : Acc) (q : BusReq) (s t : State) (g : Fld) (ch i j : Nat),
    let d := s.get a.die
    let blk := regBlk q.addr
    let off := regOff q.addr
    let sel := d.selected a.req blk
    regionOf q.addr = .regs → blk ≤ 18 → q.addr % 4 = 0 → q.size = 4 → q.write = true → selAt blk off = none →
    s.ownCommand a blk sel off (BitVec.ofNat 32 (reqValue q)) = none → d.mbShut a.req blk sel off = false →
    d.regStatus a.req blk sel off true = .okay → d.commitOpen = true → Tab.sorted 0 d.regs = true →
    (∀ f m n, (f, m, n) ∈ fieldsAt blk off → g.key ch i j ≠ f.key (regChan blk sel (reqCopy a.req) off) m n) →
    exec (.registerWrite a q) s = .next t → (t.get a.die).rd g ch i j = d.rd g ch i j

/-- The frame of stores (04 R91; 03 R64): where a store completes, every byte of the engines' data memory outside the one, two or four bytes
at the stored address keeps its value, as do the host SRAM, the flash and the other die. The address is the one the meaning computes. -/
def Obligations.ForrekStoresTouchTheirBytesOnly : Prop :=
  ∀ (c : Ctx) (rs ra : GReg) (imm : BitVec 16) (n : Nat) (i : Instr) (s t : State) (ea : Nat),
    let d := s.get c.die
    ((n = 1 ∧ i = .stb c rs ra imm) ∨ (n = 2 ∧ i = .sth c rs ra imm) ∨ (n = 4 ∧ i = .stw c rs ra imm)) →
    Memory.wf d.eng.data = true → d.issuable c i = true → dataAddr ((d.ctx (ctxNum c)).gr ra) imm n = some ea →
    exec i s = .next t →
    (∀ x, (x < 16384 * c.eng.val + dataOffset c.ctx.val ea ∨ 16384 * c.eng.val + dataOffset c.ctx.val ea + n ≤ x) →
      (t.get c.die).eng.data.byte x = d.eng.data.byte x) ∧
    (∀ k, k < n → (t.get c.die).eng.data.byte (16384 * c.eng.val + dataOffset c.ctx.val ea + k) =
      BitVec.ofNat 8 (((d.ctx (ctxNum c)).gr rs).toNat / 256 ^ k)) ∧
    (t.get c.die).host.sram = d.host.sram ∧ (t.get c.die).upd.flash = d.upd.flash ∧ t.get c.die.other = s.get c.die.other ∧
    t.newel = s.newel

/-- The frame of the instructions that compute (04 R88 to R90): where one completes, every context of another engine, every memory, the
Gallery, the other die and the Newel stay as they were; the other contexts of its engine keep all but the list of those a `yield` waits for
(04 R108). -/
def Obligations.ForrekComputationsTouchTheirContextOnly : Prop :=
  ∀ (c : Ctx) (i : Instr) (f : Context → Context) (s t : State), ComputesTo c i f → (s.get c.die).issuable c i = true →
    exec i s = .next t →
    (∀ n, n / 4 ≠ ctxNum c / 4 → (t.get c.die).ctx n = (s.get c.die).ctx n) ∧
    (∀ n, n ≠ ctxNum c → ∃ ys, (t.get c.die).ctx n = { (s.get c.die).ctx n with yields := ys }) ∧
    (t.get c.die).eng.data = (s.get c.die).eng.data ∧ (t.get c.die).eng.code = (s.get c.die).eng.code ∧
    (t.get c.die).gal = (s.get c.die).gal ∧ (t.get c.die).host.sram = (s.get c.die).host.sram ∧
    (t.get c.die).upd = (s.get c.die).upd ∧ t.get c.die.other = s.get c.die.other ∧ t.newel = s.newel

/-- Commands of the channels, the Gallery, the queue blocks, the mailboxes and the semaphores of one die change neither the other die nor the
Newel (01 R20; 02 R36). -/
def Obligations.LocalCommandsStayOnTheirDie : Prop :=
  ∀ (c : Instr) (i : Die) (s t : State),
    ((∃ q n, c = .semClaim { die := i, req := q } n) ∨ (∃ q n v, c = .semRelease { die := i, req := q } n v) ∨
      (∃ q n, c = .qbPop { die := i, req := q } n) ∨ (∃ q n v, c = .qbPush { die := i, req := q } n v) ∨
      (∃ q n v, c = .mbTx { die := i, req := q } n v) ∨ (∃ q n, c = .mbRx { die := i, req := q } n) ∨
      c = .galleryWriteApply i ∨ c = .galleryPipelineEntry i ∨ (∃ h, c = .freshnessMark i h) ∨ (∃ cl, c = .eventDispatch i cl) ∨
      (∃ t, c = .engineTimerFire i t) ∨ (∃ q v, c = .commitGo { die := i, req := q } v) ∨ c = .commitApply i) →
    exec c s = .next t → t.get i.other = s.get i.other ∧ t.newel = s.newel

/-- Accesses by physical address: a register word written by its fields or read, a select register, the remote window while the link is up,
an address of no region, a hall that sleeps, an access that times out and its late answer (02 R36 to R42; 00 R8).
The order of the requests on the link and the status of a posted write are the model's (logs 9, 10, 45). -/
def Obligations.AccessCommandsComplete : Prop :=
  (∀ (a : Acc) (q : BusReq) (s : State),
    let d := s.get a.die
    let blk := regBlk q.addr
    let off := regOff q.addr
    let ch := d.selected a.req blk
    let v := BitVec.ofNat 32 (reqValue q)
    regionOf q.addr = .regs → blk ≤ 20 → q.addr % 4 = 0 → q.size = 4 → q.write = true → selAt blk off = none →
    s.ownCommand a blk ch off v = none → d.mbShut a.req blk ch off = false → d.regStatus a.req blk ch off true = .okay →
    exec (.registerWrite a q) s = .next (s.set a.die
      ((d.complete a.req (regAddr blk off) .okay).writeFields blk (regChan blk ch (reqCopy a.req) off) off v))) ∧
  (∀ (a : Acc) (addr : Nat) (s : State),
    let d := s.get a.die
    let blk := regBlk (0x40000000 + addr)
    let off := regOff (0x40000000 + addr)
    let ch := d.selected a.req blk
    addr < 0x1500000 → addr % 4 = 0 → off < 0x80000 → s.ownRead a blk ch off = none → d.mbShut a.req blk ch off = false →
    d.regStatus a.req blk ch off false = .okay →
    exec (.rcRead a addr) s = .next (s.set a.die
      (((d.complete a.req (regAddr blk off) .okay (d.regWord a.req blk ch off)).rcClear blk
        (regChan blk ch (reqCopy a.req) off) off).readAct blk off))) ∧
  (∀ (a : Acc) (b : WinBlock) (v : Word) (s : State),
    let d := s.get a.die
    d.regStatus a.req (winCls b) 0 0 true = .okay → v.toNat % 256 < winCount b →
    exec (.selWrite a b v) s = .next (s.set a.die
      (((d.complete a.req (regAddr (winCls b) 0) .okay).wr (winFields b).1 (v.toNat % 256) (reqCopy a.req)).wr
        (winFields b).2 0 (reqCopy a.req)))) ∧
  (∀ (a : Acc) (q : BusReq) (s : State),
    let d := s.get a.die
    regionOf q.addr = .remote → (∀ o b, a.req ≠ .remote o b) → d.debugShut a.req = false → d.linkUp = true → sizeOk q = true →
    (q.write = true → exec (.remoteWindowAccess a q) s = .next (s.set a.die
      ((({ d with bus := { d.bus with nextTag := d.bus.nextTag + 1 } } : DieState).sendVc 0
        (.req (reqId a.req) (d.secure a.req) true (q.addr - 0x1000000000) q.size (reqBytes q) true d.bus.nextTag)).complete
          a.req q.addr .okay))) ∧
    (q.write = false → d.npOut < 64 → exec (.remoteWindowAccess a q) s = .next (s.set a.die
      (({ d with bus := { d.bus with nextTag := d.bus.nextTag + 1, waiting := d.bus.waiting ++
          [{ req := a.req, addr := q.addr, write := false, since := d.now, tag := d.bus.nextTag }] } } : DieState).sendVc 1
        (.req (reqId a.req) (d.secure a.req) false (q.addr - 0x1000000000) q.size (reqBytes q) false d.bus.nextTag))))) ∧
  (∀ (a : Acc) (q : BusReq) (s : State), regionOf q.addr = .none →
    exec (.decodeErrorAccess a q) s = .next (s.set a.die ((s.get a.die).complete a.req q.addr .decodeError))) ∧
  (∀ (a : Acc) (q : BusReq) (s : State), (s.get a.die).targetAsleep a.req q.addr = true →
    exec (.hallAsleepAnswer a q) s = .next (s.set a.die ((s.get a.die).complete a.req q.addr .hallAsleep))) ∧
  (∀ (a : Acc) (p : PendAcc) (s : State),
    let d := s.get a.die
    d.oldestAcc a.req false = some p → p.since + 1000 * d.rd sysBusTmo ≤ d.now →
    exec (.busTimeout a) s = .next (s.set a.die
      (({ d with bus := { d.bus with waiting := d.bus.waiting.map fun (q : PendAcc) =>
          if q.tag = p.tag then { q with timedOut := true } else q } } : DieState).complete p.req p.addr .timeout))) ∧
  (∀ (a : Acc) (p : PendAcc) (s : State),
    let d := s.get a.die
    d.oldestAcc a.req true = some p →
    exec (.lateResponse a) s = .next (s.set a.die
      (({ d with bus := { d.bus with waiting := d.bus.waiting.filter fun q => decide (q.tag ≠ p.tag) } } : DieState).lateCapture p)))

/-- Semaphore n (02 R45): a read claims it while it is free and returns 0, else returns the owner's ID plus one, the reader's own too; a
write of 0 by the owner, told by its ID and, over the link, its originating ID, releases it; any other write has no effect but
SEM_BAD_RELEASE. A forced release of a held one (R47). -/
def Obligations.SemaphoreCommandsComplete : Prop :=
  (∀ (a : Acc) (n : Fin 64) (s : State),
    let d := s.get a.die
    d.regStatus a.req 0 0 (0x100 + 4 * n) false = .okay →
    (d.sem n = 0 → exec (.semClaim a n) s = .next (s.set a.die
      (let x := ((d.complete a.req (regAddr 0 (0x100 + 4 * n)) .okay 0).wr sysSemPeekValue (reqId a.req + 1) 0 n).wr
          sysSemPeekOrigin (reqOrigin a.req) 0 n
       { x with bus := { x.bus with semPtr := (reqId a.req + 1) % 32 } }))) ∧
    (d.sem n ≠ 0 → exec (.semClaim a n) s = .next (s.set a.die (d.complete a.req (regAddr 0 (0x100 + 4 * n)) .okay (d.sem n))))) ∧
  (∀ (a : Acc) (n : Fin 64) (v : Word) (s : State),
    let d := s.get a.die
    d.regStatus a.req 0 0 (0x100 + 4 * n) true = .okay →
    (v = 0 → d.sem n = reqId a.req + 1 → d.rd sysSemPeekOrigin 0 n = reqOrigin a.req →
      exec (.semRelease a n v) s = .next (s.set a.die
        (((d.complete a.req (regAddr 0 (0x100 + 4 * n)) .okay).wr sysSemPeekValue 0 0 n).wr sysSemPeekOrigin 0 0 n))) ∧
    (¬ (v = 0 ∧ d.sem n = reqId a.req + 1 ∧ d.rd sysSemPeekOrigin 0 n = reqOrigin a.req) →
      exec (.semRelease a n v) s = .next (s.set a.die
        ((d.complete a.req (regAddr 0 (0x100 + 4 * n)) .okay).raise 0x0021 (n + v.toNat % 2 ^ 24 * 256) 0 (reqId a.req)
          (d.secure a.req))))) ∧
  (∀ (a : Acc) (n : Fin 64) (s : State),
    let d := s.get a.die
    let x := (d.complete a.req (regAddr 0 0xFC) .okay).writeFields 0 0 0xFC (BitVec.ofNat 32 n)
    d.regStatus a.req 0 0 0xFC true = .okay → x.sem n ≠ 0 →
    exec (.semForce a n) s = .next (s.set a.die
      (((x.wr sysSemPeekValue 0 0 n).wr sysSemPeekOrigin 0 0 n).raise 0x0020
        (n + (x.sem n - 1) * 256 + x.rd sysSemPeekOrigin 0 n * 65536))))

/-- The commit machine (02 R50, R51): GO, ABORT and DISCARD, the end of a validation, the commit instant, units that switch at their boundary,
the end of draining and its limit; an event record that arrives over the link (02 R53).
Merging staged fields one by one is the model's form of a set (log 16). -/
def Obligations.CommitCommandsComplete : Prop :=
  (∀ (a : Acc) (v : Word) (s : State),
    let d := s.get a.die
    let x := (d.complete a.req (regAddr 0 0x40) .okay).writeFields 0 0 0x40 (commitWord v 31)
    d.regStatus a.req 0 0 0x40 true = .okay → v.getLsbD 30 = false → v.getLsbD 29 = false → x.commitOpen = true →
    exec (.commitGo a v) s = .next (s.set a.die
      (({ x with cm := { mode := x.rd sysCommitMode, dry := x.bit sysCommitDry, cue := x.rd sysCommitCue } } : DieState).wr sysCommitStatState 1))) ∧
  (∀ (a : Acc) (v : Word) (s : State),
    let d := s.get a.die
    let x := (d.complete a.req (regAddr 0 0x40) .okay).writeFields 0 0 0x40 (commitWord v 30)
    d.regStatus a.req 0 0 0x40 true = .okay → v.getLsbD 31 = false → v.getLsbD 29 = false → x.commitState = 2 →
    exec (.commitAbort a v) s = .next (s.set a.die (x.wr sysCommitStatState 0))) ∧
  (∀ (a : Acc) (v : Word) (s : State),
    let d := s.get a.die
    let x := (d.complete a.req (regAddr 0 0x40) .okay).writeFields 0 0 0x40 (commitWord v 29)
    d.regStatus a.req 0 0 0x40 true = .okay → v.getLsbD 31 = false → v.getLsbD 30 = false → x.commitOpen = true →
    exec (.commitDiscard a v) s = .next (s.set a.die
      { x with staged := [], gal := { x.gal with bind := [] }, tbl := { x.tbl with edits := [] } })) ∧
  (∀ (i : Die) (s : State),
    let d := s.get i
    d.commitState = 1 → d.cm.passed = false →
    (∀ r x, d.validate = some (r, x) → exec (.commitValidationDone i) s = .next (s.set i
      ((((d.wr sysCommitStatState 5).wr sysCommitStatReason r).wr sysCommitStatDetail x).raise 0x0002 (r + x % 65536 * 65536)))) ∧
    (d.validate = none → d.cm.dry = true → exec (.commitValidationDone i) s = .next (s.set i
      ((((d.wr sysCommitStatReason 0).wr sysCommitStatDetail 0).wr sysCommitStatState 4).raise 0x0001
        ((((d.wr sysCommitStatReason 0).wr sysCommitStatDetail 0).wr sysCommitStatState 4).rd sysCommitSeqCount + 65536)))) ∧
    (d.validate = none → d.cm.dry = false → d.cm.mode = 1 → exec (.commitValidationDone i) s = .next (s.set i
      (d.wr sysCommitStatState 2))) ∧
    (d.validate = none → d.cm.dry = false → d.cm.mode ≠ 1 → exec (.commitValidationDone i) s = .next (s.set i
      { d with cm := { d.cm with passed := true } }))) ∧
  (∀ (i : Die) (s : State),
    let d := s.get i
    d.commitState = 1 → d.cm.passed = true → d.cm.mode ≠ 2 →
    let x := (((({ d with
        old := d.regs
        gen := d.gen + 1
        cm := { d.cm with passed := false, units := [], drainAt := d.now } } : DieState).wr sysCommitStatState 3).activate
          fun _ => true).applyBindings).editsApply
    let y := { x with gal := { x.gal with bind := [] } }
    exec (.commitApply i) s = .next (s.set i
      (if y.guard.relock then ({ y with guard := { y.guard with relock := false } } : DieState).raise 0x1312 else y))) ∧
  (∀ (i : Die) (u : BoundaryUnit) (s : State),
    let d := s.get i
    d.commitState = 3 → d.cm.units.contains (unitNum u) = true → d.unitIdle (unitNum u) = true →
    exec (.commitBoundaryApply i u) s = .next (s.set i
      (({ d with cm := { d.cm with units := d.cm.units.filter fun x => decide (x ≠ unitNum u) } } : DieState).activate
        fun k => decide (unitOfKey k = some (unitNum u))))) ∧
  (∀ (i : Die) (s : State),
    let d := s.get i
    d.commitState = 3 → d.cm.units = [] → d.oldLeft = false →
    exec (.commitDrainDone i) s = .next (s.set i
      (let x := ((((({ d with old := [], staged := [], tbl := { d.tbl with former := [] } } : DieState).wr sysCommitStatReason 0).wr
          sysCommitStatDetail 0).wr sysCommitStatState 4).cnt sysCommitSeqCount)
       x.raise 0x0001 (x.rd sysCommitSeqCount)))) ∧
  (∀ (i : Die) (s : State),
    let d := s.get i
    d.commitState = 3 → d.cm.drainAt + 1000 * d.rd sysCommitDrain ≤ d.now →
    exec (.commitDrainLimit i) s = .next (s.set i d.dropOld.drainEnd)) ∧
  (∀ (i : Die) (r : EvRec) (rest : List VMsg) (s : State),
    (s.get i).stw.landing.get (0 : Fin 4) = .event r :: rest →
    exec (.eventRemoteArrive i) s = .next (s.set i (((s.get i).popLanding 0).settle 256 [.ev { r with remote := true }])))

/-- The register-register instructions (04 R88, R89, Table 4.5): the result in rd and the status bits, for every state in which the instruction
may run; everything else stays but the counts of the issue.
When an instruction issues is the model's (log 17). -/
def Obligations.ForrekRegisterInstructions : Prop :=
  (∀ (c : Ctx) (rd ra rb : GReg), ComputesTo c (.add c rd ra rb) fun x =>
      { x.setGr rd (x.gr ra + x.gr rb) with st := flagsAdd x.st (x.gr ra) (x.gr rb) }) ∧
  (∀ (c : Ctx) (rd ra rb : GReg), ComputesTo c (.sub c rd ra rb) fun x =>
      { x.setGr rd (x.gr ra - x.gr rb) with st := flagsSub x.st (x.gr ra) (x.gr rb) }) ∧
  (∀ (c : Ctx) (rd ra rb : GReg), ComputesTo c (.and c rd ra rb) fun x =>
      x.setZn rd (x.gr ra &&& x.gr rb)) ∧
  (∀ (c : Ctx) (rd ra rb : GReg), ComputesTo c (.or c rd ra rb) fun x =>
      x.setZn rd (x.gr ra ||| x.gr rb)) ∧
  (∀ (c : Ctx) (rd ra rb : GReg), ComputesTo c (.xor c rd ra rb) fun x =>
      x.setZn rd (x.gr ra ^^^ x.gr rb)) ∧
  (∀ (c : Ctx) (rd ra rb : GReg), ComputesTo c (.shl c rd ra rb) fun x =>
      x.setZn rd (x.gr ra <<< ((x.gr rb).toNat % 32))) ∧
  (∀ (c : Ctx) (rd ra rb : GReg), ComputesTo c (.shr c rd ra rb) fun x =>
      x.setZn rd (x.gr ra >>> ((x.gr rb).toNat % 32))) ∧
  (∀ (c : Ctx) (rd ra rb : GReg), ComputesTo c (.sar c rd ra rb) fun x =>
      x.setZn rd ((x.gr ra).sshiftRight ((x.gr rb).toNat % 32))) ∧
  (∀ (c : Ctx) (rd ra rb : GReg), ComputesTo c (.rol c rd ra rb) fun x =>
      x.setZn rd ((x.gr ra).rotateLeft ((x.gr rb).toNat % 32))) ∧
  (∀ (c : Ctx) (rd ra rb : GReg), ComputesTo c (.mul c rd ra rb) fun x =>
      x.setZn rd (x.gr ra * x.gr rb)) ∧
  (∀ (c : Ctx) (rd ra rb : GReg), ComputesTo c (.mulh c rd ra rb) fun x =>
      x.setZn rd (BitVec.ofInt 32 ((x.gr ra).toInt * (x.gr rb).toInt / 2 ^ 32))) ∧
  (∀ (c : Ctx) (rd ra rb : GReg), ComputesTo c (.mulhu c rd ra rb) fun x =>
      x.setZn rd (BitVec.ofNat 32 ((x.gr ra).toNat * (x.gr rb).toNat / 2 ^ 32))) ∧
  (∀ (c : Ctx) (rd ra rb : GReg), ComputesTo c (.muls c rd ra rb) fun x =>
      x.setSat rd ((x.gr ra).toInt * (x.gr rb).toInt) (satS 32 ((x.gr ra).toInt * (x.gr rb).toInt))) ∧
  (∀ (c : Ctx) (rd ra rb : GReg), ComputesTo c (.adds c rd ra rb) fun x =>
      x.setSat rd ((x.gr ra).toInt + (x.gr rb).toInt) (satS 32 ((x.gr ra).toInt + (x.gr rb).toInt))) ∧
  (∀ (c : Ctx) (rd ra rb : GReg), ComputesTo c (.subs c rd ra rb) fun x =>
      x.setSat rd ((x.gr ra).toInt - (x.gr rb).toInt) (satS 32 ((x.gr ra).toInt - (x.gr rb).toInt))) ∧
  (∀ (c : Ctx) (rd ra rb : GReg), ComputesTo c (.addsu c rd ra rb) fun x =>
      x.setSat rd ((x.gr ra).toNat + (x.gr rb).toNat : Int) (satU 32 ((x.gr ra).toNat + (x.gr rb).toNat))) ∧
  (∀ (c : Ctx) (rd ra rb : GReg), ComputesTo c (.subsu c rd ra rb) fun x =>
      x.setSat rd ((x.gr ra).toNat - (x.gr rb).toNat : Int) (satU 32 ((x.gr ra).toNat - (x.gr rb).toNat))) ∧
  (∀ (c : Ctx) (rd ra rb : GReg), ComputesTo c (.min c rd ra rb) fun x =>
      x.setZn rd (if (x.gr ra).toInt < (x.gr rb).toInt then x.gr ra else x.gr rb)) ∧
  (∀ (c : Ctx) (rd ra rb : GReg), ComputesTo c (.max c rd ra rb) fun x =>
      x.setZn rd (if (x.gr ra).toInt < (x.gr rb).toInt then x.gr rb else x.gr ra)) ∧
  (∀ (c : Ctx) (rd ra rb : GReg), ComputesTo c (.minu c rd ra rb) fun x =>
      x.setZn rd (if (x.gr ra).toNat < (x.gr rb).toNat then x.gr ra else x.gr rb)) ∧
  (∀ (c : Ctx) (rd ra rb : GReg), ComputesTo c (.maxu c rd ra rb) fun x =>
      x.setZn rd (if (x.gr ra).toNat < (x.gr rb).toNat then x.gr rb else x.gr ra)) ∧
  (∀ (c : Ctx) (rd ra rb : GReg), ComputesTo c (.slt c rd ra rb) fun x =>
      x.setZn rd (if (x.gr ra).toInt < (x.gr rb).toInt then 1 else 0)) ∧
  (∀ (c : Ctx) (rd ra rb : GReg), ComputesTo c (.sltu c rd ra rb) fun x =>
      x.setZn rd (if (x.gr ra).toNat < (x.gr rb).toNat then 1 else 0)) ∧
  (∀ (c : Ctx) (rd ra : GReg) (k : Fin 32), ComputesTo c (.sat c rd ra k) fun x =>
      x.setSat rd (x.gr ra).toInt (satS (k + 1) (x.gr ra).toInt)) ∧
  (∀ (c : Ctx) (rd ra : GReg) (k : Fin 32), ComputesTo c (.satu c rd ra k) fun x =>
      x.setSat rd (x.gr ra).toInt (satU (k + 1) (x.gr ra).toInt)) ∧
  (∀ (c : Ctx) (rd ra : GReg), ComputesTo c (.bswap c rd ra) fun x =>
      x.setZn rd (BitVec.ofNat 32 (leNat (leBytes 4 (x.gr ra).toNat).reverse))) ∧
  (∀ (c : Ctx) (rd ra rb : GReg), ComputesTo c (.addsh c rd ra rb) fun x =>
      x.setLanes rd (lane (x.gr ra) 0 + lane (x.gr rb) 0) (lane (x.gr ra) 1 + lane (x.gr rb) 1)) ∧
  (∀ (c : Ctx) (rd ra rb : GReg), ComputesTo c (.subsh c rd ra rb) fun x =>
      x.setLanes rd (lane (x.gr ra) 0 - lane (x.gr rb) 0) (lane (x.gr ra) 1 - lane (x.gr rb) 1)) ∧
  (∀ (c : Ctx) (rd ra rb : GReg), ComputesTo c (.minh c rd ra rb) fun x =>
      x.setZn rd (lanes (min (lane (x.gr ra) 0) (lane (x.gr rb) 0)) (min (lane (x.gr ra) 1) (lane (x.gr rb) 1)))) ∧
  (∀ (c : Ctx) (rd ra rb : GReg), ComputesTo c (.maxh c rd ra rb) fun x =>
      x.setZn rd (lanes (max (lane (x.gr ra) 0) (lane (x.gr rb) 0)) (max (lane (x.gr ra) 1) (lane (x.gr rb) 1)))) ∧
  (∀ (c : Ctx) (rd ra rb : GReg), ComputesTo c (.packh c rd ra rb) fun x =>
      x.setZn rd (lanes (lane (x.gr ra) 0) (lane (x.gr rb) 0))) ∧
  (∀ (c : Ctx) (rd ra rb rc : GReg) (k : Fin 32), ComputesTo c (.scl c rd ra rb rc k) fun x =>
      let p := ((x.gr ra).toInt * (x.gr rb).toInt + 0x8000) / 2 ^ 16 + (x.gr rc).toInt
      x.setSat rd p (satS (k + 1) p)) ∧
  (∀ (c : Ctx) (rd ra rb rc : GReg) (k : Fin 32), ComputesTo c (.sclu c rd ra rb rc k) fun x =>
      let p := ((x.gr ra).toInt * (x.gr rb).toInt + 0x8000) / 2 ^ 16 + (x.gr rc).toInt
      x.setSat rd p (satU (k + 1) p))

/-- The immediate instructions, `flen` and `mfs` (04 R90, R94, R104): the result in rd and the status bits.
When an instruction issues is the model's (log 17). -/
def Obligations.ForrekImmediateInstructions : Prop :=
  (∀ (c : Ctx) (rd ra : GReg) (imm : BitVec 16), ComputesTo c (.addi c rd ra imm) fun x =>
      { x.setGr rd (x.gr ra + imm.signExtend 32) with st := flagsAdd x.st (x.gr ra) (imm.signExtend 32) }) ∧
  (∀ (c : Ctx) (rd ra : GReg) (imm : BitVec 16), ComputesTo c (.andi c rd ra imm) fun x =>
      x.setZn rd (x.gr ra &&& imm.zeroExtend 32)) ∧
  (∀ (c : Ctx) (rd ra : GReg) (imm : BitVec 16), ComputesTo c (.ori c rd ra imm) fun x =>
      x.setZn rd (x.gr ra ||| imm.zeroExtend 32)) ∧
  (∀ (c : Ctx) (rd ra : GReg) (imm : BitVec 16), ComputesTo c (.xori c rd ra imm) fun x =>
      x.setZn rd (x.gr ra ^^^ imm.zeroExtend 32)) ∧
  (∀ (c : Ctx) (rd : GReg) (imm : BitVec 16), ComputesTo c (.lui c rd imm) fun x =>
      x.setGr rd (imm.zeroExtend 32 <<< 16)) ∧
  (∀ (c : Ctx) (rd ra : GReg) (n : Fin 32), ComputesTo c (.shli c rd ra n) fun x =>
      x.setZn rd (x.gr ra <<< n.val)) ∧
  (∀ (c : Ctx) (rd ra : GReg) (n : Fin 32), ComputesTo c (.shri c rd ra n) fun x =>
      x.setZn rd (x.gr ra >>> n.val)) ∧
  (∀ (c : Ctx) (rd ra : GReg) (n : Fin 32), ComputesTo c (.sari c rd ra n) fun x =>
      x.setZn rd ((x.gr ra).sshiftRight n.val)) ∧
  (∀ (c : Ctx) (rd ra : GReg) (n : Fin 32), ComputesTo c (.roli c rd ra n) fun x =>
      x.setZn rd ((x.gr ra).rotateLeft n.val)) ∧
  (∀ (c : Ctx) (rd ra : GReg) (imm : BitVec 16), ComputesTo c (.slti c rd ra imm) fun x =>
      x.setZn rd (if (x.gr ra).toInt < (imm.signExtend 32).toInt then 1 else 0)) ∧
  (∀ (c : Ctx) (rd ra : GReg) (imm : BitVec 16), ComputesTo c (.sltiu c rd ra imm) fun x =>
      x.setZn rd (if (x.gr ra).toNat < (imm.signExtend 32).toNat then 1 else 0)) ∧
  (∀ (c : Ctx) (rd : GReg), ComputesTo c (.flen c rd) fun x =>
      x.setGr rd (match x.frame with | some f => BitVec.ofNat 32 f.bytes.length | none => 0)) ∧
  (∀ (c : Ctx) (rd : GReg) (code : Fin 8), ComputesTo c (.mfs c rd code) fun x =>
      x.setGr rd (x.special code))

/-- The status bits and the registers that results write (04 R82, R84, Table 4.2): Z, N, C and V of sums and differences, sticky SAT, w0. -/
def Obligations.ForrekStatusAndRegisters : Prop :=
  (∀ (st : BitVec 16) (a b : Word),
    (flagsAdd st a b).getLsbD 0 = decide (a + b = 0) ∧ (flagsAdd st a b).getLsbD 1 = (a + b).msb ∧
    (flagsAdd st a b).getLsbD 2 = decide (2 ^ 32 ≤ a.toNat + b.toNat) ∧
    (flagsAdd st a b).getLsbD 3 = (decide (a.msb = b.msb) && decide ((a + b).msb ≠ a.msb)) ∧
    (∀ k, 4 ≤ k → (flagsAdd st a b).getLsbD k = st.getLsbD k)) ∧
  (∀ (st : BitVec 16) (a b : Word),
    (flagsSub st a b).getLsbD 0 = decide (a = b) ∧ (flagsSub st a b).getLsbD 1 = (a - b).msb ∧
    (flagsSub st a b).getLsbD 2 = decide (a.toNat < b.toNat) ∧
    (flagsSub st a b).getLsbD 3 = (decide (a.msb ≠ b.msb) && decide ((a - b).msb ≠ a.msb)) ∧
    (∀ k, 4 ≤ k → (flagsSub st a b).getLsbD k = st.getLsbD k)) ∧
  (∀ (x : Context) (rd : Fin 16) (v : Word) (k : Fin 16),
    (x.setZn rd v).st.getLsbD 0 = decide (v = 0) ∧ (x.setZn rd v).st.getLsbD 1 = v.msb ∧
    (∀ j, 2 ≤ j → (x.setZn rd v).st.getLsbD j = x.st.getLsbD j) ∧
    (x.setZn rd v).gr k = if k = rd ∧ rd.val ≠ 0 then v else x.gr k) ∧
  (∀ (x : Context) (rd : Fin 16) (p q : Int) (k : Fin 16),
    (x.setSat rd p q).st.getLsbD 0 = decide (BitVec.ofInt 32 q = 0) ∧ (x.setSat rd p q).st.getLsbD 1 = (BitVec.ofInt 32 q).msb ∧
    (x.setSat rd p q).st.getLsbD 4 = (x.st.getLsbD 4 || decide (p ≠ q)) ∧
    (∀ j, 2 ≤ j → j ≠ 4 → (x.setSat rd p q).st.getLsbD j = x.st.getLsbD j) ∧
    (x.setSat rd p q).gr k = if k = rd ∧ rd.val ≠ 0 then BitVec.ofInt 32 q else x.gr k) ∧
  (∀ (x : Context) (rd : Fin 16) (p q : Int) (k : Fin 16),
    (x.setLanes rd p q).gr k = (if k = rd ∧ rd.val ≠ 0 then lanes (satS 16 p) (satS 16 q) else x.gr k) ∧
    (x.setLanes rd p q).st.getLsbD 4 = (x.st.getLsbD 4 || decide (satS 16 p ≠ p) || decide (satS 16 q ≠ q)) ∧
    (∀ j, 2 ≤ j → j ≠ 4 → (x.setLanes rd p q).st.getLsbD j = x.st.getLsbD j)) ∧
  (∀ (w : Nat) (p : Int), 1 ≤ w → w ≤ 32 →
    (-(2 ^ (w - 1)) ≤ satS w p ∧ satS w p < 2 ^ (w - 1) ∧ (-(2 ^ (w - 1)) ≤ p → p < 2 ^ (w - 1) → satS w p = p)) ∧
    (0 ≤ satU w p ∧ satU w p < 2 ^ w ∧ (0 ≤ p → p < 2 ^ w → satU w p = p))) ∧
  (∀ (x : Context) (v : Word), x.gr 0 = 0 ∧ x.setGr 0 v = x)

/-- Loads and stores of a context's data memory (04 R91, 03 R64), within its bounds and aligned. -/
def Obligations.ForrekMemoryInstructions : Prop :=
  (∀ (c : Ctx) (rd ra : GReg) (imm : BitVec 16) (s : State),
    let d := (s.get c.die).countIssue (ctxNum c)
    let x := d.ctx (ctxNum c)
    let ea := (x.gr ra + imm.signExtend 32).toNat
    (s.get c.die).issuable c (.ldb c rd ra imm) = true → ea < 0x3400 → ea % 1 = 0 →
    exec (.ldb c rd ra imm) s = .next (s.set c.die
      (d.setCtx (ctxNum c) { x.setGr rd (BitVec.ofNat 32 (leNat (d.dataBytes c ea 1))) with pc := (x.setGr rd (BitVec.ofNat 32 (leNat (d.dataBytes c ea 1)))).pc + 1 }))) ∧
  (∀ (c : Ctx) (rd ra : GReg) (imm : BitVec 16) (s : State),
    let d := (s.get c.die).countIssue (ctxNum c)
    let x := d.ctx (ctxNum c)
    let ea := (x.gr ra + imm.signExtend 32).toNat
    (s.get c.die).issuable c (.ldh c rd ra imm) = true → ea < 0x3400 → ea % 2 = 0 →
    exec (.ldh c rd ra imm) s = .next (s.set c.die
      (d.setCtx (ctxNum c) { x.setGr rd (BitVec.ofNat 32 (leNat (d.dataBytes c ea 2))) with pc := (x.setGr rd (BitVec.ofNat 32 (leNat (d.dataBytes c ea 2)))).pc + 1 }))) ∧
  (∀ (c : Ctx) (rd ra : GReg) (imm : BitVec 16) (s : State),
    let d := (s.get c.die).countIssue (ctxNum c)
    let x := d.ctx (ctxNum c)
    let ea := (x.gr ra + imm.signExtend 32).toNat
    (s.get c.die).issuable c (.ldw c rd ra imm) = true → ea < 0x3400 → ea % 4 = 0 →
    exec (.ldw c rd ra imm) s = .next (s.set c.die
      (d.setCtx (ctxNum c) { x.setGr rd (BitVec.ofNat 32 (leNat (d.dataBytes c ea 4))) with pc := (x.setGr rd (BitVec.ofNat 32 (leNat (d.dataBytes c ea 4)))).pc + 1 }))) ∧
  (∀ (c : Ctx) (rd ra : GReg) (imm : BitVec 16) (s : State),
    let d := (s.get c.die).countIssue (ctxNum c)
    let x := d.ctx (ctxNum c)
    let ea := (x.gr ra + imm.signExtend 32).toNat
    (s.get c.die).issuable c (.ldbs c rd ra imm) = true → ea < 0x3400 → ea % 1 = 0 →
    exec (.ldbs c rd ra imm) s = .next (s.set c.die
      (d.setCtx (ctxNum c) { x.setGr rd (sextBits 8 (leNat (d.dataBytes c ea 1))) with pc := (x.setGr rd (sextBits 8 (leNat (d.dataBytes c ea 1)))).pc + 1 }))) ∧
  (∀ (c : Ctx) (rd ra : GReg) (imm : BitVec 16) (s : State),
    let d := (s.get c.die).countIssue (ctxNum c)
    let x := d.ctx (ctxNum c)
    let ea := (x.gr ra + imm.signExtend 32).toNat
    (s.get c.die).issuable c (.ldhs c rd ra imm) = true → ea < 0x3400 → ea % 2 = 0 →
    exec (.ldhs c rd ra imm) s = .next (s.set c.die
      (d.setCtx (ctxNum c) { x.setGr rd (sextBits 16 (leNat (d.dataBytes c ea 2))) with pc := (x.setGr rd (sextBits 16 (leNat (d.dataBytes c ea 2)))).pc + 1 }))) ∧
  (∀ (c : Ctx) (rs ra : GReg) (imm : BitVec 16) (s : State),
    let d := (s.get c.die).countIssue (ctxNum c)
    let x := d.ctx (ctxNum c)
    let ea := (x.gr ra + imm.signExtend 32).toNat
    (s.get c.die).issuable c (.stb c rs ra imm) = true → ea < 0x3400 → ea % 1 = 0 →
    exec (.stb c rs ra imm) s = .next (s.set c.die
      ((d.setData c ea (leBytes 1 (x.gr rs).toNat)).setCtx (ctxNum c) { x with pc := x.pc + 1 }))) ∧
  (∀ (c : Ctx) (rs ra : GReg) (imm : BitVec 16) (s : State),
    let d := (s.get c.die).countIssue (ctxNum c)
    let x := d.ctx (ctxNum c)
    let ea := (x.gr ra + imm.signExtend 32).toNat
    (s.get c.die).issuable c (.sth c rs ra imm) = true → ea < 0x3400 → ea % 2 = 0 →
    exec (.sth c rs ra imm) s = .next (s.set c.die
      ((d.setData c ea (leBytes 2 (x.gr rs).toNat)).setCtx (ctxNum c) { x with pc := x.pc + 1 }))) ∧
  (∀ (c : Ctx) (rs ra : GReg) (imm : BitVec 16) (s : State),
    let d := (s.get c.die).countIssue (ctxNum c)
    let x := d.ctx (ctxNum c)
    let ea := (x.gr ra + imm.signExtend 32).toNat
    (s.get c.die).issuable c (.stw c rs ra imm) = true → ea < 0x3400 → ea % 4 = 0 →
    exec (.stw c rs ra imm) s = .next (s.set c.die
      ((d.setData c ea (leBytes 4 (x.gr rs).toNat)).setCtx (ctxNum c) { x with pc := x.pc + 1 })))

/-- A load or store out of bounds or not aligned ends the invocation with MEM_BOUND (04 R91, 03 R64). -/
def Obligations.ForrekMemoryBounds : Prop :=
  (∀ (c : Ctx) (rd ra : GReg) (imm : BitVec 16) (s : State),
    let d := (s.get c.die).countIssue (ctxNum c)
    let x := d.ctx (ctxNum c)
    let ea := (x.gr ra + imm.signExtend 32).toNat
    (s.get c.die).issuable c (.ldb c rd ra imm) = true → (0x3400 ≤ ea ∨ ea % 1 ≠ 0) →
    exec (.ldb c rd ra imm) s = .next (s.set c.die
      (d.abort (ctxNum c) .memBound))) ∧
  (∀ (c : Ctx) (rd ra : GReg) (imm : BitVec 16) (s : State),
    let d := (s.get c.die).countIssue (ctxNum c)
    let x := d.ctx (ctxNum c)
    let ea := (x.gr ra + imm.signExtend 32).toNat
    (s.get c.die).issuable c (.ldh c rd ra imm) = true → (0x3400 ≤ ea ∨ ea % 2 ≠ 0) →
    exec (.ldh c rd ra imm) s = .next (s.set c.die
      (d.abort (ctxNum c) .memBound))) ∧
  (∀ (c : Ctx) (rd ra : GReg) (imm : BitVec 16) (s : State),
    let d := (s.get c.die).countIssue (ctxNum c)
    let x := d.ctx (ctxNum c)
    let ea := (x.gr ra + imm.signExtend 32).toNat
    (s.get c.die).issuable c (.ldw c rd ra imm) = true → (0x3400 ≤ ea ∨ ea % 4 ≠ 0) →
    exec (.ldw c rd ra imm) s = .next (s.set c.die
      (d.abort (ctxNum c) .memBound))) ∧
  (∀ (c : Ctx) (rd ra : GReg) (imm : BitVec 16) (s : State),
    let d := (s.get c.die).countIssue (ctxNum c)
    let x := d.ctx (ctxNum c)
    let ea := (x.gr ra + imm.signExtend 32).toNat
    (s.get c.die).issuable c (.ldbs c rd ra imm) = true → (0x3400 ≤ ea ∨ ea % 1 ≠ 0) →
    exec (.ldbs c rd ra imm) s = .next (s.set c.die
      (d.abort (ctxNum c) .memBound))) ∧
  (∀ (c : Ctx) (rd ra : GReg) (imm : BitVec 16) (s : State),
    let d := (s.get c.die).countIssue (ctxNum c)
    let x := d.ctx (ctxNum c)
    let ea := (x.gr ra + imm.signExtend 32).toNat
    (s.get c.die).issuable c (.ldhs c rd ra imm) = true → (0x3400 ≤ ea ∨ ea % 2 ≠ 0) →
    exec (.ldhs c rd ra imm) s = .next (s.set c.die
      (d.abort (ctxNum c) .memBound))) ∧
  (∀ (c : Ctx) (rd ra : GReg) (imm : BitVec 16) (s : State),
    let d := (s.get c.die).countIssue (ctxNum c)
    let x := d.ctx (ctxNum c)
    let ea := (x.gr ra + imm.signExtend 32).toNat
    (s.get c.die).issuable c (.stb c rd ra imm) = true → (0x3400 ≤ ea ∨ ea % 1 ≠ 0) →
    exec (.stb c rd ra imm) s = .next (s.set c.die
      (d.abort (ctxNum c) .memBound))) ∧
  (∀ (c : Ctx) (rd ra : GReg) (imm : BitVec 16) (s : State),
    let d := (s.get c.die).countIssue (ctxNum c)
    let x := d.ctx (ctxNum c)
    let ea := (x.gr ra + imm.signExtend 32).toNat
    (s.get c.die).issuable c (.sth c rd ra imm) = true → (0x3400 ≤ ea ∨ ea % 2 ≠ 0) →
    exec (.sth c rd ra imm) s = .next (s.set c.die
      (d.abort (ctxNum c) .memBound))) ∧
  (∀ (c : Ctx) (rd ra : GReg) (imm : BitVec 16) (s : State),
    let d := (s.get c.die).countIssue (ctxNum c)
    let x := d.ctx (ctxNum c)
    let ea := (x.gr ra + imm.signExtend 32).toNat
    (s.get c.die).issuable c (.stw c rd ra imm) = true → (0x3400 ≤ ea ∨ ea % 4 ≠ 0) →
    exec (.stw c rd ra imm) s = .next (s.set c.die
      (d.abort (ctxNum c) .memBound)))

/-- Fields, the cursor, frames, `emit` and the CRCs (04 R92 to R96, 03 R71, R72), where no cause ends the invocation.
`csetr` reads ra as unsigned (log 37). -/
def Obligations.ForrekFrameInstructions : Prop :=
  (∀ (c : Ctx) (rd : GReg) (src : FieldSrc) (pos : BitVec 11) (w1 : Fin 32) (o : BitOrder) (bs : List Byte) (s : State),
    let d := (s.get c.die).countIssue (ctxNum c)
    let x := d.ctx (ctxNum c)
    (s.get c.die).issuable c (.fext c rd src pos w1 o) = true → x.fieldBytes src pos.toNat (w1 + 1) = some bs →
    exec (.fext c rd src pos w1 o) s = .next (s.set c.die
      (d.retire c (x.setZn rd (BitVec.ofNat 32 (fieldOf bs o pos.toNat (w1 + 1))))))) ∧
  (∀ (c : Ctx) (rd : GReg) (src : FieldSrc) (pos : BitVec 11) (w1 : Fin 32) (o : BitOrder) (bs : List Byte) (s : State),
    let d := (s.get c.die).countIssue (ctxNum c)
    let x := d.ctx (ctxNum c)
    (s.get c.die).issuable c (.fexts c rd src pos w1 o) = true → x.fieldBytes src pos.toNat (w1 + 1) = some bs →
    exec (.fexts c rd src pos w1 o) s = .next (s.set c.die
      (d.retire c (x.setZn rd ((BitVec.ofNat (w1 + 1) (fieldOf bs o pos.toNat (w1 + 1))).signExtend 32))))) ∧
  (∀ (c : Ctx) (dst : FieldSrc) (pos : BitVec 11) (w1 : Fin 32) (rs : GReg) (o : BitOrder) (bs : List Byte) (s : State),
    let d := (s.get c.die).countIssue (ctxNum c)
    let x := d.ctx (ctxNum c)
    (s.get c.die).issuable c (.fins c dst pos w1 rs o) = true → x.fieldBytes dst pos.toNat (w1 + 1) = some bs →
    exec (.fins c dst pos w1 rs o) s = .next (s.set c.die
      (d.retire c (x.insertField dst o pos.toNat (w1 + 1) (x.gr rs).toNat)))) ∧
  (∀ (c : Ctx) (imm : BitVec 16) (s : State),
    let d := (s.get c.die).countIssue (ctxNum c)
    let x := d.ctx (ctxNum c)
    (s.get c.die).issuable c (.cset c imm) = true →
    exec (.cset c imm) s = .next (s.set c.die
      (d.retire c { x with cur := imm }))) ∧
  (∀ (c : Ctx) (imm : BitVec 16) (s : State),
    let d := (s.get c.die).countIssue (ctxNum c)
    let x := d.ctx (ctxNum c)
    (s.get c.die).issuable c (.cadd c imm) = true → 0 ≤ x.cur.toNat + imm.toInt → x.cur.toNat + imm.toInt < 65536 →
    exec (.cadd c imm) s = .next (s.set c.die
      (d.retire c { x with cur := BitVec.ofInt 16 (x.cur.toNat + imm.toInt) }))) ∧
  (∀ (c : Ctx) (ra : GReg) (imm : BitVec 16) (s : State),
    let d := (s.get c.die).countIssue (ctxNum c)
    let x := d.ctx (ctxNum c)
    (s.get c.die).issuable c (.csetr c ra imm) = true → 0 ≤ (x.gr ra).toNat + imm.toInt → (x.gr ra).toNat + imm.toInt < 65536 →
    exec (.csetr c ra imm) s = .next (s.set c.die
      (d.retire c { x with cur := BitVec.ofInt 16 ((x.gr ra).toNat + imm.toInt) }))) ∧
  (∀ (c : Ctx) (rd ra : GReg) (len : BitVec 16) (s : State),
    let d := (s.get c.die).countIssue (ctxNum c)
    let x := d.ctx (ctxNum c)
    let pool := d.rdAs x.tag ethRxcAPool 27 0
    let k := cellsOf (d.dataBytes c (x.gr ra).toNat len.toNat).length
    (s.get c.die).issuable c (.fnew c rd ra len) = true → (x.gr ra).toNat + len.toNat ≤ 0x3400 → d.hallOn .swc = true → x.held.length < 4 → d.sw.descUsed < 65536 → (d.takeIn 27 pool 0 k 0).1 = true →
    exec (.fnew c rd ra len) s = .next (s.set c.die
      (let p := (d.takeIn 27 pool 0 k 0).2.storeHeld { bytes := d.dataBytes c (x.gr ra).toNat len.toNat, port := 27, pool := pool, ingress := 27, cells := k, refs := 1, tag := x.tag }
       let f : EFrame := { bytes := d.dataBytes c (x.gr ra).toNat len.toNat, kind := .made, ingress := 27, tag := x.tag, desc := some p.1, origin := x.origin }
       let y := { x with held := x.held ++ [(p.2.eng.nextFd, f)], fd := some p.2.eng.nextFd, cur := 0 }
       ({ p.2 with eng := { p.2.eng with nextFd := p.2.eng.nextFd + 1 } } : DieState).retire c (y.setGr rd (fdWord x.fd))))) ∧
  (∀ (c : Ctx) (rd : GReg) (len : BitVec 16) (s : State),
    let d := (s.get c.die).countIssue (ctxNum c)
    let x := d.ctx (ctxNum c)
    let pool := d.rdAs x.tag ethRxcAPool 27 0
    let k := cellsOf (List.replicate len.toNat (0 : Byte)).length
    (s.get c.die).issuable c (.fnewz c rd len) = true → d.hallOn .swc = true → x.held.length < 4 → d.sw.descUsed < 65536 → (d.takeIn 27 pool 0 k 0).1 = true →
    exec (.fnewz c rd len) s = .next (s.set c.die
      (let p := (d.takeIn 27 pool 0 k 0).2.storeHeld { bytes := List.replicate len.toNat 0, port := 27, pool := pool, ingress := 27, cells := k, refs := 1, tag := x.tag }
       let f : EFrame := { bytes := List.replicate len.toNat 0, kind := .made, ingress := 27, tag := x.tag, desc := some p.1, origin := x.origin }
       let y := { x with held := x.held ++ [(p.2.eng.nextFd, f)], fd := some p.2.eng.nextFd, cur := 0 }
       ({ p.2 with eng := { p.2.eng with nextFd := p.2.eng.nextFd + 1 } } : DieState).retire c (y.setGr rd (fdWord x.fd))))) ∧
  (∀ (c : Ctx) (rd ra : GReg) (k : Option Nat) (s : State),
    let d := (s.get c.die).countIssue (ctxNum c)
    let x := d.ctx (ctxNum c)
    (s.get c.die).issuable c (.fswp c rd ra) = true → x.named (x.gr ra) = some k →
    exec (.fswp c rd ra) s = .next (s.set c.die
      (d.retire c { x.setGr rd (fdWord x.fd) with fd := k, cur := 0 }))) ∧
  (∀ (c : Ctx) (ra : GReg) (f : EFrame) (e : EmitWord) (s : State),
    let d := (s.get c.die).countIssue (ctxNum c)
    let x := d.ctx (ctxNum c)
    (s.get c.die).issuable c (.emit c ra) = true → x.frame = some f → emitWord (x.gr ra) = some e → e.fits f.kind = true → e.kind < 2 → d.hallOn .swc = true →
    exec (.emit c ra) s = .next (s.set c.die
      ((d.emitEth (ctxNum c) x f e).retire c { x.dropFd with emits := x.emits + 1 }))) ∧
  (∀ (c : Ctx) (ra : GReg) (f : EFrame) (e : EmitWord) (b : BusFrame) (s : State),
    let d := (s.get c.die).countIssue (ctxNum c)
    let x := d.ctx (ctxNum c)
    (s.get c.die).issuable c (.emit c ra) = true → x.frame = some f → emitWord (x.gr ra) = some e → e.fits f.kind = true → 2 ≤ e.kind →
    e.busFrame f.bytes = some b → d.hallOn .bus = true →
    exec (.emit c ra) s = .next (s.set c.die
      ((d.emitBus x f e b).retire c { x.dropFd with emits := x.emits + 1 }))) ∧
  (∀ (c : Ctx) (f : EFrame) (s : State),
    let d := (s.get c.die).countIssue (ctxNum c)
    let x := d.ctx (ctxNum c)
    (s.get c.die).issuable c (.ffree c) = true → x.frame = some f →
    exec (.ffree c) s = .next (s.set c.die
      ((d.consume f).retire c x.dropFd))) ∧
  (∀ (c : Ctx) (s : State),
    let d := (s.get c.die).countIssue (ctxNum c)
    let x := d.ctx (ctxNum c)
    (s.get c.die).issuable c (.ffree c) = true → x.frame = none →
    exec (.ffree c) s = .next (s.set c.die
      (d.retire c x))) ∧
  (∀ (c : Ctx) (ra : GReg) (f : EFrame) (s : State),
    let d := (s.get c.die).countIssue (ctxNum c)
    let x := d.ctx (ctxNum c)
    (s.get c.die).issuable c (.fsetlen c ra) = true → x.frame = some f → (x.gr ra).toNat ≤ f.bytes.length → f.kind ≠ .can → f.kind ≠ .lin →
    exec (.fsetlen c ra) s = .next (s.set c.die
      (d.retire c (x.onFd fun f => { f with bytes := f.bytes.take (x.gr ra).toNat })))) ∧
  (∀ (c : Ctx) (ra : GReg) (f : EFrame) (s : State),
    let d := (s.get c.die).countIssue (ctxNum c)
    let x := d.ctx (ctxNum c)
    (s.get c.die).issuable c (.fsetlen c ra) = true → x.frame = some f → (x.gr ra).toNat ≤ f.bytes.length → 16 ≤ (x.gr ra).toNat → (f.kind = .can ∨ f.kind = .lin) →
    exec (.fsetlen c ra) s = .next (s.set c.die
      (d.retire c (x.onFd fun f =>
        { f with bytes := f.bytes.take 6 ++ leBytes 2 ((x.gr ra).toNat - 16) ++ (f.bytes.take (x.gr ra).toNat).drop 8 })))) ∧
  (∀ (c : Ctx) (rd ra : GReg) (src : CrcSrc) (n1 : BitVec 11) (bs : List Byte) (s : State),
    let d := (s.get c.die).countIssue (ctxNum c)
    let x := d.ctx (ctxNum c)
    (s.get c.die).issuable c (.crc8 c rd ra src n1) = true → d.crcBytes c x src (n1.toNat + 1) = .ok bs →
    exec (.crc8 c rd ra src n1) s = .next (s.set c.die
      (let r := BitVec.ofNat 32 (crc8Of ((x.gr ra).toNat % 2 ^ 8) bs)
       d.retire c { x.setGr rd r with st := setSt x.st .z (decide (r = 0)) }))) ∧
  (∀ (c : Ctx) (rd ra : GReg) (src : CrcSrc) (n1 : BitVec 11) (bs : List Byte) (s : State),
    let d := (s.get c.die).countIssue (ctxNum c)
    let x := d.ctx (ctxNum c)
    (s.get c.die).issuable c (.crc16 c rd ra src n1) = true → d.crcBytes c x src (n1.toNat + 1) = .ok bs →
    exec (.crc16 c rd ra src n1) s = .next (s.set c.die
      (let r := BitVec.ofNat 32 (crc16Of ((x.gr ra).toNat % 2 ^ 16) bs)
       d.retire c { x.setGr rd r with st := setSt x.st .z (decide (r = 0)) }))) ∧
  (∀ (c : Ctx) (rd ra : GReg) (src : CrcSrc) (n1 : BitVec 11) (bs : List Byte) (s : State),
    let d := (s.get c.die).countIssue (ctxNum c)
    let x := d.ctx (ctxNum c)
    (s.get c.die).issuable c (.crc32c c rd ra src n1) = true → d.crcBytes c x src (n1.toNat + 1) = .ok bs →
    exec (.crc32c c rd ra src n1) s = .next (s.set c.die
      (let r := BitVec.ofNat 32 (crc32cOf (x.gr ra).toNat bs)
       d.retire c { x.setGr rd r with st := setSt x.st .z (decide (r = 0)) })))

/-- Gallery reads see every earlier write of their context; Gallery writes are issued and stall it (04 R97, R98); lookups and their results
(04 R99, 03 R68). -/
def Obligations.ForrekGalleryAndLookups : Prop :=
  (∀ (c : Ctx) (rd ra : GReg) (s : State),
    let d := (s.get c.die).countIssue (ctxNum c)
    let x := d.ctx (ctxNum c)
    let y := d.galCatchUp d.gal.pipe.length (ctxNum c)
    let t := y.galSlot ((x.gr ra).toNat % 65536)
    (s.get c.die).issuable c (.gget c rd ra) = true → d.galShut = none →
    exec (.gget c rd ra) s = .next (s.set c.die
      (y.retire c ((y.ctx (ctxNum c)).setGr rd t.value)))) ∧
  (∀ (c : Ctx) (rd ra : GReg) (s : State),
    let d := (s.get c.die).countIssue (ctxNum c)
    let x := d.ctx (ctxNum c)
    let y := d.galCatchUp d.gal.pipe.length (ctxNum c)
    let t := y.galSlot ((x.gr ra).toNat % 65536)
    (s.get c.die).issuable c (.ggets c rd ra) = true → d.galShut = none →
    exec (.ggets c rd ra) s = .next (s.set c.die
      (y.retire c ((y.ctx (ctxNum c)).setGr rd t.stamp)))) ∧
  (∀ (c : Ctx) (rd ra : GReg) (s : State),
    let d := (s.get c.die).countIssue (ctxNum c)
    let x := d.ctx (ctxNum c)
    let y := d.galCatchUp d.gal.pipe.length (ctxNum c)
    let t := y.galSlot ((x.gr ra).toNat % 65536)
    (s.get c.die).issuable c (.ggetm c rd ra) = true → d.galShut = none →
    exec (.ggetm c rd ra) s = .next (s.set c.die
      (y.retire c ((y.ctx (ctxNum c)).setGr rd (BitVec.ofNat 32 (t.seq % 65536 + t.status % 256 * 65536 + t.source % 256 * 2 ^ 24)))))) ∧
  (∀ (c : Ctx) (rd ra : GReg) (s : State),
    let d := (s.get c.die).countIssue (ctxNum c)
    let x := d.ctx (ctxNum c)
    let y := d.galCatchUp d.gal.pipe.length (ctxNum c)
    let t := y.galSlot ((x.gr ra).toNat % 65536)
    (s.get c.die).issuable c (.ggetp c rd ra) = true → d.galShut = none →
    exec (.ggetp c rd ra) s = .next (s.set c.die
      (y.retire c (((y.ctx (ctxNum c)).setGr rd t.value).setGr (rd.val + 1) t.stamp)))) ∧
  (∀ (c : Ctx) (ra rb rc : GReg) (s : State),
    let d := (s.get c.die).countIssue (ctxNum c)
    let x := d.ctx (ctxNum c)
    (s.get c.die).issuable c (.gput c ra rb rc) = true → d.galShut = none → (x.gr ra).toNat % 65536 + 1 ≤ 65536 →
    exec (.gput c ra rb rc) s = .next (s.set c.die
      ((d.setCtx (ctxNum c) { x with state := .stalled }).galIssue
        { pos := ctxCluster (ctxNum c), source := 8 + ctxCluster (ctxNum c), handle := (x.gr ra).toNat % 65536, op := .put [x.gr rb] (x.gr rc) 1,
          ctx := some (ctxNum c), origin := x.origin }))) ∧
  (∀ (c : Ctx) (ra rb rc : GReg) (k : Fin 32) (s : State),
    let d := (s.get c.die).countIssue (ctxNum c)
    let x := d.ctx (ctxNum c)
    (s.get c.die).issuable c (.gputn c ra rb rc k) = true → d.galShut = none → (x.gr ra).toNat % 65536 + (k.val + 1) ≤ 65536 →
    exec (.gputn c ra rb rc k) s = .next (s.set c.die
      ((d.setCtx (ctxNum c) { x with state := .stalled }).galIssue
        { pos := ctxCluster (ctxNum c), source := 8 + ctxCluster (ctxNum c), handle := (x.gr ra).toNat % 65536, op := .put (x.group rb (k + 1)) (x.gr rc) 1,
          ctx := some (ctxNum c), origin := x.origin }))) ∧
  (∀ (c : Ctx) (rd ra rb : GReg) (s : State),
    let d := (s.get c.die).countIssue (ctxNum c)
    let x := d.ctx (ctxNum c)
    (s.get c.die).issuable c (.gadd c rd ra rb) = true → d.galShut = none → (x.gr ra).toNat % 65536 + 1 ≤ 65536 →
    exec (.gadd c rd ra rb) s = .next (s.set c.die
      ((d.setCtx (ctxNum c) { x with state := .stalled }).galIssue
        { pos := ctxCluster (ctxNum c), source := 8 + ctxCluster (ctxNum c), handle := (x.gr ra).toNat % 65536, op := .add rd (x.gr rb),
          ctx := some (ctxNum c), origin := x.origin }))) ∧
  (∀ (c : Ctx) (rd ra rb rc : GReg) (s : State),
    let d := (s.get c.die).countIssue (ctxNum c)
    let x := d.ctx (ctxNum c)
    (s.get c.die).issuable c (.gcas c rd ra rb rc) = true → d.galShut = none → (x.gr ra).toNat % 65536 + 1 ≤ 65536 →
    exec (.gcas c rd ra rb rc) s = .next (s.set c.die
      ((d.setCtx (ctxNum c) { x with state := .stalled }).galIssue
        { pos := ctxCluster (ctxNum c), source := 8 + ctxCluster (ctxNum c), handle := (x.gr ra).toNat % 65536, op := .cas rd (x.gr rb) (x.gr rc),
          ctx := some (ctxNum c), origin := x.origin }))) ∧
  (∀ (c : Ctx) (ra : GReg) (table : Fin 8) (tag : Fin 4) (key : List Nat) (s : State),
    let d := (s.get c.die).countIssue (ctxNum c)
    let x := d.ctx (ctxNum c)
    (s.get c.die).issuable c (.lkp c ra table tag) = true → ((s.get c.die).ctx (ctxNum c)).lkpTag tag = .free →
    lookupKey table (x.gr ra).toNat (x.gr (ra + 1)).toNat = some key → d.hallOn (lkpHall table) = true →
    exec (.lkp c ra table tag) s = .next (s.set c.die
      (d.retire c (x.setTag tag (.busy table key))))) ∧
  (∀ (c : Ctx) (rd : GReg) (tag : Fin 4) (hit : Bool) (w0 w1 : Word) (s : State),
    let d := (s.get c.die).countIssue (ctxNum c)
    let x := d.ctx (ctxNum c)
    (s.get c.die).issuable c (.lwait c rd tag) = true → ((s.get c.die).ctx (ctxNum c)).lkpTag tag = .done hit w0 w1 → x.lkpTag tag = .done hit w0 w1 →
    exec (.lwait c rd tag) s = .next (s.set c.die
      (d.retire c { ((x.setTag tag .free).setGr rd w0).setGr (rd.val + 1) w1 with st := setSt x.st .hit hit }))) ∧
  (∀ (c : Ctx) (tag : Fin 4) (t : Nat) (key : List Nat) (s : State),
    let d := s.get c.die
    let x := d.ctx (ctxNum c)
    x.lkpTag tag = .busy t key → d.lkpOn t = true →
    exec (.lookupResult c tag) s = .next (s.set c.die
      (let r := if t < 5 then d.lkpAnswer x.tag t key else d.routeAnswer x.tag t key
       (d.lkpReads t key).setCtx (ctxNum c) (x.setTag tag (.done r.1 (BitVec.ofNat 32 r.2.1) (BitVec.ofNat 32 r.2.2))))))

/-- Queue blocks, mailboxes, events, cipher jobs, timers and special registers (04 R100 to R104), where no cause ends the invocation.
A mailbox of which the cluster is no end is log 38's. -/
def Obligations.ForrekServiceInstructions : Prop :=
  (∀ (c : Ctx) (ra rb : GReg) (k : Fin 8) (s : State),
    let d := (s.get c.die).countIssue (ctxNum c)
    let x := d.ctx (ctxNum c)
    (s.get c.die).issuable c (.qput c ra rb k) = true → (x.gr ra).toNat ≤ 63 → d.hallOn .host = true →
    exec (.qput c ra rb k) s = .next (s.set c.die
      (let p := d.qbWrite (x.gr ra).toNat (x.group rb (k + 1))
       p.2.retire c { x with st := setSt x.st .fail !p.1 }))) ∧
  (∀ (c : Ctx) (rd ra : GReg) (k : Fin 8) (s : State),
    let d := (s.get c.die).countIssue (ctxNum c)
    let x := d.ctx (ctxNum c)
    (s.get c.die).issuable c (.qget c rd ra k) = true → (x.gr ra).toNat ≤ 63 → d.hallOn .host = true → d.bit qbkCfgAEn (x.gr ra).toNat = true → k.val + 1 ≤ d.qbUnread (x.gr ra).toNat →
    exec (.qget c rd ra k) s = .next (s.set c.die
      ((d.qbTake (x.gr ra).toNat (k.val + 1)).retire c
        { x.setGroup rd ((List.range (k.val + 1)).map fun i => d.qbWord (x.gr ra).toNat i) with st := setSt x.st .fail false }))) ∧
  (∀ (c : Ctx) (rd ra : GReg) (k : Fin 8) (s : State),
    let d := (s.get c.die).countIssue (ctxNum c)
    let x := d.ctx (ctxNum c)
    (s.get c.die).issuable c (.qget c rd ra k) = true → (x.gr ra).toNat ≤ 63 → d.hallOn .host = true → d.qbUnread (x.gr ra).toNat < k.val + 1 →
    exec (.qget c rd ra k) s = .next (s.set c.die
      (d.retire c { x.setGroup rd (List.replicate (k.val + 1) 0) with st := setSt x.st .fail true }))) ∧
  (∀ (c : Ctx) (ra rb : GReg) (k : Fin 8) (e : Nat) (s : State),
    let d := (s.get c.die).countIssue (ctxNum c)
    let x := d.ctx (ctxNum c)
    (s.get c.die).issuable c (.mbput c ra rb k false) = true → (x.gr ra).toNat ≤ 15 → d.hallOn .host = true →
    (8 ≤ (x.gr ra).toNat ∨ (d.rd sysSecCfgFc).testBit (ctxCluster (ctxNum c)) = true) →
    d.mbEnd (x.gr ra).toNat (8 + ctxCluster (ctxNum c)) = some e →
    exec (.mbput c ra rb k false) s = .next (s.set c.die
      (let p := d.mbSend (x.gr ra).toNat e (x.group rb (k + 1))
       p.2.retire c { x with st := setSt x.st .fail !p.1 }))) ∧
  (∀ (c : Ctx) (ra rb : GReg) (k : Fin 8) (e : Nat) (s : State),
    let d := (s.get c.die).countIssue (ctxNum c)
    let x := d.ctx (ctxNum c)
    (s.get c.die).issuable c (.mbput c ra rb k true) = true → (x.gr ra).toNat ≤ 15 → d.hallOn .host = true →
    (8 ≤ (x.gr ra).toNat ∨ (d.rd sysSecCfgFc).testBit (ctxCluster (ctxNum c)) = true) →
    d.mbEnd (x.gr ra).toNat (8 + ctxCluster (ctxNum c)) = some e → (d.mbSend (x.gr ra).toNat e (x.group rb (k + 1))).1 = true →
    exec (.mbput c ra rb k true) s = .next (s.set c.die
      (((d.mbSend (x.gr ra).toNat e (x.group rb (k + 1))).2.retire c { x with st := setSt x.st .fail false }).mbNotify (x.gr ra).toNat (1 - e)
        (BitVec.ofNat 32 (k + 1))))) ∧
  (∀ (c : Ctx) (rd ra : GReg) (k : Fin 8) (e : Nat) (ws : List Word) (y : DieState) (s : State),
    let d := (s.get c.die).countIssue (ctxNum c)
    let x := d.ctx (ctxNum c)
    (s.get c.die).issuable c (.mbget c rd ra k) = true → (x.gr ra).toNat ≤ 15 → d.hallOn .host = true →
    (8 ≤ (x.gr ra).toNat ∨ (d.rd sysSecCfgFc).testBit (ctxCluster (ctxNum c)) = true) →
    d.mbEnd (x.gr ra).toNat (8 + ctxCluster (ctxNum c)) = some e → d.mbTake (x.gr ra).toNat e (k + 1) = some (ws, y) →
    exec (.mbget c rd ra k) s = .next (s.set c.die
      (y.retire c { x.setGroup rd ws with st := setSt x.st .fail false }))) ∧
  (∀ (c : Ctx) (ra : GReg) (code : BitVec 7) (s : State),
    let d := (s.get c.die).countIssue (ctxNum c)
    let x := d.ctx (ctxNum c)
    (s.get c.die).issuable c (.raise c ra code) = true →
    exec (.raise c ra code) s = .next (s.set c.die
      ((d.retire c x).raise (0x0780 + code.toNat) (x.gr ra).toNat (ctxCluster (ctxNum c))))) ∧
  (∀ (c : Ctx) (rd ra : GReg) (n : Nat) (y : DieState) (s : State),
    let d := (s.get c.die).countIssue (ctxNum c)
    let x := d.ctx (ctxNum c)
    (s.get c.die).issuable c (.cjob c rd ra) = true → (x.gr ra).toNat + 32 ≤ 0x3400 → (x.gr ra).toNat % 4 = 0 → d.hallOn .engA = true →
    d.cipIssue (8 + ctxCluster (ctxNum c)) ((d.rd sysSecCfgFc).testBit (ctxCluster (ctxNum c))) (some (ctxCluster (ctxNum c)))
      (wordsOf (d.dataBytes c (x.gr ra).toNat 32)) = some (n, y) →
    exec (.cjob c rd ra) s = .next (s.set c.die
      (y.retire c { x.setGr rd (BitVec.ofNat 32 n) with st := setSt x.st .busy false }))) ∧
  (∀ (c : Ctx) (ra rd : GReg) (entry : Byte) (s : State),
    let d := (s.get c.die).countIssue (ctxNum c)
    let x := d.ctx (ctxNum c)
    (s.get c.die).issuable c (.tarm c ra rd entry) = true → (x.gr ra).toNat < d.rdAs x.tag fkeEtRangeCount (ctxCluster (ctxNum c)) → d.usable d.gen (ctxCluster (ctxNum c)) entry.toNat = true →
    exec (.tarm c ra rd entry) s = .next (s.set c.die
      (let t := d.rdAs x.tag fkeEtRangeBase (ctxCluster (ctxNum c)) + (x.gr ra).toNat
       let e : ETimer := { deadline := x.gr rd, entry := entry.toNat, cluster := ctxCluster (ctxNum c) }
       ({ d with eng := { d.eng with timers := Tab.insert d.eng.timers t e } } : DieState).retire c x))) ∧
  (∀ (c : Ctx) (ra : GReg) (s : State),
    let d := (s.get c.die).countIssue (ctxNum c)
    let x := d.ctx (ctxNum c)
    (s.get c.die).issuable c (.tdis c ra) = true → (x.gr ra).toNat < d.rdAs x.tag fkeEtRangeCount (ctxCluster (ctxNum c)) →
    exec (.tdis c ra) s = .next (s.set c.die
      (let t := d.rdAs x.tag fkeEtRangeBase (ctxCluster (ctxNum c)) + (x.gr ra).toNat
       ({ d with eng := { d.eng with timers := Tab.erase d.eng.timers t } } : DieState).retire c x))) ∧
  (∀ (c : Ctx) (rd : GReg) (n : Fin 8) (s : State),
    let d := (s.get c.die).countIssue (ctxNum c)
    let x := d.ctx (ctxNum c)
    (s.get c.die).issuable c (.tget c rd n) = true →
    exec (.tget c rd n) s = .next (s.set c.die
      (d.retire c (x.setGr rd (BitVec.ofNat 32 (d.stamp n)))))) ∧
  (∀ (c : Ctx) (ra : GReg) (s : State),
    let d := (s.get c.die).countIssue (ctxNum c)
    let x := d.ctx (ctxNum c)
    (s.get c.die).issuable c (.mts c 1 ra) = true →
    exec (.mts c 1 ra) s = .next (s.set c.die
      (d.retire c { x with lk := (x.gr ra).truncate 15 }))) ∧
  (∀ (c : Ctx) (ra : GReg) (s : State),
    let d := (s.get c.die).countIssue (ctxNum c)
    let x := d.ctx (ctxNum c)
    (s.get c.die).issuable c (.mts c 2 ra) = true → (x.gr ra).toNat < 65536 →
    exec (.mts c 2 ra) s = .next (s.set c.die
      (d.retire c { x with cur := BitVec.ofNat 16 (x.gr ra).toNat }))) ∧
  (∀ (c : Ctx) (ra : GReg) (s : State),
    let d := (s.get c.die).countIssue (ctxNum c)
    let x := d.ctx (ctxNum c)
    (s.get c.die).issuable c (.mts c 5 ra) = true →
    exec (.mts c 5 ra) s = .next (s.set c.die
      (d.retire c { x with st := (x.gr ra).truncate 16 &&& 0x1FF })))

/-- Branches, jumps, the end of an invocation, `rel`, waits, `yield` and `trap` (04 R106 to R108), and an undefined encoding (R85). -/
def Obligations.ForrekControlInstructions : Prop :=
  (∀ (c : Ctx) (ra rb : GReg) (off : BitVec 15) (s : State),
    let d := (s.get c.die).countIssue (ctxNum c)
    let x := d.ctx (ctxNum c)
    (s.get c.die).issuable c (.beq c ra rb off) = true →
    exec (.beq c ra rb off) s = .next (s.set c.die
      (d.setCtx (ctxNum c) { x with pc := if x.gr ra = x.gr rb then x.pc + off else x.pc + 1 }))) ∧
  (∀ (c : Ctx) (ra rb : GReg) (off : BitVec 15) (s : State),
    let d := (s.get c.die).countIssue (ctxNum c)
    let x := d.ctx (ctxNum c)
    (s.get c.die).issuable c (.bne c ra rb off) = true →
    exec (.bne c ra rb off) s = .next (s.set c.die
      (d.setCtx (ctxNum c) { x with pc := if x.gr ra ≠ x.gr rb then x.pc + off else x.pc + 1 }))) ∧
  (∀ (c : Ctx) (ra rb : GReg) (off : BitVec 15) (s : State),
    let d := (s.get c.die).countIssue (ctxNum c)
    let x := d.ctx (ctxNum c)
    (s.get c.die).issuable c (.blt c ra rb off) = true →
    exec (.blt c ra rb off) s = .next (s.set c.die
      (d.setCtx (ctxNum c) { x with pc := if (x.gr ra).toInt < (x.gr rb).toInt then x.pc + off else x.pc + 1 }))) ∧
  (∀ (c : Ctx) (ra rb : GReg) (off : BitVec 15) (s : State),
    let d := (s.get c.die).countIssue (ctxNum c)
    let x := d.ctx (ctxNum c)
    (s.get c.die).issuable c (.bge c ra rb off) = true →
    exec (.bge c ra rb off) s = .next (s.set c.die
      (d.setCtx (ctxNum c) { x with pc := if (x.gr rb).toInt ≤ (x.gr ra).toInt then x.pc + off else x.pc + 1 }))) ∧
  (∀ (c : Ctx) (ra rb : GReg) (off : BitVec 15) (s : State),
    let d := (s.get c.die).countIssue (ctxNum c)
    let x := d.ctx (ctxNum c)
    (s.get c.die).issuable c (.bltu c ra rb off) = true →
    exec (.bltu c ra rb off) s = .next (s.set c.die
      (d.setCtx (ctxNum c) { x with pc := if (x.gr ra).toNat < (x.gr rb).toNat then x.pc + off else x.pc + 1 }))) ∧
  (∀ (c : Ctx) (ra rb : GReg) (off : BitVec 15) (s : State),
    let d := (s.get c.die).countIssue (ctxNum c)
    let x := d.ctx (ctxNum c)
    (s.get c.die).issuable c (.bgeu c ra rb off) = true →
    exec (.bgeu c ra rb off) s = .next (s.set c.die
      (d.setCtx (ctxNum c) { x with pc := if (x.gr rb).toNat ≤ (x.gr ra).toNat then x.pc + off else x.pc + 1 }))) ∧
  (∀ (c : Ctx) (bit : GReg) (off : BitVec 15) (s : State),
    let d := (s.get c.die).countIssue (ctxNum c)
    let x := d.ctx (ctxNum c)
    (s.get c.die).issuable c (.bfs c bit off) = true →
    exec (.bfs c bit off) s = .next (s.set c.die
      (d.setCtx (ctxNum c) { x with pc := if x.st.getLsbD bit = true then x.pc + off else x.pc + 1 }))) ∧
  (∀ (c : Ctx) (bit : GReg) (off : BitVec 15) (s : State),
    let d := (s.get c.die).countIssue (ctxNum c)
    let x := d.ctx (ctxNum c)
    (s.get c.die).issuable c (.bfc c bit off) = true →
    exec (.bfc c bit off) s = .next (s.set c.die
      (d.setCtx (ctxNum c) { x with pc := if x.st.getLsbD bit = false then x.pc + off else x.pc + 1 }))) ∧
  (∀ (c : Ctx) (tgt : BitVec 15) (s : State),
    let d := (s.get c.die).countIssue (ctxNum c)
    let x := d.ctx (ctxNum c)
    (s.get c.die).issuable c (.jmp c tgt) = true →
    exec (.jmp c tgt) s = .next (s.set c.die
      (d.setCtx (ctxNum c) { x with pc := tgt }))) ∧
  (∀ (c : Ctx) (tgt : BitVec 15) (s : State),
    let d := (s.get c.die).countIssue (ctxNum c)
    let x := d.ctx (ctxNum c)
    (s.get c.die).issuable c (.jal c tgt) = true →
    exec (.jal c tgt) s = .next (s.set c.die
      (d.setCtx (ctxNum c) { x with lk := x.pc + 1, pc := tgt }))) ∧
  (∀ (c : Ctx) (ra : GReg) (s : State),
    let d := (s.get c.die).countIssue (ctxNum c)
    let x := d.ctx (ctxNum c)
    (s.get c.die).issuable c (.jr c ra) = true →
    exec (.jr c ra) s = .next (s.set c.die
      (d.setCtx (ctxNum c) { x with pc := (x.gr ra).truncate 15 }))) ∧
  (∀ (c : Ctx) (s : State),
    let d := (s.get c.die).countIssue (ctxNum c)
    let x := d.ctx (ctxNum c)
    (s.get c.die).issuable c (.ret c) = true →
    exec (.ret c) s = .next (s.set c.die
      (d.setCtx (ctxNum c) { x with pc := x.lk }))) ∧
  (∀ (c : Ctx) (s : State),
    let d := (s.get c.die).countIssue (ctxNum c)
    let x := d.ctx (ctxNum c)
    (s.get c.die).issuable c (.endInv c) = true →
    exec (.endInv c) s = .next (s.set c.die
      ((x.held.foldl (fun d p => d.consume p.2) d).setCtx (ctxNum c)
        { x with held := [], fd := none, arrived := none, tags := Vector.replicate 4 .free, state := .ending }))) ∧
  (∀ (c : Ctx) (s : State),
    let d := (s.get c.die).countIssue (ctxNum c)
    let x := d.ctx (ctxNum c)
    (s.get c.die).issuable c (.rel c) = true → x.lock ≠ none →
    exec (.rel c) s = .next (s.set c.die
      (d.setCtx (ctxNum c) { x with fl := x.fl &&& 0x7FFF, relReq := true, released := true, pc := x.pc + 1 }))) ∧
  (∀ (c : Ctx) (s : State),
    let d := (s.get c.die).countIssue (ctxNum c)
    let x := d.ctx (ctxNum c)
    (s.get c.die).issuable c (.yield c) = true →
    exec (.yield c) s = .next (s.set c.die
      (d.setCtx (ctxNum c) { x with yields := d.readyOthers (ctxNum c), pc := x.pc + 1 }))) ∧
  (∀ (c : Ctx) (s : State),
    let d := (s.get c.die).countIssue (ctxNum c)
    let x := d.ctx (ctxNum c)
    (s.get c.die).issuable c (.waitPost c) = true →
    exec (.waitPost c) s = .next (s.set c.die
      (d.setCtx (ctxNum c) { x with state := .waitPost, pc := x.pc + 1 }))) ∧
  (∀ (c : Ctx) (ra : GReg) (s : State),
    let d := (s.get c.die).countIssue (ctxNum c)
    let x := d.ctx (ctxNum c)
    (s.get c.die).issuable c (.waitTime c ra) = true →
    exec (.waitTime c ra) s = .next (s.set c.die
      (d.setCtx (ctxNum c) { x with state := .waitTime (x.gr ra), pc := x.pc + 1 }))) ∧
  (∀ (c : Ctx) (code : Byte) (s : State),
    let d := (s.get c.die).countIssue (ctxNum c)
    let x := d.ctx (ctxNum c)
    (s.get c.die).issuable c (.trap c code) = true →
    exec (.trap c code) s = .next (s.set c.die
      (d.abort (ctxNum c) (.trap code.toNat)))) ∧
  (∀ (c : Ctx) (s : State),
    let d := s.get c.die
    d.mayIssue (ctxNum c) = true → d.aboveTop (ctxNum c) = false → forrekDecode c (d.fetchCode (ctxNum c)) = none →
    d.overLimit (ctxNum c) = false →
    exec (.undefinedEncoding c) s = .next (s.set c.die ((d.countIssue (ctxNum c)).abort (ctxNum c) .badOpcode)))

/-- Dispatch, residence, locks, waits, timers, code memory and the reset of clusters (03 R56, R57, R61, R65, R73, R76, R80, 04 R108).
The flow-lock hash is log 14's. -/
def Obligations.EngineCommandsComplete : Prop :=
  (∀ (i : Die) (cl : Fin 4) (e : EngEvent) (lock : Option Nat) (g n : Nat) (s : State),
    let d := s.get i
    d.hallOn (hallOfCluster cl) = true → (d.cluster cl).fenced = false → d.pickEvent cl (d.cluster cl).evq [] = some (e, lock) →
    (arbiter 8 (d.cluster cl).ptr fun e => (d.freeContext (8 * cl + e)).isSome) = some g → d.freeContext (8 * cl + g) = some n →
    exec (.eventDispatch i cl) s = .next (s.set i
      (let locks := match lock with
         | some k => Tab.insert (d.cluster cl).locks k n
         | none => (d.cluster cl).locks
       let x := d.onCluster cl fun c => { c with evq := c.evq.erase e, ptr := (g + 1) % 8, locks := locks }
       let y : DieState := { x with eng := { x.eng with nextFd := d.eng.nextFd + 1 } }
       (y.setCtx n (d.bind cl e lock d.eng.nextFd)).cnt fkeInvoked (8 * cl + g)))) ∧
  (∀ (c : Ctx) (s : State),
    let d := s.get c.die
    let x := d.ctx (ctxNum c)
    x.state ≠ .free → x.state ≠ .ending → x.since + 1000 * d.rdAs x.tag fkeReside (ctxCluster (ctxNum c)) ≤ d.now →
    exec (.residenceExpiry c) s = .next (s.set c.die (d.abort (ctxNum c) .residence))) ∧
  (∀ (c : Ctx) (s : State),
    let d := s.get c.die
    (d.ctx (ctxNum c)).state = .ending → d.emitsOpen (ctxNum c) false = false →
    exec (.lockRelease c) s = .next (s.set c.die (d.freeCtx (ctxNum c)))) ∧
  (∀ (c : Ctx) (s : State),
    let d := s.get c.die
    (d.ctx (ctxNum c)).state ≠ .ending → (d.ctx (ctxNum c)).relReq = true → d.emitsOpen (ctxNum c) true = false →
    exec (.lockRelease c) s = .next (s.set c.die (d.unlock (ctxNum c)))) ∧
  (∀ (c : Ctx) (s : State),
    let d := s.get c.die
    let x := d.ctx (ctxNum c)
    x.state = .waitPost → d.emitsOpen (ctxNum c) false = false → d.putsOpen (ctxNum c) = false →
    exec (.contextWaitEnd c) s = .next (s.set c.die (d.setCtx (ctxNum c) { x with state := .ready }))) ∧
  (∀ (c : Ctx) (t : Word) (s : State),
    let d := s.get c.die
    let x := d.ctx (ctxNum c)
    x.state = .waitTime t → 0 ≤ stampDiff (d.stamp (d.rdAs x.tag fkeEtRangeTb (ctxCluster (ctxNum c)))) t.toNat →
    exec (.contextWaitEnd c) s = .next (s.set c.die (d.setCtx (ctxNum c) { x with state := .ready }))) ∧
  (∀ (i : Die) (t : Fin 256) (x : ETimer) (s : State),
    let d := s.get i
    Tab.get? d.eng.timers t = some x → 0 ≤ stampDiff (d.stamp (d.rd fkeEtRangeTb x.cluster)) x.deadline.toNat →
    exec (.engineTimerFire i t) s = .next (s.set i
      (({ d with eng := { d.eng with timers := Tab.erase d.eng.timers t } } : DieState).engineEvent x.cluster
        { typ := 3, entry := x.entry, cls := 7, unit := t, w1 := t, w2 := x.deadline.toNat,
          origin := 0x81 * 2 ^ 56 + t * 2 ^ 32 + x.deadline.toNat }))) ∧
  (∀ (a : Acc) (cl : Fin 4) (index : BitVec 15) (w : Word) (s : State),
    let d := s.get a.die
    let x := d.complete a.req (0x30000000 + 0x20000 * cl + 4 * index.toNat) .okay
    d.debugShut a.req = false → d.hallOn (hallOfCluster cl) = true →
    exec (.engineCodeWrite a cl index w) s = .next (s.set a.die
      { x with eng := { x.eng with code := Tab.put 0 x.eng.code (32768 * cl + index.toNat) w } })) ∧
  (∀ (a : Acc) (v : Word) (s : State),
    let d := s.get a.die
    let r (n : Nat) (x : DieState) : DieState := if v.getLsbD n then x.clusterReset n else x
    d.regStatus a.req 7 0 8 true = .okay →
    exec (.clusterReset a v) s = .next (s.set a.die
      (r 3 (r 2 (r 1 (r 0 ((d.complete a.req (regAddr 7 8) .okay).writeFields 7 (regChan 7 0 (reqCopy a.req) 8) 8 v)))))))

/-- The Gallery: the end of its clearing, bindings, its write pipeline, host writes and freshness marks (05 R113, R114, R116, R117, R119,
R121 to R123). -/
def Obligations.GalleryCommandsComplete : Prop :=
  (∀ (i : Die) (s : State), (s.get i).hallOn .engA = true →
    exec (.galleryClearDone i) s = .next (s.set i ((s.get i).wr galStat 0))) ∧
  (∀ (a : Acc) (h : BitVec 16) (v : Word) (s : State),
    let d := s.get a.die
    let x := d.complete a.req (0x20000000 + 16 * h.toNat + 12) .okay
    d.debugShut a.req = false → d.secure a.req = true → d.galShut = none → d.commitOpen = true →
    (d.gal.bind.length < 4096 ∨ (d.gal.bind.any fun e => decide (e.1 = h.toNat)) = true) →
    exec (.bindingWrite a h v) s = .next (s.set a.die
      { x with gal := { x.gal with bind := (x.gal.bind.filter fun e => decide (e.1 ≠ h.toNat)) ++ [(h.toNat, v.toNat % 2 ^ 24)] } })) ∧
  (∀ (i : Die) (p : Nat) (r : GalReq) (s : State),
    let d := s.get i
    d.galOpen = true → d.gal.pipe.length < 32 → (arbiter 8 d.gal.ptr fun p => d.gal.req.any fun r => decide (r.pos = p)) = some p →
    (d.gal.req.find? fun r => decide (r.pos = p)) = some r →
    exec (.galleryPipelineEntry i) s = .next (s.set i
      (({ d with gal := { d.gal with req := d.gal.req.erase r, ptr := (p + 1) % 8 } } : DieState).galEnter r))) ∧
  (∀ (i : Die) (r : GalReq) (rest : List GalReq) (vals : List Word) (stamp : Word) (status : Nat) (s : State),
    let d := s.get i
    let x : DieState := { d with gal := { d.gal with pipe := rest } }
    d.galOpen = true → d.gal.pipe = r :: rest → r.op = .put vals stamp status →
    (r.handles.find? fun h => !(x.galSlot h).passes stamp) = none →
    exec (.galleryWriteApply i) s = .next (s.set i
      (let y := (r.handles.zip vals).foldl (fun d p => d.galUpdate p.1 p.2 stamp status r.source) x
       ((r.handles.map fun h => (h, x.galSlot h)).foldl (fun d p => d.galUpdated p.1 p.2 r.origin) y).hostOutcome r .done))) ∧
  (∀ (i : Die) (r : GalReq) (rest : List GalReq) (rd : Nat) (a : Word) (s : State),
    let d := s.get i
    let x : DieState := { d with gal := { d.gal with pipe := rest } }
    d.galOpen = true → d.gal.pipe = r :: rest → r.op = .add rd a →
    exec (.galleryWriteApply i) s = .next (s.set i
      ((x.galAtomic r ((x.galSlot r.handle).value + a)).galReturn r rd (x.galSlot r.handle).value none))) ∧
  (∀ (a : Acc) (h : BitVec 16) (v stamp : Word) (s : State),
    let d := s.get a.die
    let x := (d.waitAcc a.req (0x20000000 + 16 * h.toNat) true).2
    let p : HostPut := { req := a.req, addr := 0x20000000 + 16 * h.toNat, tag := d.bus.nextTag, posted := false }
    d.debugShut a.req = false → d.galShut = none →
    exec (.hostPut a h v stamp) s = .next (s.set a.die
      (x.galIssue { pos := writerPos (reqId a.req), source := reqId a.req, handle := h.toNat, op := .put [v] stamp 1, host := some p }))) ∧
  (∀ (a : Acc) (v : Word) (s : State),
    let d := s.get a.die
    let c := reqCopy a.req
    let x := (d.complete a.req (regAddr 8 0x200) .okay).writeFields 8 (regChan 8 0 c 0x200) 0x200 v
    let n := x.rd galHgCtlCount c + 1
    d.regStatus a.req 8 0 0x200 true = .okay → v.msb = true → x.galOpen = true → x.bit galHgStatBusy c = false →
    x.rd galHgCtlBase c + n ≤ 65536 →
    exec (.hostGroupWrite a v) s = .next (s.set a.die
      (x.galIssue { pos := writerPos (reqId a.req), source := reqId a.req, handle := x.rd galHgCtlBase c, group := true,
                    host := some { req := a.req }, op := .put ((List.range n).map fun k => BitVec.ofNat 32 (x.rd galHgVal c k))
                      (BitVec.ofNat 32 (x.rd galHgStamp c)) 1 }))) ∧
  (∀ (i : Die) (h : BitVec 16) (t : Nat) (s : State),
    let d := s.get i
    Tab.get? d.gal.deadline h.toNat = some t → d.galOpen = true → t ≤ d.now → d.firstDue h.toNat t = true →
    exec (.freshnessMark i h) s = .next (s.set i (d.galMark h.toNat t)))

/-- The direct routes: the pipeline, token buckets, talkers, IEEE 1722 ingress, Signal PDU import (05 R127 to R137) and the slots of the
quarantine (17 R433).
Message layouts and the ingress position are the model's (logs 30, 31, 32). -/
def Obligations.RouteCommandsComplete : Prop :=
  (∀ (i : Die) (ch : Fin 40) (f : BusFrame) (stamp : Word) (s : State),
    let d := s.get i
    d.hallOn .bus = true → d.fences.contains 73 = false → d.rte.fifo.length < 256 →
    exec (.routePipelineEntry i ch f stamp) s = .next (s.set i
      { d with rte := { d.rte with fifo := d.rte.fifo ++ [{ ch := ch, frame := f, stamp := stamp.toNat, tag := d.gen }] } })) ∧
  (∀ (i : Die) (f : RFrame) (rest : List RFrame) (s : State),
    let d := s.get i
    let y : DieState := { d with rte := { d.rte with fifo := rest } }
    let x := if f.frame.ide then y.ueReads 6 (y.badEntries 6) else y
    d.rte.fifo = f :: rest → d.hallOn .bus = true → f.handle = none → y.handleOf f.tag f.ch f.frame = none →
    x.bitAs f.tag brgWinBMissq 0 f.ch = false →
    exec (.routeFrameProcess i) s = .next (s.set i (x.cnt brgCntNoRoute 0 f.ch))) ∧
  (∀ (i : Die) (f : RFrame) (rest : List RFrame) (h k : Nat) (s : State),
    let d := s.get i
    let x : DieState := { d with rte := { d.rte with fifo := rest } }
    d.rte.fifo = f :: rest → d.hallOn .bus = true → f.handle = some h → x.quarantined f.ch h = some k →
    exec (.routeFrameProcess i) s = .next (s.set i (x.cnt prtQtB 0 k))) ∧
  (∀ (i : Die) (f : RFrame) (rest : List RFrame) (h : Nat) (s : State),
    let d := s.get i
    let z : DieState := { d with rte := { d.rte with fifo := rest } }
    let y := if f.frame.ide then z.ueReads 6 (z.badEntries 6) else z
    let x := y.ueRead 5 h
    let r := routeOf (x.entryAs f.tag 5 h)
    let cans := (List.range 32).filter fun c => r.candest.testBit c && decide (c ≠ f.ch)
    let lins := (List.range 8).filter fun l => r.lindest.testBit l && decide (32 + l ≠ f.ch)
    let pay := shownOf f.frame
    d.rte.fifo = f :: rest → d.hallOn .bus = true → f.handle = none → z.handleOf f.tag f.ch f.frame = some h →
    y.quarantined f.ch h = none →
    x.routeUsable f.tag (x.entryAs f.tag 5 h) = true → r.sec = 0 → r.bucket = none → r.gcap = false →
    r.sizeOk f.frame cans lins pay.length (fun c => x.linLen f.tag c (if r.keep then f.frame.id.toNat % 64 else r.newid % 64)) = true →
    exec (.routeFrameProcess i) s = .next (s.set i
      (x.routeDeliver f r cans lins pay (r.output f.frame (r.field f.frame pay 0))))) ∧
  (∀ (i : Die) (n : Fin 4096) (s : State),
    let d := s.get i
    let t := Tab.get 0 d.rte.bucket n
    let k := (d.now / 1000 - t / 1000) / d.rd brgBkAInterval 0 n
    let x := d.wr brgBkBLevel (min (d.rd brgBkADepth 0 n) (d.rd brgBkBLevel 0 n + k)) 0 n
    d.hallOn .bus = true → k ≠ 0 →
    exec (.tokenAdd i n) s = .next (s.set i
      { x with rte := { x.rte with bucket := Tab.insert x.rte.bucket n (t + k * d.rd brgBkAInterval 0 n * 1000) } })) ∧
  (∀ (i : Die) (t : Fin 256) (m : TkMsg) (rest : List TkMsg) (s : State),
    let d := s.get i
    let x := d.talker t
    let y := ((d.setTalker t {}).cnt brgTkG 0 t).cnt brgTkH 0 t
    d.hallOn .bus = true → x.msgs = m :: rest → x.first + 1000 * d.rdAs x.tag brgTkB 0 t ≤ d.now →
    ¬ (d.pairMode = 1 ∧ (d.role = 2 ∨ d.role = 4)) → y.hallOn .swc = true →
    exec (.talkerHoldExpiry i t) s = .next (s.set i
      (y.sendMade (d.rdAs x.tag brgTkAPort 0 t) (d.rdAs x.tag brgTkATc 0 t) x.tag (d.ntscf x.tag t (m :: rest)) m.origin none))) ∧
  (∀ (i : Die) (port : Fin 29) (f : Ieee1722) (stamp : Word) (s : State),
    let x := ((s.get i).newOrigin port 0).2
    (s.get i).hallOn .bus = true → (f.subtype = 0x82 ∨ f.subtype = 0x05) → x.streamEntry f.streamId = none →
    exec (.ieee1722Ingress i port f stamp) s = .next (s.set i (x.cnt brgStreamMiss))) ∧
  (∀ (i : Die) (port : Fin 29) (f : Ieee1722) (stamp : Word) (k : Nat) (s : State),
    let o := (s.get i).newOrigin port 0
    let x := o.2
    let y := x.gapAdd brgSmD k (Tab.get? x.rte.smLast k) f.seqNum.toNat 256
    let z : DieState := { y with rte := { y.rte with smLast := Tab.insert y.rte.smLast k f.seqNum.toNat } }
    (s.get i).hallOn .bus = true → (f.subtype = 0x82 ∨ f.subtype = 0x05) → x.streamEntry f.streamId = some k →
    f.tooLong = false → f.msgs.any acfBad = false →
    exec (.ieee1722Ingress i port f stamp) s = .next (s.set i
      ((goodMsgs f.msgs).foldl (fun d m =>
        if m.kind = 1 ∨ m.kind = 2 then
          d.routePush { ch := m.busId % 32, frame := m.frame, stamp := stamp.toNat, tag := d.gen, origin := o.1, from1722 := true,
                        tb := d.rd ethTs port, handle := if d.bit brgSmCMode 0 k then none else some (d.rd brgSmCHandle 0 k) }
        else d.cnt brgAcfSkip) z))) ∧
  (∀ (i : Die) (pdu : SignalPdu) (s : State),
    (s.get i).hallOn .bus = true → (pduBad pdu = true ∨ (s.get i).pduEntry pdu.port.toNat = none) →
    exec (.signalPduImport i pdu) s = .next (s.set i ((s.get i).cnt brgPduBad))) ∧
  (∀ (i : Die) (pdu : SignalPdu) (k : Nat) (s : State),
    let d := s.get i
    let y := d.gapAdd brgSpiBGaps k (Tab.get? d.rte.spiLast k) pdu.seq.toNat 65536
    let z : DieState := { y with rte := { y.rte with spiLast := Tab.insert y.rte.spiLast k pdu.seq.toNat } }
    d.hallOn .bus = true → pduBad pdu = false → d.pduEntry pdu.port.toNat = some k →
    exec (.signalPduImport i pdu) s = .next (s.set i
      (pdu.records.foldl (fun d r =>
        let st := d.pduStatus r
        if !st.2.galOpen then st.2
        else
          st.2.galIssue { pos := 7, source := 0x21, handle := (r.handle.toNat + st.2.rd brgSpiBOffset 0 k) % 65536, origin := 0,
                          op := .put [r.value] pdu.stamp st.1 }) z))) ∧
  (∀ (i : Die) (k : Fin 16) (s : State),
    let d := s.get i
    d.qtState k = 1 → (d.qtSlot k).start + 1000000 * d.rd prtQcfgBWin ≤ d.now →
    exec (.quarantineWindowEnd i k) s = .next (s.set i (d.qtFree k false))) ∧
  (∀ (i : Die) (k : Fin 16) (s : State),
    let d := s.get i
    d.qtState k = 2 → (d.qtSlot k).start + 1000000 * d.rd prtQcfgBHold ≤ d.now →
    exec (.quarantineHoldEnd i k) s = .next (s.set i (d.qtFree k false))) ∧
  (∀ (a : Acc) (k : Fin 16) (v : Word) (s : State),
    let d := s.get a.die
    let x := (d.complete a.req (regAddr 19 (0x40 + 8 * k)) .okay).writeFields 19 (regChan 19 0 (reqCopy a.req) (0x40 + 8 * k)) (0x40 + 8 * k) v
    d.regStatus a.req 19 0 (0x40 + 8 * k) true = .okay → v.msb = true → x.qtState k ≠ 0 →
    exec (.qtRelease a k v) s = .next (s.set a.die (x.qtFree k true)))

/-- CAN reception and transmission: a frame received, errors, host records, the start, the end and the expiry of a transmission
(06 R144, R150 to R159, R161 to R163).
Error counters follow ISO 11898-1 (logs 15, 43). -/
def Obligations.CanTrafficCommandsComplete : Prop :=
  (∀ (i : Die) (ch : Fin 32) (f : BusFrame) (stamp : Word) (s : State),
    let d := s.get i
    let x := d.cnt canCntRxOk ch
    let y := (if x.bit canCtrlListen ch then x
      else x.wr canStatRec (if 127 < x.rd canStatRec ch then 127 else x.rd canStatRec ch - 1) ch).canFault ch
    let o := y.newOrigin (0x40 + ch) 0
    let z := o.2.claimCapture ch f stamp.toNat
    d.canLive ch = true → d.canInject ch f = false → d.canState ch ≠ 2 → d.canAllows d.gen ch f.fmt = true →
    (∀ k, z.fltFind ch f = some k →
      exec (.canFrameReceive i ch f stamp) s = .next (s.set i (z.canSteer ch k f stamp.toNat o.1))) ∧
    (z.fltFind ch f = none → exec (.canFrameReceive i ch f stamp) s = .next (s.set i (z.cnt canCntNomatch ch)))) ∧
  (∀ (i : Die) (ch : Fin 32) (e : CanError) (s : State),
    let d := s.get i
    d.canLive ch = true → d.canState ch ≠ 2 → d.bit canCtrlListen ch = false →
    exec (.canRxError i ch e) s = .next (s.set i (((d.canErrCount ch e).recAdd ch 1).canFault ch))) ∧
  (∀ (i : Die) (ch : Fin 32) (ws : List Word) (s : State),
    let d := s.get i
    let n := d.rd canQcfgHtx ch
    let img := bytesOf (ws.take 4) ++ bytesOf (ws.drop 5)
    let fmt := fmtOf (byteAt img 4).toNat
    let f0 := frameOfImage img (fmt.getD .cc) (imageDlen img)
    let f := if f0.fmt = .fd then { f0 with data := padFd f0.data } else f0
    let o := (d.qbTake n ws.length).newOrigin 0x82 n
    d.canLive ch = true → d.bit canQcfgHtxEn ch = true → d.hallOn .host = true → (d.canCh ch).sleepReq = false →
    d.htxRecord n = some ws →
    (d.htxBad ch (imageDlen img) fmt = true → exec (.canHostRecordTake i ch) s = .next (s.set i
      (((d.qbTake n ws.length).cnt canCntTxBad ch).canCompletion ch (ws.getD 4 0) 3 0))) ∧
    (d.htxBad ch (imageDlen img) fmt = false → d.canRoom ch f = true → exec (.canHostRecordTake i ch) s = .next (s.set i
      (o.2.canAppend ch { frame := f, src := 4, hostTag := ws.getD 4 0, tag := d.gen, origin := o.1 })))) ∧
  (∀ (i : Die) (ch : Fin 32) (e : TxEntry) (s : State),
    let d := s.get i
    let pos := d.position (d.rd canCtrlTb ch)
    d.canLive ch = true → d.bit canCtrlListen ch = false → d.canState ch = 0 → (d.canCh ch).onWire = none →
    (d.canCh ch).sleepReq = false → d.sharedCan ch = false → d.canOffer ch = some e → e.role = 0 →
    exec (.canTxAttempt i ch) s = .next (s.set i (d.onCan ch fun c => c.replace e
      { e with wire := true, firstSof := some (e.firstSof.getD d.now), sofStamp := pos % 2 ^ 32, sofPos := pos }))) ∧
  (∀ (i : Die) (ch : Fin 32) (e : TxEntry) (s : State),
    let d := s.get i
    let x := (((d.cnt canCntTxOk ch).wr canStatTec (d.rd canStatTec ch - 1) ch).canRetire ch e 0 e.sofStamp).canFault ch
    let y := if e.src = 2 then x.wr canCmbStamp e.sofStamp ch e.buf else x
    d.canLive ch = true → d.canCut ch = false → (d.canCh ch).onWire = some e →
    exec (.canTxComplete i ch) s = .next (s.set i
      (if e.role = 1 then y.followUp ch e else if e.role = 2 then y.cnt canTmCSent ch else y))) ∧
  (∀ (i : Die) (ch : Fin 32) (err : CanError) (fld : CanField) (e : TxEntry) (s : State),
    let d := s.get i
    let x := (d.canErrCount ch err).tecErr ch err
    let y := x.onCan ch fun c => c.replace e { e with wire := false, tries := e.tries + 1 }
    d.canLive ch = true → d.canMeets ch = false → (d.canCh ch).onWire = some e → (err ≠ .bit ∨ fld = .arbitration) →
    (x.retrySpent ch e = true → exec (.canTxError i ch err fld) s = .next (s.set i
      ((y.canAbandon ch { e with wire := false, tries := e.tries + 1 }).canFault ch))) ∧
    (x.retrySpent ch e = false → x.residenceOut ch e = false → exec (.canTxError i ch err fld) s = .next (s.set i (y.canFault ch)))) ∧
  (∀ (i : Die) (ch : Fin 32) (e : TxEntry) (s : State),
    let d := s.get i
    ((d.canCh ch).q.find? fun e => !e.wire && decide (0 < e.tries) && d.retryTimeOut ch e) = some e →
    exec (.canRetryTimeExpiry i ch) s = .next (s.set i
      (((d.canRetire ch e 1 0).cnt canCntTxAbandon ch).raiseHeld 0x0204 ch 1000000 e.frame.id.toNat ch))) ∧
  (∀ (i : Die) (ch : Fin 32) (e : TxEntry) (s : State),
    let d := s.get i
    ((d.canCh ch).q.find? fun e => !e.wire && d.residenceOut ch e) = some e → e.tries = 0 →
    exec (.canTxtmoExpiry i ch) s = .next (s.set i
      (((d.canRetire ch e 2 0).cnt canCntTxExpired ch).raiseHeld 0x0205 ch 1000000 e.frame.id.toNat ch)))

/-- CAN message buffers, bus-off and its recovery, sleep and wake, the time master (06 R160, R163, R165 to R167).
Wake frames follow ISO 11898-2 (log 15). -/
def Obligations.CanControlCommandsComplete : Prop :=
  (∀ (a : Acc) (ch k : Fin 32) (v : Word) (fmt : BusFmt) (s : State),
    let d := s.get a.die
    let off := 0x1000 + 0x80 * k.val
    let x := (d.complete a.req (regAddr 2 off) .okay).writeFields 2 (regChan 2 ch (reqCopy a.req) off) off v
    let img := x.cmbImage ch k
    let p := x.canEnqueue ch
      { frame := frameOfImage img fmt (min (imageDlen img) (if fmt = .cc then 8 else 64)), src := 2, buf := k, tag := x.gen, origin := 0 }
    d.regStatus a.req 2 ch off true = .okay → v.getLsbD 4 = true → x.hallOn .bus = true → x.bit canCmbCtrlDir ch k = true →
    (x.bit canCmbCtrlPend ch k = true → exec (.cmbTrig a ch k v) s = .next (s.set a.die (x.cnt canCmbCtrlSkip ch k))) ∧
    (x.bit canCmbCtrlPend ch k = false → fmtOf (byteAt img 4).toNat = some fmt → fmt ≠ .lin →
      exec (.cmbTrig a ch k v) s = .next (s.set a.die (if p.1 then p.2.wr canCmbCtrlPend 1 ch k else p.2)))) ∧
  (∀ (i : Die) (ch : Fin 32) (s : State),
    let d := s.get i
    d.canState ch = 2 → d.bit canCtrlAutorec ch = true → (d.canCh ch).recovering = false →
    (d.canCh ch).boffAt + 1000000 * d.rd canBoffHold ch ≤ d.now →
    exec (.canBoffHoldExpiry i ch) s = .next (s.set i (d.onCan ch fun c => { c with recovering := true }))) ∧
  (∀ (a : Acc) (ch : Fin 32) (v : Word) (s : State),
    let d := s.get a.die
    let x := (d.complete a.req (regAddr 2 0x124) .okay).writeFields 2 (regChan 2 ch (reqCopy a.req) 0x124) 0x124 v
    d.regStatus a.req 2 ch 0x124 true = .okay → v.msb = true → x.canState ch = 2 →
    exec (.canRecover a ch v) s = .next (s.set a.die (x.onCan ch fun c => { c with recovering := true }))) ∧
  (∀ (i : Die) (ch : Fin 32) (s : State),
    let d := s.get i
    d.canState ch = 2 → (d.canCh ch).recovering = true →
    exec (.canBusoffRecovered i ch) s = .next (s.set i
      (((((d.onCan ch fun c => { c with recovering := false }).wr canStatTec 0 ch).wr canStatRec 0 ch).wr canStatState 0 ch).raise
        0x0203 0 ch))) ∧
  (∀ (a : Acc) (ch : Fin 32) (v : Word) (s : State),
    let d := s.get a.die
    let x := (d.complete a.req (regAddr 2 0x130) .okay).writeFields 2 (regChan 2 ch (reqCopy a.req) 0x130) 0x130 v
    d.regStatus a.req 2 ch 0x130 true = .okay → v.getLsbD 0 = true → x.canState ch ≠ 3 →
    exec (.canSleepReq a ch v) s = .next (s.set a.die (x.onCan ch fun c => { c with sleepReq := true }))) ∧
  (∀ (i : Die) (ch : Fin 32) (s : State),
    let d := s.get i
    (d.canCh ch).sleepReq = true → (d.canCh ch).onWire = none →
    exec (.canSleepEnter i ch) s = .next (s.set i ((d.onCan ch fun c => { c with sleepReq := false }).wr canStatState 3 ch))) ∧
  (∀ (i : Die) (ch : Fin 32) (s : State),
    let d := s.get i
    let up (info : Nat) := (((d.wr canStatState (d.canCounted ch) ch).wr canWake (Nat.lor (d.rd canWake) (2 ^ ch.val))).wakeDie 0).raise 0x0206 info ch
    d.canState ch = 3 →
    (d.rd canSleepWake ch = 1 → exec (.canWake i ch .dominant) s = .next (s.set i (up 1))) ∧
    (∀ id ide dlc data, d.rd canSleepWake ch = 2 → d.wakeMatches ch id.toNat ide dlc data = true →
      exec (.canWake i ch (.frame id ide dlc data)) s = .next (s.set i (up (2 + id.toNat * 8))))) ∧
  (∀ (i : Die) (ch : Fin 32) (s : State),
    let d := s.get i
    let ms := d.position (d.rd canTmBTb ch) / 1000000
    let o := ((d.onCan ch fun c => { c with lastSync := ms + 1 }).cnt canTmCSeq ch).newOrigin 0x81 (0x1000 + ch)
    d.canLive ch = true → d.bit canTmAEn ch = true → ms % d.rd canTmBPeriod ch = 0 → (d.canCh ch).lastSync ≠ ms + 1 →
    exec (.canTmSyncQueue i ch) s = .next (s.set i
      (o.2.canEnqueue ch { frame := d.syncFrame ch (d.rd canTmCSeq ch), src := 3, role := 1, tag := d.gen, origin := o.1 }).2))

/-- LIN: schedule, headers, responses, response buffers, sleep and wake (06 R173 to R177; 12 R330; 15 R409).
Short responses and early headers are log 21's, standby log 20's. -/
def Obligations.LinCommandsComplete : Prop :=
  (∀ (a : Acc) (ch : Fin 8) (v : Word) (s : State),
    let d := s.get a.die
    let x := (d.complete a.req (regAddr 3 0x104) .okay).writeFields 3 (regChan 3 ch (reqCopy a.req) 0x104) 0x104 v
    let n := v.toNat % 64
    d.regStatus a.req 3 ch 0x104 true = .okay → v.msb = true → x.linLive ch = true → x.linMaster ch = true →
    x.bit linSlotEn ch n = true →
    (x.linCh ch).cur = none → exec (.linTrig a ch v) s = .next (s.set a.die (x.linHeader ch (x.rd linSlotId ch n)))) ∧
  (∀ (a : Acc) (ch : Fin 8) (v : Word) (s : State),
    let d := s.get a.die
    let x := (d.complete a.req (regAddr 3 0x104) .okay).writeFields 3 (regChan 3 ch (reqCopy a.req) 0x104) 0x104 v
    let n := v.toNat % 64
    d.regStatus a.req 3 ch 0x104 true = .okay → v.msb = true → x.linLive ch = true → x.linMaster ch = true →
    x.bit linSlotEn ch n = true →
    (x.linCh ch).cur.isSome = true →
    exec (.linTrig a ch v) s = .next (s.set a.die ((x.cnt linCntOverrun ch).raise 0x0304 n ch))) ∧
  (∀ (i : Die) (ch : Fin 8) (id : BitVec 6) (s : State),
    let d := s.get i
    let x := d.wr linStatLastId id.toNat ch
    d.linLive ch = true → d.linMaster ch = false → (d.linCh ch).cur = none → d.rd linIdcfgDir ch id.toNat = 2 →
    exec (.linHeaderReceive i ch id true) s = .next (s.set i
      ((x.onLin ch fun c => { c with cur := some { id := id.toNat, pub := false, tag := d.gen }, active := d.now }).wr linStatState 1 ch))) ∧
  (∀ (i : Die) (ch : Fin 8) (id : BitVec 6) (s : State),
    let d := s.get i
    d.linLive ch = true → d.linMaster ch = false → (d.linCh ch).cur = none →
    exec (.linHeaderReceive i ch id false) s = .next (s.set i
      ((d.cnt linCntSync ch).onLin ch fun c => { c with active := d.now }))) ∧
  (∀ (i : Die) (ch : Fin 8) (data : List Byte) (coll : Bool) (stamp : Word) (c : LinCur) (s : State),
    let d := s.get i
    let x := d.linIdle ch
    let n := d.linLen c.tag ch c.id
    let o := (x.cnt linCntRxOk ch).newOrigin (0x60 + ch) 0
    d.linLive ch = true → (d.linCh ch).cur = some c → c.pub = false → d.rdAs c.tag linIdcfgDir ch c.id = 2 → n ≤ data.length →
    exec (.linResponseReceive i ch data true coll stamp) s = .next (s.set i
      (o.2.linDeliver ch c.id c.tag (data.take n) stamp.toNat o.1))) ∧
  (∀ (i : Die) (ch : Fin 8) (data : List Byte) (coll : Bool) (stamp : Word) (c : LinCur) (s : State),
    let d := s.get i
    let x := (d.linIdle ch |>.cnt linCntCsum ch).raise 0x0302 c.id ch
    d.linLive ch = true → (d.linCh ch).cur = some c → c.pub = false → d.rdAs c.tag linIdcfgDir ch c.id = 2 →
    exec (.linResponseReceive i ch data false coll stamp) s = .next (s.set i
      (if coll then x.raise 0x0303 c.id ch else x))) ∧
  (∀ (i : Die) (ch : Fin 8) (got : Nat) (c : LinCur) (s : State),
    let d := s.get i
    d.linLive ch = true → (d.linCh ch).cur = some c → c.pub = false → d.rdAs c.tag linIdcfgDir ch c.id = 2 →
    exec (.linResponseTimeout i ch got) s = .next (s.set i (((d.linIdle ch).cnt linCntNoResp ch).raise 0x0301 c.id ch))) ∧
  (∀ (a : Acc) (ch : Fin 8) (i : BitVec 6) (s : State),
    let d := s.get a.die
    let off := 0x408 + 16 * i.toNat
    let x := (d.complete a.req (regAddr 3 off) .okay).writeFields 3 (regChan 3 ch (reqCopy a.req) off) off 1
    let o := x.newOrigin 0x82 (0x4000 + 64 * ch + i.toNat)
    d.regStatus a.req 3 ch off true = .okay →
    exec (.linPub a ch i) s = .next (s.set a.die
      (o.2.linStore ch i.toNat (leBytes 4 (x.rd linRespLo ch i.toNat) ++ leBytes 4 (x.rd linRespHi ch i.toNat)) o.1).2)) ∧
  (∀ (a : Acc) (ch : Fin 8) (i : BitVec 6) (s : State),
    let d := s.get a.die
    let off := 0x408 + 16 * i.toNat
    let x := (d.complete a.req (regAddr 3 off) .okay).writeFields 3 (regChan 3 ch (reqCopy a.req) off) off 4
    d.regStatus a.req 3 ch off true = .okay →
    exec (.linRespClr a ch i) s = .next (s.set a.die
      ((x.wr linRespCtlValid 0 ch i.toNat).onLin ch fun c =>
        { c with unsent := c.unsent.erase i.toNat, waits := Tab.erase c.waits i.toNat }))) ∧
  (∀ (a : Acc) (ch : Fin 8) (s : State),
    let d := s.get a.die
    let v := d.linSleepWord ch 0
    let x := (d.complete a.req (regAddr 3 0x108) .okay).writeFields 3 (regChan 3 ch (reqCopy a.req) 0x108) 0x108 v
    let y := x.onLin ch fun c => { c with gts := true }
    d.regStatus a.req 3 ch 0x108 true = .okay → x.linLive ch = true → x.linMaster ch = true →
    exec (.linGts a ch) s = .next (s.set a.die (if (x.linCh ch).cur.isNone then y.linIdle ch else y))) ∧
  (∀ (a : Acc) (ch : Fin 8) (s : State),
    let d := s.get a.die
    let v := d.linSleepWord ch 1
    let x := (d.complete a.req (regAddr 3 0x108) .okay).writeFields 3 (regChan 3 ch (reqCopy a.req) 0x108) 0x108 v
    d.regStatus a.req 3 ch 0x108 true = .okay → x.linUp ch = true →
    exec (.linWakeup a ch) s = .next (s.set a.die (x.onLin ch fun c => { c with pulseEnd := x.now + 1000000 }))) ∧
  (∀ (i : Die) (ch : Fin 8) (s : State),
    let d := s.get i
    d.bit linCtrlEn ch = true → d.rd linStatState ch = 2 → (d.linCh ch).wakeAt = none →
    exec (.linWake i ch) s = .next (s.set i
      (((d.onLin ch fun c => { c with wakeAt := some (d.now + 100000000), active := d.now }).wakeDie 1).raise 0x0305 0 ch))) ∧
  (∀ (i : Die) (ch : Fin 8) (t : Nat) (s : State),
    let d := s.get i
    (d.linCh ch).wakeAt = some t → t ≤ d.now →
    exec (.linWakeReady i ch) s = .next (s.set i
      ((d.onLin ch fun c => { c with wakeAt := none, active := d.now }).wr linStatState 0 ch))) ∧
  (∀ (i : Die) (ch : Fin 8) (s : State),
    let d := s.get i
    d.linLive ch = true → d.linMaster ch = false → d.bit linSleepIdle ch = true → (d.linCh ch).cur = none →
    (d.linCh ch).active + 4000000000 ≤ d.now → exec (.linIdleSleep i ch) s = .next (s.set i (d.wr linStatState 2 ch))) ∧
  (∀ (i : Die) (ch : Fin 8) (c : LinCur) (s : State),
    let d := s.get i
    let x := (d.linIdle ch).cnt linCntTxOk ch
    d.linLive ch = true → (d.linCh ch).cur = some c → c.pub = true → c.data ≠ [] →
    exec (.linResponseSent i ch) s = .next (s.set i
      (if c.gts then (x.onLin ch fun x => { x with cur := none }).wr linStatState 2 ch
       else if x.sharedLin then x.notice true ch c.origin 0 else x)))

/-- Ethernet ports: a frame received, the end of a transmission, compatibility pause, links, energy-efficient Ethernet, PLCA and TC10
(07 R181, R182, R188 to R191, R197, R198, R201, R202; 17 R435).
TC10 sleep raises no LINK_DOWN (log 34). -/
def Obligations.EthernetPortCommandsComplete : Prop :=
  (∀ (i : Die) (p : Fin 29) (f : EthFrame) (stamp : Word) (s : State),
    let d := s.get i
    let x := d.onPort p fun x => { x with fcsCnt := (d.portOf p).fcsCnt, rxBytes := x.rxBytes + (f.bytes.length + 4) + 20 }
    p.val ≤ 25 → d.hallOn .swc = true → d.portUp p = true → d.bit ethLinkAsleep p = false → d.fences.contains (fenceOf 4 p) = false →
    d.pairMode = 0 → d.rd prtPortCFcsN 0 p = 0 → d.sw.descUsed < 65536 → 60 ≤ f.bytes.length →
    f.bytes.length + 4 ≤ d.rd ethMaxlen p → f.fcsOk = true → f.cut = false →
    exec (.ethFrameReceive i p f stamp) s = .next (s.set i
      (x.rxGood p f.bytes (d.rxStamp p stamp.toNat) (d.stampPos (d.rd ethTs p) (d.rxStamp p stamp.toNat)) 0))) ∧
  (∀ (i : Die) (p : Fin 29) (t : TxCur) (n : Nat) (f : SFrame) (s : State),
    let d := s.get i
    let x := (d.creditUpdate p).onPort p fun x =>
      { x with tx := none, idleSince := d.now, txBytes := x.txBytes + t.bytes.length + 24 }
    (d.portOf p).tx = some t → d.hallOn .swc = true → t.desc = some n → x.frameOf n = some f →
    exec (.ethTxEnd i p) s = .next (s.set i (x.txFinish p t n f))) ∧
  (∀ (i : Die) (p : Fin 26) (s : State),
    let d := s.get i
    d.hallOn .swc = true → (d.portOf p).pauseEnd ≠ 0 → (d.portOf p).pauseEnd ≤ d.now →
    exec (.pauseExpiry i p) s = .next (s.set i
      (d.onPort p fun x => { x with pauseSum := d.pausedNs p, pauseFrom := d.now, pauseEnd := 0 }))) ∧
  (∀ (i : Die) (p : Fin 26) (s : State),
    let d := s.get i
    let w := (d.portOf p).winStart + (d.now - (d.portOf p).winStart) / 10000000 * 10000000
    d.hallOn .swc = true → (d.portOf p).winStart + 10000000 ≤ d.now →
    exec (.pauseWindowEnd i p) s = .next (s.set i
      (d.onPort p fun x => { x with winStart := w, pauseSum := 0, pauseFrom := max x.pauseFrom w, winRaised := false }))) ∧
  (∀ (i : Die) (p : Fin 26) (s : State),
    let d := s.get i
    d.hallOn .swc = true → d.bit ethPauseATxen p = true → d.bit ethPauseDXoff p = true → d.rd ethPauseBLow p < d.rd ethPauseBHigh p →
    d.rd ethPauseBLow p ≤ d.ingressCells p → (d.portOf p).xoffAt + 1000 * d.rd ethPauseCRefresh p ≤ d.now →
    exec (.pauseRefresh i p) s = .next (s.set i
      ((d.onPort p fun x => { x with xoffAt := d.now }).sendPause p (d.rd ethPauseAQuanta p)))) ∧
  (∀ (i : Die) (p : Fin 29) (rate : Fin 8) (s : State),
    let d := s.get i
    p.val ≤ 25 → d.hallOn .swc = true → d.hallOn (portHall p) = true → d.bit ethLinkUp p = false → d.rateFits p rate = true →
    exec (.ethLinkUp i p rate) s = .next (s.set i (d.linkRise p rate))) ∧
  (∀ (i : Die) (p : Fin 29) (s : State),
    let d := s.get i
    p.val ≤ 25 → d.hallOn .swc = true → d.bit ethLinkUp p = true → exec (.ethLinkDown i p) s = .next (s.set i (d.linkFall p))) ∧
  (∀ (i : Die) (p : Fin 26) (s : State),
    let d := s.get i
    let x := d.portOf p
    d.hallOn .swc = true → d.bit ethLpiEn p = true → d.bit ethLinkUp p = true → d.bit ethLinkLpi p = false →
    1 ≤ d.rd ethModeKind p → d.rd ethModeKind p ≤ 4 → d.gateOn p = false → d.releaseArmed p = false → d.queuesEmpty p = true →
    x.tx = none → x.held = none → x.ctl = [] → x.idleSince + 1000 * d.rd ethLpiIdle p ≤ d.now →
    exec (.lpiEnter i p) s = .next (s.set i ((d.wr ethLinkLpi 1 p).cnt ethCntLpiEntries p))) ∧
  (∀ (i : Die) (p : Fin 26) (s : State),
    let d := s.get i
    let ts := d.now :: (Tab.get [] d.guard.beacons p).filter fun t => decide (d.now < t + 50000000)
    let x := (d.cnt ethCntPlcaConflict p).raise 0x0406 0 p
    d.plcaOn p = true → d.rd ethPlcaAId p = 0 → (d.portOf p).yield = none → ts.length < 4 →
    exec (.plcaConflictDetect i p) s = .next (s.set i
      { x with guard := { x.guard with beacons := Tab.put [] x.guard.beacons p ts } })) ∧
  (∀ (i : Die) (p : Fin 26) (t : Nat) (s : State),
    let d := s.get i
    (d.portOf p).yield = some t → d.plcaOn p = true → t ≤ d.now →
    exec (.plcaYieldEnd i p) s = .next (s.set i ((d.onPort p fun x => { x with yield := none }).wr ethPlcaC 1 p))) ∧
  (∀ (i : Die) (p : Fin 26) (active : Bool) (s : State),
    let d := s.get i
    d.plcaOn p = true → (d.portOf p).yield = none →
    exec (.plcaStatusChange i p active) s = .next (s.set i (d.wr ethPlcaC (if active then 1 else 0) p))) ∧
  (∀ (a : Acc) (p : Fin 26) (v : Word) (s : State),
    let d := s.get a.die
    let x := (d.complete a.req (regAddr 4 0x3D0) .okay).writeFields 4 (regChan 4 p (reqCopy a.req) 0x3D0) 0x3D0 v
    d.regStatus a.req 4 p 0x3D0 true = .okay → v.getLsbD 0 = true → v.getLsbD 1 = false → x.tc10Port p = true → x.bit ethLinkUp p = true →
    exec (.tc10SleepRequest a p v) s = .next (s.set a.die (x.onPort p fun y => { y with sleepWish := true }))) ∧
  (∀ (i : Die) (p : Fin 26) (s : State),
    let d := s.get i
    d.hallOn .phy = true → d.hallOn .swc = true → d.tc10Port p = true → d.bit ethLinkUp p = true → d.bit ethTc10Accept p = true →
    d.egressIdle p = true → exec (.tc10PartnerSleep i p) s = .next (s.set i (d.portSleep p))) ∧
  (∀ (i : Die) (p : Fin 26) (s : State),
    let d := s.get i
    d.hallOn .phy = true → d.hallOn .swc = true → d.tc10Port p = true → d.bit ethLinkUp p = true → (d.portOf p).sleepWish = true →
    d.egressIdle p = true → exec (.tc10SleepAck i p) s = .next (s.set i (d.portSleep p))) ∧
  (∀ (i : Die) (p : Fin 26) (s : State),
    let d := s.get i
    let x := ((d.portRouse p).wr ethWake (Nat.lor (d.rd ethWake) (2 ^ p.val))).raise 0x0407 0 p
    (d.portOf p).asleep = true → d.bit ethTc10WakeEn p = true →
    exec (.tc10Wake i p) s = .next (s.set i
      ((((List.range 26).filter fun q => (d.rd ethTc10Fwd p).testBit q).foldl (fun d q => d.sendWup q) x).wakeDie 2))) ∧
  (∀ (a : Acc) (p : Fin 26) (v : Word) (s : State),
    let d := s.get a.die
    let x := (d.complete a.req (regAddr 4 0x3D0) .okay).writeFields 4 (regChan 4 p (reqCopy a.req) 0x3D0) 0x3D0 v
    d.regStatus a.req 4 p 0x3D0 true = .okay → v.getLsbD 0 = false → v.getLsbD 1 = true → x.tc10Port p = true →
    exec (.tc10Wup a p v) s = .next (s.set a.die ((x.onPort p fun y => { y with wupSent := y.wupSent + 1 }).portRouse p)))

/-- Rate stepping on P_0 and P_1 (07 R192 to R196). -/
def Obligations.RateSteppingCommandsComplete : Prop :=
  (∀ (i : Die) (p : Fin 2) (s : State),
    let d := s.get i
    let x := d.portOf p
    let lim := 100000 * d.rd ethStepALo p
    let light := if 8 * x.txBytes < lim ∧ 8 * x.rxBytes < lim then min 255 (x.light + 1) else 0
    let y := d.onPort p fun x => { x with light := light, txBytes := 0, rxBytes := 0 }
    d.hallOn .swc = true → d.stepPort p = true → d.bit ethStepAEn p = true →
    exec (.stepWindowEnd i p) s = .next (s.set i
      (if d.rd ethStepADwell p ≤ light ∧ d.bit ethStepCRate p ∧ !d.stepBarred p then y.stepRequest p 0x0A else y))) ∧
  (∀ (i : Die) (p : Fin 2) (s : State),
    let d := s.get i
    d.hallOn .swc = true → d.stepPort p = true → d.bit ethStepCRate p = false → d.stepBarred p = false →
    (d.rd ethStepB p ≤ d.portQueued p ∨ d.bit ethStepAEn p = false) →
    exec (.stepUpTrigger i p) s = .next (s.set i (d.stepRequest p 0x19))) ∧
  (∀ (i : Die) (p : Fin 2) (f : StepFrame) (s : State),
    let d := s.get i
    d.hallOn .swc = true → d.stepPort p = true → f.target.toNat = 0x19 → d.rd ethStepCState p ≠ 1 →
    exec (.stepReqReceive i p f) s = .next (s.set i ((d.stepSend p 2 0x19 0 f.token.toNat f.dly).stepAgree p 0x19 f.dly))) ∧
  (∀ (i : Die) (p : Fin 2) (f : StepFrame) (s : State),
    let d := s.get i
    let x := d.portOf p
    d.hallOn .swc = true → d.stepPort p = true → stepTarget f.target.toNat = true → d.rd ethStepCState p = 1 → x.token = f.token.toNat →
    exec (.stepAckReceive i p f) s = .next (s.set i
      ((d.onPort p fun y => { y with target := x.target, dly := x.dly, stopAt := d.now, switchAt := some (d.now + 1000 * x.dly) }).wr
        ethStepCState 2 p))) ∧
  (∀ (i : Die) (p : Fin 2) (f : StepFrame) (s : State),
    let d := s.get i
    d.hallOn .swc = true → d.stepPort p = true → stepTarget f.target.toNat = true → d.rd ethStepCState p = 1 →
    (d.portOf p).token = f.token.toNat →
    exec (.stepNakReceive i p f) s = .next (s.set i
      ((((d.onPort p fun x => { x with holdoff := d.now + 100000000 }).wr ethStepCState 3 p).cnt ethCntStepFail p).raise 0x0405
        (if f.reason.toNat = 1 then 2 else 3) p))) ∧
  (∀ (i : Die) (p : Fin 2) (t : Nat) (s : State),
    let d := s.get i
    let x := d.portOf p
    x.switchAt = some t → d.hallOn .swc = true → d.rd ethStepCState p = 2 → t ≤ d.now →
    exec (.stepSwitch i p) s = .next (s.set i
      ((d.onPort p fun x => { x with former := d.rd ethStepCRate p, switchAt := none, reverted := false, reqAt := d.now }).stepRate p
        (if x.target = 0x19 then 1 else 0)))) ∧
  (∀ (i : Die) (p : Fin 2) (s : State),
    let d := s.get i
    let x := d.portOf p
    let gap := ceilDiv (d.now - x.stopAt) 1000
    let y := ((d.wr ethStepCState (if d.now < x.holdoff then 3 else 0) p).peak ethStepCGapMax gap p).onPort p fun x =>
      { x with light := 0, txBytes := 0, rxBytes := 0 }
    d.hallOn .swc = true → d.rd ethStepCState p = 2 → x.switchAt = none → x.reverted = false →
    exec (.stepLock i p) s = .next (s.set i
      ((y.cnt ethCntStepOk p).raise 0x0404 (d.rd ethStepCRate p + min gap 65535 * 65536) p))) ∧
  (∀ (i : Die) (p : Fin 2) (s : State),
    let d := s.get i
    let x := d.portOf p
    d.hallOn .swc = true → d.rd ethStepCState p = 1 → x.reqAt + 1000000 ≤ d.now →
    exec (.stepReqTimeout i p) s = .next (s.set i
      (if x.reqTries < 3 then
        (d.onPort p fun x => { x with reqAt := d.now, reqTries := x.reqTries + 1 }).stepSend p 1 x.target 0 x.token x.dly
      else (d.stepHold p).stepFail p 1))) ∧
  (∀ (i : Die) (p : Fin 2) (s : State),
    let d := s.get i
    let x := d.portOf p
    d.hallOn .swc = true → d.rd ethStepCState p = 2 → x.switchAt = none → x.reqAt + 1000000 ≤ d.now →
    exec (.stepLockTimeout i p) s = .next (s.set i
      (if x.reverted then (d.linkFall p).stepFail p 5
       else ((d.onPort p fun x => { x with reverted := true, reqAt := d.now }).stepRate p x.former).stepFail p 4))) ∧
  (∀ (i : Die) (p : Fin 2) (s : State),
    let d := s.get i
    d.hallOn .swc = true → d.rd ethStepCState p = 3 → (d.portOf p).holdoff ≤ d.now →
    exec (.stepHoldoffEnd i p) s = .next (s.set i (d.wr ethStepCState 0 p)))

/-- The switch: lookup, transmission selection, hand-over, gates, preemption, filters and recovery (08 R207, R208, R214, R217, R221, R222,
R225, R226, R228; 09 R233). -/
def Obligations.SwitchCommandsComplete : Prop :=
  (∀ (i : Die) (p : Fin 29) (n : Nat) (rest : List Nat) (s : State),
    let d := s.get i
    let x := d.onPort p fun x => { x with rx := rest }
    (d.portOf p).rx = n :: rest → d.hallOn .swc = true → x.sw.fifo.length < 512 →
    exec (.lookupPipelineEntry i p) s = .next (s.set i { x with sw := { x.sw with fifo := x.sw.fifo ++ [n] } })) ∧
  (∀ (i : Die) (n : Nat) (rest : List Nat) (f : SFrame) (l : Lookup) (s : State),
    let d := s.get i
    let x : DieState := { d with sw := { d.sw with fifo := rest } }
    d.hallOn .swc = true → d.fences.contains 70 = false → d.sw.fifo = n :: rest → x.frameOf n = some f → (x.lookup f).1 = some l →
    exec (.forwardingLookup i) s = .next (s.set i ((x.lookup f).2.forward n l false))) ∧
  (∀ (i : Die) (n : Nat) (rest : List Nat) (f : SFrame) (s : State),
    let d := s.get i
    let x : DieState := { d with sw := { d.sw with fifo := rest } }
    d.hallOn .swc = true → d.fences.contains 70 = false → d.sw.fifo = n :: rest → x.frameOf n = some f → (x.lookup f).1 = none →
    exec (.forwardingLookup i) s = .next (s.set i ((x.lookup f).2.releaseFrame n))) ∧
  (∀ (i : Die) (t : Nat) (c : QCopy) (rest : List QCopy) (f : SFrame) (s : State),
    let d := s.get i
    let x := d.setQueue 27 t rest
    d.hallOn .swc = true → d.topClass 27 = some t → d.outQueue 27 t = c :: rest → x.frameOf c.desc = some f →
    x.bitAs f.tag swcP27MapEn 0 f.esel = true →
    exec (.p27Handover i) s = .next (s.set i
      ((x.cnt swcQcntA 0 27 t).engineEvent (x.rdAs f.tag swcP27MapCluster 0 f.esel)
        { typ := 0, entry := x.rdAs f.tag swcP27MapEntry 0 f.esel, cls := 4, unit := f.ingress, w1 := f.bytes.length, w2 := f.stamp,
          frame := some (f.toEFrame c.desc), key := ethFlowKey f, origin := f.origin }))) ∧
  (∀ (i : Die) (p : Fin 26) (m : Nat) (s : State),
    let d := s.get i
    let x := d.gateUpdate p
    let op := x.rd swcGclAOp 0 (2 * p + x.gateBank p) (x.gateNow p).1
    d.hallOn .swc = true → d.gateOn p = true → x.gatePos p = some m →
    (op = 1 → exec (.gateChange i p) s = .next (s.set i (x.onPort p fun y => { y with hold := true }))) ∧
    (op = 2 → exec (.gateChange i p) s = .next (s.set i (x.onPort p fun y => { y with hold := false }))) ∧
    (op ≠ 1 → op ≠ 2 → exec (.gateChange i p) s = .next (s.set i x))) ∧
  (∀ (i : Die) (p : Fin 14) (u n : Nat) (s : State),
    let d := s.get i
    d.hallOn .swc = true → d.gateOn p = true → d.preemptActive p = true →
    (d.gateAhead p fun k => d.rd swcGclAOp 0 (2 * p + d.gateBank p) k = 1) = some u → d.unitsNs (d.rd swcGcATb 0 p) u = some n →
    n ≤ d.rd swcGcB 0 p →
    exec (.holdRequest i p) s = .next (s.set i (d.onPort p fun x => { x with hold := true }))) ∧
  (∀ (i : Die) (p : Fin 14) (s : State),
    let d := s.get i
    let x := d.portOf p
    d.hallOn .swc = true → d.rd swcPreStatVstate 0 p = 1 → x.verifyAt + 1000000 * d.rd swcPreVtime 0 p ≤ d.now →
    exec (.preemptVerifyTimeout i p) s = .next (s.set i
      (if 2 ≤ x.verifyTry then (d.wr swcPreStatVstate 3 0 p).raise 0x0506 0 p
       else d.onPort p fun x => { x with verifyAt := d.now, verifyTry := x.verifyTry + 1 }))) ∧
  (∀ (i : Die) (p : Fin 14) (s : State),
    let d := s.get i
    d.hallOn .swc = true → d.rd swcPreStatVstate 0 p = 1 →
    exec (.preemptVerifyResponse i p) s = .next (s.set i (d.wr swcPreStatVstate 2 0 p))) ∧
  (∀ (a : Acc) (w : Fin 128) (v : Word) (s : State),
    let d := s.get a.die
    let off := 0xC000 + 4 * w.val
    d.regStatus a.req 5 0 off true = .okay →
    exec (.sfUnblock a w v) s = .next (s.set a.die
      ((d.complete a.req (regAddr 5 off) .okay).writeFields 5 (regChan 5 0 (reqCopy a.req) off) off v))) ∧
  (∀ (a : Acc) (m : Fin 2048) (v : Word) (s : State),
    let d := s.get a.die
    let off := 0x2000C + 16 * m.val
    d.regStatus a.req 5 0 off true = .okay →
    exec (.meterUnlatch a m v) s = .next (s.set a.die
      ((d.complete a.req (regAddr 5 off) .okay).writeFields 5 (regChan 5 0 (reqCopy a.req) off) off v))) ∧
  (∀ (i : Die) (n : Fin 1024) (s : State),
    let d := s.get i
    let x := Tab.get {} d.sw.srf n
    d.hallOn .swc = true → d.bit swcSrfAEn 0 n = true → x.first = false → x.seen + 1000000 * d.rd swcSrfB 0 n ≤ d.now →
    exec (.frerReset i n) s = .next (s.set i
      ((({ d with sw := { d.sw with srf := Tab.erase d.sw.srf n } } : DieState).cnt swcSrcResets 0 n).raise 0x0504 n))) ∧
  (∀ (i : Die) (p : Fin 29) (t : Nat) (s : State),
    let d := s.get i
    let x := (List.range 8).foldl (fun d t => d.deferHead p t) (d.gateUpdate p)
    d.hallOn .swc = true → p.val ≠ 26 → p.val ≠ 27 → x.bit ethLinkUp p = true → x.bit ethLinkAsleep p = false →
    x.rd ethStepCState p ≠ 2 → (x.portOf p).tx = none → (x.portOf p).ctl = [] → x.portShut p = false → x.preemptActive p = false →
    x.pickClass p (fun _ => true) = some t →
    exec (.txSelection i p) s = .next (s.set i (x.startHead p t)))

/-- Time: bases, cues, captures, PPS and following (10 R259, R261, R269 to R274, R281, R282). -/
def Obligations.TimeCommandsComplete : Prop :=
  (∀ (a : Acc) (n : Fin 8) (v : Word) (s : State),
    let d := s.get a.die
    let off := 0x108 + 0x40 * n.val
    d.regStatus a.req 10 0 off true = .okay → d.bit timStatFollowing = false →
    exec (.tbAdj a n v) s = .next (s.set a.die
      ((d.complete a.req (regAddr 10 off) .okay).writeFields 10 (regChan 10 0 (reqCopy a.req) off) off v))) ∧
  (∀ (a : Acc) (n : Fin 8) (v : Word) (s : State),
    let d := s.get a.die
    let off := 0x10C + 0x40 * n.val
    let x := (d.complete a.req (regAddr 10 off) .okay).writeFields 10 (regChan 10 0 (reqCopy a.req) off) off v
    d.regStatus a.req 10 0 off true = .okay → d.bit timStatFollowing = false → x.isAngle n = false →
    exec (.tbStep a n v) s = .next (s.set a.die (x.onBase n fun b => { b with step := b.step ++ [v.toInt] }))) ∧
  (∀ (a : Acc) (n : Fin 8) (v : Word) (s : State),
    let d := s.get a.die
    let off := 0x118 + 0x40 * n.val
    let w := commitWord v 31
    let x := (d.complete a.req (regAddr 10 off) .okay).writeFields 10 (regChan 10 0 (reqCopy a.req) off) off w
    d.regStatus a.req 10 0 off true = .okay → d.bit timStatFollowing = false → x.isAngle n = false → w.msb = true →
    exec (.tbSet a n v) s = .next (s.set a.die (x.onBase n fun b =>
      { b with set := some (x.rd timTbSetSecHiSec 0 n * 2 ^ 32 + x.rd timTbSetSecLo 0 n, x.rd timTbSetNs 0 n) }))) ∧
  (∀ (a : Acc) (n : Fin 8) (s : State),
    let d := s.get a.die
    let off := 0x120 + 0x40 * n.val
    d.regStatus a.req 10 0 off false = .okay →
    exec (.tbNowRead a n) s = .next (s.set a.die
      ((d.complete a.req (regAddr 10 off) .okay (d.baseWords n).1).nowLatch (reqCopy a.req) n))) ∧
  (∀ (i : Die) (n : Fin 1024) (next : Nat) (s : State),
    let d := s.get i
    let x : DieState := { d with tim := { d.tim with next := Tab.erase d.tim.next n } }
    let p := posDiff (d.position (d.rd timCueATb 0 n)) next
    Tab.get? d.tim.cueDelay n = none → Tab.get? d.tim.next n = some next → 0 ≤ p → d.cueCompared n = true →
    d.commitState ≠ 2 → d.rd timCueD 0 n = 0 → d.rd timCueAPerhi 0 n = 0 → d.rd prtCuejBJit = 0 →
    d.bit timCueAWake 0 n = false → d.stw.hoCue = none → d.stw.joinCue = none → d.rd timCueAAction 0 n = 6 →
    exec (.cueFire i n) s = .next (s.set i
      ((x.cnt timCueFired).pinOp (d.rd timCueAArg 0 n % 8) (d.rd timCueAArg 0 n / 8 % 4)))) ∧
  (∀ (i : Die) (n : Fin 1024) (s : State), ((s.get i).cueFire n).stw.hoCue = (s.get i).stw.hoCue →
    exec (.cueFire i n) s = .next (s.set i ((s.get i).cueFire n))) ∧
  (∀ (i : Die) (k : Fin 8) (t : Nat) (s : State),
    let d := s.get i
    Tab.get? d.tim.pulse k = some t → t ≤ d.now →
    exec (.tpPulseEnd i k) s = .next (s.set i
      (({ d with tim := { d.tim with pulse := Tab.erase d.tim.pulse k } } : DieState).wr timTpLevel 0 0 k))) ∧
  (∀ (a : Acc) (v : Word) (s : State),
    let d := s.get a.die
    let w := commitWord v 31
    let x := (d.complete a.req (regAddr 10 0x0C) .okay).writeFields 10 (regChan 10 0 (reqCopy a.req) 0x0C) 0x0C w
    d.regStatus a.req 10 0 0x0C true = .okay → exec (.captureNow a v) s = .next (s.set a.die (x.capture (v.toNat % 4) 1 0))) ∧
  (∀ (i : Die) (s : State),
    let d := s.get i
    let k := d.rd timPpsCtlCapset
    d.bit timPpsCtlInEn = true → (∀ t, d.tim.ppsLast = some t → t + 100000 ≤ d.now) →
    exec (.ppsInEdge i) s = .next (s.set i
      ((({ d with tim := { d.tim with ppsLast := some d.now } } : DieState).capture k 2 0).raise 0x0A08 k))) ∧
  (∀ (i : Die) (s : State),
    let d := s.get i
    d.bit timPpsCtlOutEn = true → d.ppsSeconds ≠ d.tim.ppsSec →
    exec (.ppsOutRise i) s = .next (s.set i
      { d with tim := { d.tim with ppsSec := d.ppsSeconds, ppsHigh := some (d.now + 1000 * d.rd timPpsCtlWidth) } })) ∧
  (∀ (i : Die) (t : Nat) (s : State),
    let d := s.get i
    d.tim.ppsHigh = some t → t ≤ d.now → exec (.ppsOutFall i) s = .next (s.set i { d with tim := { d.tim with ppsHigh := none } })) ∧
  (∀ (s : State),
    s.east.pairMode ≠ 0 → s.west.pairMode ≠ 0 → s.east.linkUp = true → s.west.linkUp = true → s.east.bit timStatFollowLost = false →
    exec .tbFollowState s = .next { s with east := s.east.followState s.west }) ∧
  (∀ (s : State),
    s.east.bit timStatFollowing = true → (s.east.linkUp = false ∨ s.east.stw.tsAt + 4000 ≤ s.east.now) →
    exec .tbFollowLost s = .next (s.set .east s.east.followLost))

/-- Phase inputs and gPTP units (10 R263 to R266, R277 to R280).
gPTP message layouts are log 33's; the tracker's arithmetic is free (log 6). -/
def Obligations.PhaseAndPtpCommandsComplete : Prop :=
  (∀ (i : Die) (k : Fin 4) (a b : Bool) (age : Nat) (s : State),
    let d := s.get i
    let x := d.phase k
    let st := if d.bit timPhCfgInv 0 k then - quadStep x.a x.b a b else quadStep x.a x.b a b
    let c := x.qcount + st
    let m := c * 2 ^ 32 / (d.rd timPhCpr 0 k : Int) % 2 ^ 32
    d.inMode k 0 = true → ¬ (x.a = a ∧ x.b = b) → (x.a = a ∨ x.b = b) →
    exec (.phaseQuadEdge i k a b age) s = .next (s.set i
      (((d.onPhase k fun _ => { x with a := a, b := b, qcount := c }).cnt timPhEdges 0 k).measure k m.toNat (d.now - age)))) ∧
  (∀ (i : Die) (k : Fin 4) (s : State),
    let d := s.get i
    let x := d.phase k
    let r := x.qcount % (d.rd timPhCpr 0 k : Int)
    d.inMode k 0 = true →
    exec (.phaseIndexEdge i k) s = .next (s.set i
      ((if d.bit timPhStatAligned 0 k then (if decide (1 < r) && decide (r < (d.rd timPhCpr 0 k : Int) - 1) then d.cnt timPhZErr 0 k else d)
        else d.wr timPhStatAligned 1 0 k).onPhase k fun x => { x with qcount := 0 }))) ∧
  (∀ (i : Die) (k : Fin 4) (u v w : Bool) (age n : Nat) (s : State),
    let d := s.get i
    let x := d.phase k
    let m := (if d.bit timPhCfgInv 0 k then (6 - n) % 6 else n) * 2 ^ 32 / 6
    d.inMode k 1 = true → hallState u v w = some n → ¬ (x.a = u ∧ x.b = v ∧ x.z = w) →
    exec (.phaseHallChange i k u v w age) s = .next (s.set i
      (((d.onPhase k fun x => { x with a := u, b := v, z := w }).cnt timPhEdges 0 k).measure k m (d.now - age)))) ∧
  (∀ (i : Die) (k : Fin 4) (age : Nat) (s : State),
    let d := s.get i
    d.inMode k 2 = true → exec (.phasePulseEdge i k age) s = .next (s.set i ((d.cnt timPhEdges 0 k).measure k 0 (d.now - age)))) ∧
  (∀ (i : Die) (k : Fin 4) (s : State),
    let d := s.get i
    d.phaseEn k = true → (d.rd timPhStatState 0 k = 1 ∨ d.rd timPhStatState 0 k = 2) →
    (d.phase k).lastT + 1000 * d.rd timPhBwLoss 0 k ≤ d.now →
    exec (.phaseLossTimeout i k) s = .next (s.set i
      ((((d.setPhase k { d.phase k with omega := 0 }).wr timPhStatState 3 0 k).cnt timPhLosses 0 k).raise 0x0A03 0 k))) ∧
  (∀ (i : Die) (p : Fin 26) (bytes : List Byte) (stamp : Word) (u : Nat) (s : State),
    let d := s.get i
    d.ptpConsumer p bytes = some u → ptpType bytes = 0 → d.hallOn .swc = true → d.ptpSlave u p = true →
    exec (.ptpSyncReceive i p bytes stamp) s = .next (s.set i
      ((d.ptpSync u p bytes (d.ptpRxPos u p stamp.toNat)).ptpDeliver p bytes stamp.toNat))) ∧
  (∀ (i : Die) (p : Fin 26) (bytes : List Byte) (stamp : Word) (u : Nat) (s : State),
    let d := s.get i
    d.ptpConsumer p bytes = some u → ptpType bytes = 8 → d.hallOn .swc = true → d.ptpSlave u p = true →
    exec (.ptpFollowupReceive i p bytes stamp) s = .next (s.set i
      ((d.ptpFollowUp u p bytes).ptpDeliver p bytes stamp.toNat))) ∧
  (∀ (i : Die) (u : Fin 4) (s : State),
    let d := s.get i
    let n := d.position (d.rd timPtpATb 0 u) / d.ptpInterval u
    let seq := d.rd timPtpHoldSeq 0 u
    let l := d.rd timPtpALogsync 0 u
    d.hallOn .swc = true → d.ptpEn u = true → d.rd timPtpARole 0 u = 2 → (d.ptpUnit u).lastGm < n →
    exec (.ptpGmSync i u) s = .next (s.set i
      ((((d.onPtp u fun x => { x with lastGm := n }).onPtp u fun x => { x with gmSeq := some seq }).ptpSyncs u seq
        (if l < 8 then l else l + 240)).cnt timPtpHoldSeq 0 u))) ∧
  (∀ (i : Die) (u : Fin 4) (seq : Nat) (s : State),
    let d := s.get i
    d.hallOn .swc = true → (d.ptpUnit u).gmSeq = some seq →
    exec (.ptpGmFollowup i u) s = .next (s.set i
      ((d.ptpUnit u).tx.foldl (fun d e =>
        (d.onPtp u fun x => { x with tx := Tab.erase x.tx e.1 }).ptpSend u e.1
          (d.ptpFupMsg u e.1 seq (if d.rd timPtpALogsync 0 u < 8 then d.rd timPtpALogsync 0 u else d.rd timPtpALogsync 0 u + 240)
            (e.2 % 65536) (beBytes 6 ((e.2 / 65536).toNat / 1000000000) ++ beBytes 4 ((e.2 / 65536).toNat % 1000000000)) 0
            (List.replicate 18 0)) false) d))) ∧
  (∀ (a : Acc) (u : Fin 4) (v : Word) (s : State),
    let d := s.get a.die
    let off := 0x614 + 0x40 * u.val
    d.regStatus a.req 10 0 off true = .okay →
    exec (.ptpHoldClear a u v) s = .next (s.set a.die
      ((d.complete a.req (regAddr 10 off) .okay).writeFields 10 (regChan 10 0 (reqCopy a.req) off) off v).ptpHoldFlags))

/-- The forwarding tables: the learn queue, flushes, aging, staged edits, the Proofer (09 R237 to R241, R248 to R254).
A learn item whose key is placed already is log 24's. -/
def Obligations.TableCommandsComplete : Prop :=
  (∀ (i : Die) (fid : Nat) (mac : List Byte) (port t : Nat) (rest : List LItem) (slot : Nat) (evict : Bool) (s : State),
    let d := s.get i
    let x := ({ d with tbl := { d.tbl with lq := rest } } : DieState).flushEnter
    let k := (macLo mac, macHi mac + fid * 65536)
    let y := x.ueReads 0 (bucketSlots (bucketOfKey k))
    d.tablesOn = true → d.tbl.lq = .learn fid mac port t :: rest → x.fdbFind fid mac = none →
    y.fdbPlace (bucketOfKey k) = some (slot, evict) →
    exec (.learnItemServe i) s = .next (s.set i
      (((if evict then y.cnt fwtCntEvicted else y).setEntry 0 slot (fdbWords k.1 k.2 false false false port 0 0)).cnt fwtCntLearned))) ∧
  (∀ (i : Die) (slot q t : Nat) (rest : List LItem) (s : State),
    let d := s.get i
    d.tablesOn = true → d.tbl.lq = .move slot q t :: rest →
    exec (.learnItemServe i) s = .next (s.set i
      ((({ d with tbl := { d.tbl with lq := rest } } : DieState).flushEnter).moveItem slot q t))) ∧
  (∀ (i : Die) (p f : Option Nat) (rest : List LItem) (s : State),
    let d := s.get i
    d.tablesOn = true → d.tbl.lq = .flush p f :: rest →
    exec (.learnItemServe i) s = .next (s.set i
      ((({ d with tbl := { d.tbl with lq := rest } } : DieState).flushEnter).flushItem p f))) ∧
  (∀ (a : Acc) (v : Word) (s : State),
    let d := s.get a.die
    let x := (d.complete a.req (regAddr 6 0x01C) .okay).writeFields 6 (regChan 6 0 (reqCopy a.req) 0x01C) 0x01C v
    d.regStatus a.req 6 0 0x01C true = .okay → v.msb = true → x.bit fwtFlushBusy = false →
    exec (.flushGo a v) s = .next (s.set a.die
      ((x.wr fwtFlushBusy 1).flushPush (.flush (if x.bit fwtFlushByport then some (x.rd fwtFlushPort) else none)
        (if x.bit fwtFlushByfid then some (x.rd fwtFlushFid) else none))))) ∧
  (∀ (a : Acc) (v : Word) (s : State),
    let d := s.get a.die
    let x := (d.complete a.req (regAddr 6 0x020) .okay).writeFields 6 (regChan 6 0 (reqCopy a.req) 0x020) 0x020 v
    let n := v.toNat % 65536
    let e := x.entry 0 n
    d.regStatus a.req 6 0 0x020 true = .okay → v.msb = true → fdbValid e = true → fdbLocked e = true → x.entryBad 0 n = false →
    exec (.fdbUnlock a v) s = .next (s.set a.die (x.setEntry 0 n [wd e 0, wd e 1 - 2 ^ 31, wd e 2]))) ∧
  (∀ (i : Die) (s : State),
    let d := s.get i
    let k := d.learnTime / (d.rd fwtAgeTick * 1000000)
    d.tablesOn = true → k ≠ d.tbl.lastTick →
    exec (.agingTick i) s = .next (s.set i (({ d with tbl := { d.tbl with lastTick := k } } : DieState).agingWalk))) ∧
  (∀ (a : Acc) (v : Word) (s : State),
    let d := s.get a.die
    let c := reqCopy a.req
    let x (op : Nat) := (d.complete a.req (regAddr 6 0x200) .okay).writeFields 6 (regChan 6 0 c 0x200) 0x200 (editWord v op)
    let e (y : DieState) : Edit := { tbl := y.rd fwtEditCtlTbl c, op := y.rd fwtEditCtlOp c, idx := y.rd fwtEditIdx c,
                                     data := (List.range 8).map fun k => BitVec.ofNat 32 (y.rd fwtEditData c k) }
    let staged (y : DieState) : DieState := { y.wr fwtEditStatResult 1 c with tbl := { y.tbl with edits := y.tbl.edits ++ [e y] } }
    d.regStatus a.req 6 0 0x200 true = .okay → v.msb = true →
    ((x 0).editCheck (e (x 0)) = 1 → exec (.editWrite a v) s = .next (s.set a.die (staged (x 0)))) ∧
    ((x 1).editCheck (e (x 1)) = 1 → exec (.editClear a v) s = .next (s.set a.die (staged (x 1)))) ∧
    ((x 2).editCheck (e (x 2)) = 1 → exec (.editFdbAdd a v) s = .next (s.set a.die (staged (x 2)))) ∧
    ((x 3).editCheck (e (x 3)) = 1 → exec (.editFdbDel a v) s = .next (s.set a.die (staged (x 3))))) ∧
  (∀ (i : Die) (s : State),
    let d := s.get i
    let t := nextTable (d.rd fwtProofCtlTables) 0
    d.tablesOn = true → d.tbl.sweeping = false → d.rd fwtProofCtlMode ≠ 0 → t ≠ 8 → d.tbl.swNext ≤ d.now → d.tbl.repair = [] →
    exec (.proofSweepStart i) s = .next (s.set i
      { d with tbl := { d.tbl with sweeping := true, swTable := t, swIdx := 0, swStart := d.now, swHeld := [] } })) ∧
  (∀ (i : Die) (s : State),
    let d := s.get i
    let t := d.tbl.swTable
    let x := (d.proofFind t d.tbl.swIdx).foldl (fun d m => d.proofNote t m) d
    d.tablesOn = true → d.tbl.sweeping = true → t < 8 → d.proofPaused = false → d.tbl.repair = [] → d.rd fwtProofCtlMode ≠ 0 →
    exec (.proofEntryCheck i) s = .next (s.set i
      (if d.tbl.swIdx < (if t = 0 then 8191 else tableSize t - 1) then { x with tbl := { x.tbl with swIdx := d.tbl.swIdx + 1 } }
       else { x with tbl := { x.tbl with swTable := nextTable (x.rd fwtProofCtlTables) (t + 1), swIdx := 0 } }))) ∧
  (∀ (i : Die) (s : State),
    let d := s.get i
    let x := (d.cnt fwtProofCntSweeps).wr fwtProofStatLastMs (min 65535 ((d.now - d.tbl.swStart) / 1000000))
    let rep := if d.tbl.swHeld.length < 64 then d.tbl.swHeld else d.tbl.repair
    d.tablesOn = true → d.tbl.sweeping = true → d.tbl.swTable = 8 →
    exec (.proofSweepEnd i) s = .next (s.set i
      { x with tbl := { x.tbl with sweeping := false, swTable := 0, swIdx := 0, repair := rep,
                                   swNext := x.now + 1000000 * x.rd fwtProofCtlGap } })) ∧
  (∀ (i : Die) (s : State),
    let d := s.get i
    let p := d.tbl.repair.foldl (fun (q : Nat × DieState) k =>
      let r := q.2.proofFix k
      (if r.1 then q.1 + 1 else q.1, r.2)) (0, d)
    let x : DieState := { p.2 with tbl := { p.2.tbl with repair := [], former := [] } }
    d.tablesOn = true → d.tbl.repair ≠ [] → d.proofPaused = false → d.rd fwtProofCtlMode = 2 → p.1 ≠ 0 →
    exec (.proofRepair i) s = .next (s.set i
      (((x.cnt fwtProofCntRepaired 0 0 0 p.1).cnt sysCommitSeqCount).raise 0x0605 p.1)))

/-- The cipher engine: jobs, lanes, parity and freshness windows (11 R298 to R303, R307).
The job number is log 36's. -/
def Obligations.CipherCommandsComplete : Prop :=
  (∀ (a : Acc) (v : Word) (n : Nat) (y : DieState) (s : State),
    let d := s.get a.die
    let c := reqCopy a.req
    let w := commitWord v 31
    let x := (d.complete a.req (regAddr 11 0x60) .okay).writeFields 11 (regChan 11 0 c 0x60) 0x60 w
    let desc := (List.range 8).map fun k => BitVec.ofNat 32 (x.rd cipHjob c k)
    d.regStatus a.req 11 0 0x60 true = .okay →
    (x.cipIssue (reqId a.req) (x.secure a.req) none desc = some (n, y) →
      exec (.hostJobIssue a v) s = .next (s.set a.die ((y.wr cipHjobStatResult 1 c).wr cipHjobStatJob n c))) ∧
    (x.cipIssue (reqId a.req) (x.secure a.req) none desc = none →
      exec (.hostJobIssue a v) s = .next (s.set a.die (x.wr cipHjobStatResult 2 c)))) ∧
  (∀ (i : Die) (j : CJob) (l : Nat) (u : Usage) (s : State),
    let d := s.get i
    let x := cipDesc j.desc
    let y := d.onJob j.num fun j => { j with lane := l }
    (d.sec.jobs.find? fun j => decide (j.lane = 7) && !j.ended) = some j → d.hallOn .engA = true → d.rd cipLaneUp ≠ 0 →
    (List.range 4).find? d.laneFree = some l → x.good = true → y.jobOpen j.secure x = true →
    (x.op.usage = none → exec (.cipJobStart i) s = .next (s.set i y)) ∧
    (x.op.usage = some u → exec (.cipJobStart i) s = .next (s.set i (y.jobFetch j l x u)))) ∧
  (∀ (i : Die) (job : Byte) (j : CJob) (s : State),
    let d := s.get i
    let x := cipDesc j.desc
    let r := d.jobResult j
    (d.sec.jobs.find? fun j => decide (j.num = job.toNat) && !j.ended && decide (j.lane < 4)) = some j → d.hallOn .engA = true →
    d.jobOpen j.secure x = true →
    exec (.cipJobComplete i job) s = .next (s.set i
      (((d.jobWrite x.dst r.out).jobWrite x.taga r.tag).cipEnd j.num (if r.ok then 0 else 1) j.c r.out.length
        (!r.ok && (x.op = .gcmDec || x.op = .unwrap))))) ∧
  (∀ (i : Die) (l : Fin 4) (s : State),
    let d := s.get i
    (d.rd cipLaneUp).testBit l = true → (d.sec.jobs.find? fun j => !j.ended && decide (j.lane = l.val)) = none →
    exec (.cipParityError i (.lane l)) s = .next (s.set i
      (((((d.wr cipLaneUp (d.rd cipLaneUp - 2 ^ l.val)).wr cipLaneTesting (Nat.lor (d.rd cipLaneTesting) (2 ^ l.val))).cnt
        cipCntParity).raise 0x0B01 l.val l.val)))) ∧
  (∀ (i : Die) (s : State),
    exec (.cipParityError i .xts) s = .next (s.set i (((s.get i).cnt cipCntParity).raise 0x0B01 6 0))) ∧
  (∀ (i : Die) (l : Fin 4) (pass : Bool) (s : State),
    let d := s.get i
    let x := d.wr cipLaneTesting (d.rd cipLaneTesting - 2 ^ l.val)
    (d.rd cipLaneTesting).testBit l = true →
    exec (.laneSelftestDone i l pass) s = .next (s.set i
      (if pass then x.wr cipLaneUp (Nat.lor (x.rd cipLaneUp) (2 ^ l.val))
       else (x.wr cipLaneFailed (Nat.lor (x.rd cipLaneFailed) (2 ^ l.val))).raise 0x0B02 l.val l.val))) ∧
  (∀ (i : Die) (p : Fin 26) (t : Nat) (s : State),
    let d := s.get i
    Tab.get? d.sec.testEnd p = some t → t ≤ d.now →
    exec (.macsecSelftestDone i p) s = .next (s.set i { d with sec := { d.sec with testEnd := Tab.erase d.sec.testEnd p } })) ∧
  (∀ (a : Acc) (k : Byte) (v : Word) (s : State),
    let d := s.get a.die
    let off := 0x100C + 32 * k.toNat
    d.regStatus a.req 11 0 off true = .okay →
    exec (.freshnessSet a k v) s = .next (s.set a.die
      (((d.complete a.req (regAddr 11 off) .okay).writeFields 11 (regChan 11 0 (reqCopy a.req) off) off (commitWord v 0)).fwSet k.toNat)))

/-- The Darkroom: its commands, epoch records, debug authentication (11 R288, R290, R295, R296, R310, R311).
Places of the epoch records are log 22's. -/
def Obligations.DarkroomCommandsComplete : Prop :=
  (∀ (a : Acc) (v : Word) (s : State),
    let d := s.get a.die
    let x (op : Nat) := (d.complete a.req (regAddr 12 4) .okay).writeFields 12 (regChan 12 0 (reqCopy a.req) 4) 4 (drkWord v op)
    let go (y : DieState) : DieState :=
      { y.wr drkCmdStatBusy 1 with sec := { y.sec with cmd := some (y.rd drkCmdOp, y.rd drkCmdSlot, y.rd drkCmdKek) } }
    d.regStatus a.req 12 0 4 true = .okay →
    ((x 1).bit drkCmdStatBusy = false → (x 1).rd drkCmdOp = 1 → exec (.drkLoad a v) s = .next (s.set a.die (go (x 1)))) ∧
    ((x 2).bit drkCmdStatBusy = false → (x 2).rd drkCmdOp = 2 → exec (.drkGenerate a v) s = .next (s.set a.die (go (x 2)))) ∧
    ((x 3).bit drkCmdStatBusy = false → (x 3).rd drkCmdOp = 3 → exec (.drkImport a v) s = .next (s.set a.die (go (x 3)))) ∧
    ((x 4).bit drkCmdStatBusy = false → (x 4).rd drkCmdOp = 4 → exec (.drkErase a v) s = .next (s.set a.die (go (x 4)))) ∧
    ((x 5).bit drkCmdStatBusy = false → (x 5).rd drkCmdOp = 5 →
      exec (.drkZeroize a v) s = .next (s.set a.die ((go (x 5)).zeroizeOne ((x 5).rd drkCmdSlot)))) ∧
    ((x 6).bit drkCmdStatBusy = false → (x 6).rd drkCmdOp = 6 →
      exec (.drkZeroizeAll a v) s = .next (s.set a.die (go (x 6)).zeroizeAll)) ∧
    ((x 7).bit drkCmdStatBusy = false → (x 7).rd drkCmdOp = 7 → exec (.drkSigverify a v) s = .next (s.set a.die (go (x 7))))) ∧
  (∀ (i : Die) (op k kek : Nat) (s : State),
    let p := s.drkEnd i op k kek
    let y := p.2.get i
    (s.get i).sec.cmd = some (op, k, kek) → (op = 2 → (s.get i).sec.seeded = true) → (s.get i).hallOn .drk = true →
    exec (.drkCommandDone i) s = .next (p.2.set i
      ((({ y with sec := { y.sec with cmd := none } } : DieState).wr drkCmdStatResult p.1.code).wr drkCmdStatBusy 0))) ∧
  (∀ (i : Die) (s : State),
    exec (.rngSeeded i) s = .next (s.set i { s.get i with sec := { (s.get i).sec with seeded := true } })) ∧
  (∀ (i : Die) (k : Byte) (res t : Nat) (s : State),
    let d := s.get i
    let x := d.slot k.toNat
    let y := if x.n = 2 ^ 32 ∧ x.e + 2 ≤ res then { x with res := res, write := none, n := 0, e := x.e + 1 } else { x with res := res, write := none }
    let u := s.set i (d.setSlot k.toNat y)
    x.write = some (res, t) → d.bit nwlLinkUp = true →
    exec (.epochWriteDone i k) s = .next
      { u with newel := { u.newel with epochs := Tab.insert u.newel.epochs (256 * d.num + k.toNat) (x.kcv, res) } }) ∧
  (∀ (i : Die) (k : Byte) (res t : Nat) (s : State),
    let d := s.get i
    (d.slot k.toNat).write = some (res, t) → t + 10000000 ≤ d.now →
    exec (.epochWriteRetry i k) s = .next (s.set i
      ((d.setSlot k.toNat { d.slot k.toNat with write := some (res, d.now) }).raiseHeld 0x0C02 k.toNat 1000000000 k.toNat k.toNat))) ∧
  (∀ (a : Acc) (k : Fin 8) (s : State),
    let d := s.get a.die
    let off := 0x90 + 4 * k.val
    d.regStatus a.req 12 0 off false = .okay →
    exec (.dbgChallengeRead a k) s = .next (s.set a.die (d.complete a.req (regAddr 12 off) .okay (d.chalWord k)).drawChal)) ∧
  (∀ (a : Acc) (v : Word) (bs : List Byte) (l t : Nat) (s : State),
    let d := s.get a.die
    let x := (d.complete a.req (regAddr 12 0x80) .okay).writeFields 12 (regChan 12 0 (reqCopy a.req) 0x80) 0x80 (commitWord v 31)
    let y : DieState := { x with sec := { x.sec with chal := none } }
    d.regStatus a.req 12 0 0x80 true = .okay → x.sec.chal = some (bs, l, t) → x.now ≤ t + 60000000000 →
    exec (.dbgResponse a v) s = .next (s.set a.die
      (if Config.fuseDbgLock x.num then x.raise 0x0C04 (x.rd drkDbgReqLevel)
       else if x.dbgValid bs then ((if l = 2 then y.noDebug else y).wr drkDbgStatGranted l).raise 0x0C03 l
       else (y.cnt drkDbgStatFails).raise 0x0C04 l))) ∧
  (∀ (a : Acc) (v : Word) (s : State),
    let d := s.get a.die
    d.regStatus a.req 12 0 0x80 true = .okay →
    exec (.dbgClose a v) s = .next (s.set a.die
      (((d.complete a.req (regAddr 12 0x80) .okay).writeFields 12 (regChan 12 0 (reqCopy a.req) 0x80) 0x80 (commitWord v 30)).wr
        drkDbgStatGranted 0))) ∧
  (∀ (i : Die) (bs : List Byte) (l t : Nat) (s : State),
    let d := s.get i
    d.sec.chal = some (bs, l, t) → t + 60000000000 ≤ d.now →
    exec (.dbgResponseTimeout i) s = .next (s.set i { d with sec := { d.sec with chal := none } }))

/-- The Stairwell: flits and their retry, the link, requests and responses, atomics of the bridge, heartbeats (12 R314 to R325). -/
def Obligations.StairwellCommandsComplete : Prop :=
  (∀ (i : Die) (f : Flit) (m : VMsg) (rest : List VMsg) (s : State),
    let d := s.get i
    let y := s.get i.other
    let u := s.set i.other { y with guard := { y.guard with flits := 0, burst := 0 } }
    d.linkUp = true → y.linkUp = true → y.rd prtStwAEvery = 0 → f.seq.toNat = d.stw.rxSeq → y.stw.replay = [] →
    y.stw.out.get f.vc = m :: rest → (d.stw.landing.get f.vc).length < 32 → f.crcOk = true →
    exec (.stwFlitReceive i f) s = .next (u.flitAccept i f.vc m false)) ∧
  (∀ (i : Die) (seq : BitVec 8) (s : State),
    let d := s.get i
    d.linkUp = true → d.stw.replay ≠ [] → d.stw.retryNow = false → seq.toNat = d.stw.txSeq →
    exec (.stwFlitReplay i seq) s = .next (s.set i (({ d with stw := { d.stw with retryNow := true } } : DieState).cnt stwCntRetries))) ∧
  (∀ (i : Die) (s : State),
    let d := s.get i
    d.linkUp = true → 64 ≤ d.stw.retries → exec (.stwRetryTimeout i) s = .next (s.linkDown 0)) ∧
  (∀ (i : Die) (t : Nat) (s : State),
    let d := s.get i
    d.linkUp = true → d.stw.retries < 64 → d.stw.failAt = some t → t + 1000 * d.rd stwRetry ≤ d.now →
    exec (.stwRetryTimeout i) s = .next (s.linkDown 1)) ∧
  (∀ (i : Die) (s : State),
    let d := s.get i
    d.hallOn .stw = true → d.bit stwLinkCtlAuto = true → d.linkUp = false → d.stw.downAt + 1000000 ≤ d.now →
    exec (.stwRetrainTimer i) s = .next (s.set i { d.wr stwLinkTraining 1 with stw := { d.stw with downAt := d.now } })) ∧
  (∀ (a : Acc) (v : Word) (s : State),
    let d := s.get a.die
    let u := s.set a.die ((d.complete a.req (regAddr 15 0x24) .okay).writeFields 15 (regChan 15 0 (reqCopy a.req) 0x24) 0x24 (commitWord v 0))
    d.regStatus a.req 15 0 0x24 true = .okay → exec (.stwRetrain a v) s = .next ((u.linkDown 0).on a.die DieState.train)) ∧
  (∀ (lanes : Byte) (s : State),
    s.west.hallOn .stw = true → s.east.hallOn .stw = true → s.west.linkUp = false → s.east.linkUp = false → lanes ≠ 0 →
    exec (.stwLinkUp lanes) s = .next ((s.on .west fun d => d.endUp lanes.toNat).on .east fun d => d.endUp lanes.toNat)) ∧
  (∀ (i : Die) (tag : Nat) (r : Resp) (rest : List VMsg) (s : State),
    let d := s.get i
    d.stw.landing.get (2 : Fin 4) = .resp tag r :: rest →
    exec (.stwResponseReceive i) s = .next (s.set i ((d.popLanding 2).answerAcc tag r.status r.value))) ∧
  (∀ (i : Die) (v : Fin 4) (m : VMsg) (s : State),
    let d := s.get i
    d.hallOn .stw = true → d.linkUp = true → s.nextReq i = some (v, m) →
    exec (.stwRemoteRequest i) s = .next ((s.set i (d.popLanding v)).remotePerform i m)) ∧
  (∀ (a : Acc) (op : AmoOp) (addr size : Nat) (v : DWord) (s : State),
    let t := (bridgeTarget a).1
    let x := s.get t
    let off := windowAddr addr - 0x10000000
    let old := leNat (x.host.sram.bytes off size)
    s.bridgeStatus a addr size = .okay →
    exec (.stwAmo a op addr size v) s = .next
      ((s.set t (x.sramStore off (valueBytes size (BitVec.ofNat 64 (amoValue op size old v.toNat))) (some (bridgeTarget a).2))).on a.die
        fun d => d.complete a.req addr .okay old)) ∧
  (∀ (a : Acc) (addr size : Nat) (s : State),
    let t := (bridgeTarget a).1
    let x := s.get t
    let off := windowAddr addr - 0x10000000
    s.bridgeStatus a addr size = .okay →
    exec (.stwLr a addr size) s = .next
      ((s.set t { x with stw := { x.stw with resv := Tab.insert x.stw.resv (bridgeTarget a).2 (off / 64, x.now) } }).on a.die
        fun d => d.complete a.req addr .okay (leNat (x.host.sram.bytes off size)))) ∧
  (∀ (a : Acc) (addr size : Nat) (v : DWord) (s : State),
    let t := (bridgeTarget a).1
    let o := (bridgeTarget a).2
    let x := s.get t
    let off := windowAddr addr - 0x10000000
    let y := x.sramStore off (valueBytes size v)
    s.bridgeStatus a addr size = .okay →
    (x.scWins o off = true → exec (.stwSc a addr size v) s = .next
      ((s.set t { y with stw := { y.stw with resv := Tab.erase y.stw.resv o } }).on a.die fun d => d.complete a.req addr .okay 0)) ∧
    (x.scWins o off = false → exec (.stwSc a addr size v) s = .next
      ((s.set t (x.cnt stwCntLrscBroken)).on a.die fun d => d.complete a.req addr .okay 1))) ∧
  (∀ (i : Die) (o : Fin 32) (l t : Nat) (s : State),
    let d := s.get i
    Tab.get? d.stw.resv o = some (l, t) → t + 2000 ≤ d.now →
    exec (.stwReservationExpiry i o) s = .next (s.set i { d with stw := { d.stw with resv := Tab.erase d.stw.resv o } })) ∧
  (∀ (i : Die) (s : State),
    let d := s.get i
    d.linkUp = true → d.stw.hbSent + 1000 * d.rd stwHbPeriod ≤ d.now →
    exec (.stwHeartbeatSend i) s = .next (s.set i
      (({ d with stw := { d.stw with hbSent := d.now } } : DieState).sendVc 0 (.heartbeat d.pairMode d.role)))) ∧
  (∀ (i : Die) (m r : Nat) (rest : List VMsg) (s : State),
    let x := (s.get i).popLanding 0
    (s.get i).stw.landing.get (0 : Fin 4) = .heartbeat m r :: rest →
    exec (.stwHeartbeatReceive i) s = .next (s.set i { x with stw := { x.stw with hbSeen := x.now, hbMiss := 0 } })) ∧
  (∀ (i : Die) (s : State),
    let d := s.get i
    let y := ({ d with stw := { d.stw with hbSeen := d.now, hbMiss := d.stw.hbMiss + 1 } } : DieState).cnt stwCntHbMissed
    let u := s.set i y
    d.stw.hbSeen + 1000 * d.rd stwHbPeriod ≤ d.now → d.hallOn .stw = true →
    (d.partnerGone = true ∨ y.partnerGone = false → exec (.stwHeartbeatMiss i) s = .next u) ∧
    (d.partnerGone = false → y.partnerGone = true → y.linkUp = true → y.stw.failAt.isSome = true →
      exec (.stwHeartbeatMiss i) s = .next (u.linkDown 0 (some i))) ∧
    (d.partnerGone = false → y.partnerGone = true → y.linkUp = false →
      exec (.stwHeartbeatMiss i) s = .next (s.set i (y.partnerLost 0 none))))

/-- Mirror and Vote mode: replicas, notices, role swaps, joining, votes (12 R329, R330, R332 to R337).
Replicas before a join are log 55's. -/
def Obligations.PairModeCommandsComplete : Prop :=
  (∀ (i : Die) (f : SFrame) (rest : List VMsg) (s : State),
    let d := s.get i
    d.stw.landing.get (3 : Fin 4) = .replica true f :: rest → d.takesReplicas = true → d.hallOn .swc = true →
    exec (.mirrorReplicaReceive i) s = .next (s.set i ((d.popLanding 3).replicaEng f))) ∧
  (∀ (i : Die) (f : SFrame) (rest : List VMsg) (s : State),
    let d := s.get i
    d.stw.landing.get (3 : Fin 4) = .replica false f :: rest → d.takesReplicas = true →
    exec (.mirrorReplicaReceive i) s = .next (s.set i ((d.popLanding 3).ethRoutes { f with tag := d.gen }))) ∧
  (∀ (i : Die) (it : LItem) (rest : List VMsg) (s : State),
    let d := s.get i
    d.stw.landing.get (3 : Fin 4) = .learn it :: rest → d.takesReplicas = true → d.hallOn .swc = true →
    exec (.mirrorReplicaReceive i) s = .next (s.set i ((d.popLanding 3).learnPush it))) ∧
  (∀ (i : Die) (it : LItem) (rest : List VMsg) (s : State),
    let d := s.get i
    d.stw.out.get (3 : Fin 4) = .learn it :: rest → 32 ≤ ((s.get i.other).stw.landing.get (3 : Fin 4)).length →
    exec (.replDrop i) s = .next (s.set i
      (({ d with stw := { d.stw with out := d.stw.out.set (3 : Fin 4) rest } } : DieState).cnt stwCntReplDrop))) ∧
  (∀ (i : Die) (ch origin status : Nat) (e : TxEntry) (rest : List VMsg) (s : State),
    let x := (s.get i).popLanding 0
    (s.get i).stw.landing.get (0 : Fin 4) = .notice false ch origin status :: rest →
    ((x.canCh ch).q.find? fun e => decide (e.origin = origin)) = some e →
    exec (.mirrorNoticeReceive i) s = .next (s.set i (x.canRetire ch e status 0))) ∧
  (∀ (a : Acc) (v : Word) (s : State),
    let d := s.get a.die
    let x := (d.complete a.req (regAddr 15 0x10) .okay).writeFields 15 (regChan 15 0 (reqCopy a.req) 0x10) 0x10 (commitWord v 31)
    d.regStatus a.req 15 0 0x10 true = .okay → x.pairMode = 1 →
    exec (.handoverGo a v) s = .next (s.set a.die { x with stw := { x.stw with hoCue := some (v.toNat % 1024) } })) ∧
  (∀ (u : BoundaryUnit) (n t : Nat) (s : State),
    let old : Die := s.newel.active.other
    let y := (s.on .west fun d => d.moved n).on .east fun d => d.moved n
    sharedNum u = some n → (s.get old).stw.hoAt = some t → (s.get old).unitIdle n = true →
    (s.noticeWaits old n = false ∨ t + 5000 ≤ (s.get old).now) →
    exec (.handoverChannelMove u) s = .next { y with newel := { y.newel with moved := n :: y.newel.moved.erase n } }) ∧
  (∀ (a : Acc) (v : Word) (s : State),
    let d := s.get a.die
    let u := s.set a.die ((d.complete a.req (regAddr 15 0x14) .okay).writeFields 15 (regChan 15 0 (reqCopy a.req) 0x14) 0x14 (commitWord v 30))
    d.regStatus a.req 15 0 0x14 true = .okay → a.die = .east → s.east.linkUp = true → s.east.pairMode ≠ 0 → s.west.role = 4 →
    exec (.joinTimego a v) s = .next ((u.on .west fun w => w.followBases u.east).on .east fun e =>
      { (e.wr timStatFollowing 1).wr timStatFollowLost 0 with stw := { e.stw with tsAt := e.now } })) ∧
  (∀ (a : Acc) (v : Word) (s : State),
    let d := s.get a.die
    let x := (d.complete a.req (regAddr 15 0x14) .okay).writeFields 15 (regChan 15 0 (reqCopy a.req) 0x14) 0x14 (commitWord v 31)
    d.regStatus a.req 15 0 0x14 true = .okay → x.pairMode ≠ 0 →
    exec (.joinGo a v) s = .next (s.set a.die { x with stw := { x.stw with joinCue := some (v.toNat % 1024) } })) ∧
  (∀ (i : Die) (s : State),
    let x := s.get i
    let y := s.get i.other
    let z := (y.tbl.ent.filter fun e => decide (e.1 < 65536)).foldl (fun (z : DieState) e => z.copyFdb e.1 (y.entry 0 e.1))
      (y.gal.slots.foldl (fun (z : DieState) e => z.copySlot e.1 e.2) x)
    let w := ({ z with stw := { z.stw with joining := false } } : DieState).wr stwPairStatRole (if z.pairMode = 1 then 2 else 3)
    let u := (s.set i (w.raise 0x0F07 y.gal.slots.length)).on i.other fun y =>
      let y1 : DieState := { y with stw := { y.stw with joining := false } }
      if y1.bit stwPairStatDegraded then (y1.wr stwPairStatDegraded 0).wr stwPairStatRole 3 else y1
    x.role = 4 → y.role ≠ 4 → x.stw.joining = true → y.stw.joining = true → x.linkUp = true →
    exec (.joinCopyDone i) s = .next { u with newel := { u.newel with lone := false } }) ∧
  (∀ (i : Die) (o p t len : Nat) (crc : Word) (st : Nat) (rest : List VMsg) (s : State),
    let d := s.get i
    d.stw.landing.get (3 : Fin 4) = .digest o p t len crc st :: rest →
    exec (.voteDigestReceive i) s = .next (s.set i
      ((d.popLanding 3).digestAct { origin := o, egress := p, tc := t, len := len, crc := crc, until_ := 0, stamp := st }))) ∧
  (∀ (i : Die) (tag : DWord) (egress : Byte) (it : VoteItem) (s : State),
    let d := s.get i
    (d.stw.stage.find? fun it => decide (it.origin = tag.toNat) && decide (it.egress = egress.toNat) && !it.matched
      && decide (it.until_ ≤ d.now)) = some it →
    exec (.voteWindowExpiry i tag egress) s = .next (s.set i ((d.cnt stwCntVoteTimeout).voteDrop it))) ∧
  (∀ (i : Die) (tag : DWord) (egress : Byte) (s : State),
    let d := s.get i
    0x40 ≤ egress.toNat → egress.toNat < 0x60 →
    exec (.voteAlign i tag egress) s = .next (s.set i (d.onCan (egress.toNat - 0x40) fun c =>
      { c with q := c.q.map fun e => if e.origin = tag.toNat ∧ e.eligible.any d.aligned then { e with eligible := some 0 } else e })))

/-- A die's writes that send Newel commands (14 R368, R371, R375, R385, R393; 12 R327; 15 R404).
The coding of CTRL's ARG is log 39's. -/
def Obligations.NewelRegisterCommandsComplete : Prop :=
  (∀ (a : Acc) (v : Word) (s : State),
    let d := s.get a.die
    let x (off : Nat) (w : Word) := (d.complete a.req (regAddr 16 off) .okay).writeFields 16 (regChan 16 0 (reqCopy a.req) off) off w
    (d.regStatus a.req 16 0 0x10 true = .okay →
      exec (.nwlLoad a v) s = .next (s.set a.die ((x 0x10 (commitWord v 31)).nlSend 4 (v.toNat % 64)))) ∧
    (d.regStatus a.req 16 0 0x14 true = .okay →
      exec (.nwlDuty a v) s = .next (s.set a.die ((x 0x14 (commitWord v 31)).nlSend 5 (v.toNat % 32768)))) ∧
    (d.regStatus a.req 16 0 0x18 true = .okay →
      exec (.nwlClear a v) s = .next (s.set a.die ((x 0x18 (commitWord v 31)).nlSend 6 (v.toNat % 256)))) ∧
    (d.regStatus a.req 16 0 0x1C true = .okay →
      exec (.nwlWdArm a v) s = .next (s.set a.die ((x 0x1C (nwlCtrlWord v .wdArm)).nlSend 9 1)) ∧
      exec (.nwlSlExit a v) s = .next (s.set a.die ((x 0x1C (nwlCtrlWord v .slExit)).nlSend 9 2)) ∧
      exec (.nwlPwrRetry a v) s = .next (s.set a.die ((x 0x1C (nwlCtrlWord v .pwrRetry)).nlSend 9 9))) ∧
    (d.regStatus a.req 16 0 0x24 true = .okay →
      exec (.nwlOwnerSet a v) s = .next (s.set a.die ((x 0x24 (commitWord v 31)).nlSend 9 (3 + 16 * (v.toNat % 2 ^ 24))))) ∧
    (d.regStatus a.req 16 0 0x38 true = .okay → ((x 0x38 v).rd prtWdLeft = 0 ∨ (x 0x38 v).rd prtWdKind = 0) →
      exec (.nwlWdAns a v) s = .next (s.set a.die ((x 0x38 v).nlSend 7 (v.toNat % 65536)))) ∧
    (d.regStatus a.req 16 0 0x74 true = .okay → (x 0x74 (commitWord v 0)).bit nwlLinkUp = true →
      exec (.nwlEeRead a v) s = .next (s.set a.die
        (((x 0x74 (commitWord v 0)).nlSend 9 (7 + 16 * (x 0x74 (commitWord v 0)).rd nwlEeAddr)).wr nwlEeCtlBusy 1))) ∧
    (d.regStatus a.req 16 0 0x74 true = .okay → (x 0x74 (commitWord v 1)).bit nwlLinkUp = true →
      exec (.nwlEeWrite a v) s = .next (s.set a.die
        (((x 0x74 (commitWord v 1)).nlSend 9 (8 + 16 * (x 0x74 (commitWord v 1)).rd nwlEeAddr) (x 0x74 (commitWord v 1)).eeData).wr
          nwlEeCtlBusy 1))) ∧
    (d.regStatus a.req 15 0 8 true = .okay → v.toNat % 4 ≠ 3 →
      exec (.pairPrep a v) s = .next (s.set a.die
        (((d.complete a.req (regAddr 15 8) .okay).writeFields 15 (regChan 15 0 (reqCopy a.req) 8) 8 (commitWord v 31)).nlSend 9
          (4 + 16 * (v.toNat % 4))))))

/-- Frames that arrive at the Newel in sequence: each is executed, its answer stored, the next SEQ expected (14 R369, R371, R373 to R376,
R385, R389, R393; 12 R327; 15 R404).
The order of refusal reasons and mode 3 are the model's (logs 18, 39). -/
def Obligations.NewelFramesComplete : Prop :=
  (∀ (i : Die) (q : Fin 16) (s : State),
    let x := s.newel.hear i
    let seen (ans : NlAns) (w : NewelState) : NewelState :=
      w.onLink i fun l => { l with expect := (q.val + 1) % 16, answers := ((q.val, ans) :: l.answers).take 8 }
    let done (ans : NlAns) (w : NewelState) : State := { s with newel := seen ans w }
    s.linkAlive i = true → (x.linkOf i).expect = q →
    (∀ addr, exec (.nlAddr i q addr) s = .next (done (1, 0) (x.onLink i fun l => { l with addr := addr.toNat }))) ∧
    (∀ v, let r := x.wordWrite i (x.linkOf i).addr v.toNat
      exec (.nlData i q v) s = .next (done (ansOf r.1) (r.2.onLink i fun l => { l with addr := ((x.linkOf i).addr + 1) % 65536 }))) ∧
    (∀ addr v, x.register i (4 * (addr.toNat / 2)) = some v →
      exec (.nlRead i q addr) s = .next (done (2, v / 65536 ^ (addr.toNat % 2) % 65536) x)) ∧
    (∀ (ch : Fin 32) (on : Bool), x.cmdNak i ch = none → x.enabled ch = true → (on = true → (x.chan ch).latched = false) →
      exec (.nlLoad i q ch on) s = .next (done (1, 0) (((x.setCmd i ch on).onChan ch fun c => { c with force := false }).obey ch))) ∧
    (∀ (ch : Fin 32) (duty : BitVec 10), x.cmdNak i ch = none → exec (.nlDuty i q ch duty) s = .next (done (1, 0) (x.setDuty i ch duty.toNat))) ∧
    (∀ (ch : Fin 32) (therm oc wire : Bool), x.chNak i ch = none → exec (.nlClear i q ch therm oc wire) s = .next (done (1, 0) (x.onChan ch fun c =>
      { c with therm := c.therm && !(therm && !c.hot), oc := c.oc && !oc, wire := c.wire && !(wire && decide (c.e ≤ 1 / 2)) }))) ∧
    (∀ ans, exec (.nlWdAns i q ans) s = .next (done (1, 0) (x.wdJudge i ans.toNat))) ∧
    exec (.nlApply i q) s = .next (done (1, 0) (x.apply i)) ∧
    exec (.nlWdArm i q) s = .next (done (1, 0) (x.wdArm i)) ∧
    (x.slOn = true → x.slCause = 0 → x.cmdMode ≠ 2 →
      exec (.nlSlExit i q) s = .next (done (1, 0) (({ x with slOn := false, slExit := [] } : NewelState).tellBoth 0x1007))) ∧
    (∀ map, exec (.nlOwnerSet i q map) s = .next (done (1, 0) (x.ownerSet i map.toNat))) ∧
    (∀ mode, mode ≠ 3 → x.armed = none →
      exec (.nlPairPrep i q mode) s = .next
        ((({ s with newel := x } : State).prep i mode.toNat).onNewel (seen (1, 0)))) ∧
    (∀ mode, mode ≠ 3 → let r := ({ s with newel := x } : State).switchMode i mode.toNat
      exec (.nlSwitch i q mode) s = .next (r.2.onNewel (seen r.1))) ∧
    (∀ page, x.eeJob = none → userPage page.toNat = true → exec (.nlEeRead i q page) s = .next
      (done (1, 0) (x.onLink i fun l => { l with page := x.ee.bytes (16 * page.toNat) 16, eeRes := 1 }))) ∧
    (∀ page data, x.eeJob = none → userPage page.toNat = true → exec (.nlEeWrite i q page data) s = .next
      (done (1, 0) (({ x with eeJob := some (i, page.toNat, (List.range 16).map (byteAt data)) } : NewelState).onLink i fun l =>
        { l with eeRes := 0 }))) ∧
    ((x.supplyOf i.other).off = true → exec (.nlPwrRetry i q) s = .next (done (1, 0) (x.onSupply i.other fun _ =>
      { on := 1, good := 0, fails := [], off := false, retryAt := none, why := 2 })))) ∧
  (∀ (i : Die) (s : State), s.linkAlive i = true → exec (.nlNop i) s = .next { s with newel := s.newel.hear i }) ∧
  (∀ (i : Die) (s : State), s.linkAlive i = true → exec (.nlResync i) s = .next
    { s with newel := (s.newel.hear i).onLink i fun l => { l with expect := 1, answers := [(0, 1, 0)], words := [], addr := 0 } })

/-- A die's end of its Newel link: answers, events, resends, loss and restart (14 R369 to R371, R394, R395).
The reason of a refused failover is free (log 42). -/
def Obligations.NewelLinkCommandsComplete : Prop :=
  (∀ (i : Die) (seq : Fin 16) (c : NlCmd) (rest : List NlCmd) (s : State),
    let d := s.get i
    let y := d.nlRetire.nlPoll (pollsAfter c)
    d.nl.sent = c :: rest → c.seq = seq → d.bit nwlLinkUp = true →
    exec (.nlAck i seq) s = .next (s.set i ((if c.op = 8 then y.wr nwlLinkPending 0 else y).nlPump 8))) ∧
  (∀ (i : Die) (seq : Fin 16) (c : NlCmd) (rest : List NlCmd) (s : State),
    (s.get i).nl.sent = c :: rest → c.seq = seq → (s.get i).bit nwlLinkUp = false → exec (.nlAck i seq) s = .next (s.nlUp i)) ∧
  (∀ (i : Die) (seq : Fin 16) (w : BitVec 16) (c : NlCmd) (rest : List NlCmd) (s : State),
    let d := s.get i
    d.nl.sent = c :: rest → c.seq = seq → c.op = 3 → d.bit nwlLinkUp = true →
    exec (.nlRdata i seq w) s = .next (s.set i ((d.nlRetire.mirror c.arg w.toNat).nlPump 8))) ∧
  (∀ (i : Die) (seq reason : Fin 16) (c : NlCmd) (rest : List NlCmd) (s : State),
    let d := s.get i
    let y := (d.nlRetire.cnt nwlCntNaks).nlPoll ((pollsAfter c).filter fun p => decide (p = 0x3A))
    d.nl.sent = c :: rest → c.seq = seq → d.bit nwlLinkUp = true →
    exec (.nlNak i seq reason) s = .next (s.set i ((if c.op = 8 then y.wr nwlLinkPending 0 else y).nlPump 8))) ∧
  (∀ (i : Die) (arg : BitVec 16) (e : Nat × Nat × Nat) (s : State),
    let code := arg.toNat / 256
    let unit := arg.toNat % 256
    code ≠ 0 → code ≤ 13 → (s.get i).pow.alive = true →
    ((s.newel.linkOf i).events.find? fun e => decide (e.1 % 256 = code) && decide (e.2.1 = unit)) = some e →
    exec (.nlEvent i arg) s = .next ((s.onNewel fun w => w.onLink i fun l => { l with events := l.events.erase e }).on i fun x =>
      (x.nlCount code).raise (0x1000 + code) e.2.2 unit)) ∧
  (∀ (i : Die) (arg : BitVec 16) (s : State),
    let d := s.get i
    let code := arg.toNat / 256
    let unit := arg.toNat % 256
    code ≠ 0 → code ≤ 13 → d.pow.alive = true →
    ((s.newel.linkOf i).events.find? fun e => decide (e.1 % 256 = code) && decide (e.2.1 = unit)) = none →
    exec (.nlEvent i arg) s = .next (s.set i ((d.nlCount code).drawn.raise (0x1000 + code) d.freshVal.toNat unit))) ∧
  (∀ (i : Die) (c : NlCmd) (rest : List NlCmd) (s : State),
    let d := s.get i
    d.nl.sent = c :: rest → d.bit nwlLinkUp = true → c.at_ + 2720 ≤ d.now →
    (3 ≤ d.nl.resends → exec (.nlResendTimeout i) s = .next (s.set i (d.nlLost 0))) ∧
    (d.nl.resends < 3 → exec (.nlResendTimeout i) s = .next (s.set i
      (({ d with nl := { d.nl with resends := d.nl.resends + 1, sent := d.nl.sent.map fun (c : NlCmd) => { c with at_ := d.now } } } : DieState).cnt
        nwlCntResends)))) ∧
  (∀ (i : Die) (s : State), (s.get i).bit nwlLinkUp = true →
    exec (.nlDieSlotsInvalid i) s = .next (s.set i ((s.get i).nlLost 1))) ∧
  (∀ (i : Die) (s : State),
    let d := s.get i
    d.pow.alive = true → d.bit nwlLinkUp = false → d.nl.resyncAt + 100000 ≤ d.now →
    exec (.nlResyncTimer i) s = .next (s.set i
      { d with nl := { d.nl with resyncAt := d.now, sent := [{ op := 9, arg := 6, seq := 0, at_ := d.now }] } })) ∧
  (∀ (i : Die) (s : State),
    let d := s.get i
    d.bit nwlLinkUp = true → d.nl.pollAt + 1000000 ≤ d.now →
    exec (.nlMirrorRefresh i) s = .next (s.set i
      ((({ d with nl := { d.nl with pollAt := d.now } } : DieState).nlPoll mirrorWords).nlPump 8))) ∧
  (∀ (i : Die) (s : State), (s.newel.linkOf i).seen + 4000 ≤ s.newel.now →
    exec (.newelLinkSilent i) s = .next { s with newel := s.newel.onLink i fun l => { l with silent := true } }) ∧
  (∀ (i : Die) (s : State), (s.newel.linkOf i).seen + 250000000 ≤ s.newel.now → (s.newel.linkOf i).stopped = false →
    exec (.newelLinkLost i) s = .next { s with newel := (s.newel.onLink i fun l => { l with lost := true }).slCheck }) ∧
  (∀ (e : Die) (m t : Nat) (s : State), s.newel.ownReq = some (e, m, t) → t + 1000000 < s.newel.now →
    exec .ownerSetTimeout s = .next { s with newel := ({ s.newel with ownReq := none } : NewelState).tellBoth 0x100B }) ∧
  (∀ (m t : Nat) (s : State), s.newel.armed = none → s.newel.arm.get (0 : Fin 2) = some (m, t) → t + 1000000 < s.newel.now →
    exec .pairPrepTimeout s = .next s.prepFail) ∧
  (∀ (t : Nat) (s : State), s.newel.armed = some t → t + 1000000000 ≤ s.newel.now →
    exec .newelPairDisarm s = .next s.disarm) ∧
  (∀ (i : Die) (cause t : Nat) (s : State),
    let d := s.get i
    let u := s.set i (({ d with stw := { d.stw with failover := none } } : DieState).takeActive cause)
    d.stw.failover = some (cause, t) → s.lossConfirmed i.other = true →
    exec (.failoverConfirm i) s = .next
      { u with newel := { u.newel with active := i, moved := [], lone := decide (d.pairMode = 2) } })

/-- Load channels, the serial watchdog, Safelight, pins and pages of the Newel (14 R374, R376 to R393; 06 R171; 12 R337; 18 R444).
Which die an event goes to is log 41's, two trips at once and restarts are log 57's. -/
def Obligations.NewelEventCommandsComplete : Prop :=
  (∀ (n : Fin 24) (s : State),
    let w := s.newel
    (w.chan n).on = true → w.rev = false →
    (w.retryOpen n = true → exec (.loadOcTrip n) s = .next
      { s with newel := w.onChan n fun c => { c with on := false, tripAt := some w.now } }) ∧
    (w.retryOpen n = false → exec (.loadOcTrip n) s = .next
      { s with newel := (w.onChan n fun c => { c with on := false, oc := true, tripAt := none }).chFault n })) ∧
  (∀ (n : Fin 24) (s : State),
    let w := s.newel
    exec (.loadThermTrip n) s = .next { s with newel := (w.onChan n fun c =>
      { c with on := w.rev && c.on, therm := true, hot := true, oc := c.oc || decide (c.tripAt = some w.now),
               tripAt := if c.on && w.retryOpen n then some w.now else c.tripAt }).chFault n }) ∧
  (∀ (n : Fin 24) (s : State),
    let w := s.newel
    exec (.loadThermCool n) s = .next { s with newel := w.onChan n fun c =>
      { c with hot := false, therm := c.therm && decide (w.par nwlChAThermAuto n = 0) } }) ∧
  (∀ (n : Fin 24) (s : State),
    let w := s.newel
    let c := w.chan n
    let e := wireStep c.e (c.sense * senseLsb n) (w.par nwlChCInom n / 10) (w.par nwlChCTau n)
    w.par nwlChCInom n ≠ 0 →
    (e < 1 → exec (.wireModelTick n) s = .next { s with newel := w.onChan n fun c => { c with e := e } }) ∧
    (¬ e < 1 → c.wire = false → exec (.wireModelTick n) s = .next
      { s with newel := (w.onChan n fun c => { c with e := e, on := w.rev && c.on, wire := true }).chFault n })) ∧
  (∀ (n : Fin 24) (s : State),
    let w := s.newel
    ((w.chan n).on = true → (w.chan n).openOn = false → exec (.loadDiagDetect n 0 true) s = .next
      { s with newel := (w.onChan n fun c => { c with openOn := true }).chFault n }) ∧
    exec (.loadDiagDetect n 0 false) s = .next { s with newel := w.onChan n fun c => { c with openOn := false } } ∧
    exec (.loadDiagDetect n 1 false) s = .next { s with newel := w.onChan n fun c => { c with openOff := false } } ∧
    exec (.loadDiagDetect n 2 false) s = .next { s with newel := w.onChan n fun c => { c with stb := false } }) ∧
  (∀ (n : Fin 24) (t : Nat) (s : State),
    let w := s.newel
    let c := w.chan n
    c.tripAt = some t → t + 250000 * w.par nwlChBRetryGap n ≤ w.now → c.therm = false → c.wire = false → w.retryOpen n = true →
    w.enabled n = true → w.low = false →
    exec (.loadRestart n) s = .next { s with newel := w.onChan n fun c =>
      { c with on := true, tripAt := none, budget := c.budget - 1, retries := c.retries + 1 } }) ∧
  (∀ (n : Fin 24) (s : State),
    let w := s.newel
    (w.chan n).winEnd ≤ w.now →
    exec (.loadWarmEnd n) s = .next { s with newel := w.onChan n fun c => { c with tripAt := none, budget := 0 } }) ∧
  (∀ (k : Fin 4) (s : State),
    let w := s.newel
    exec (.pwmPeriodStart k) s = .next { s with newel :=
      ((List.range 24).filter fun n => w.pwm n && decide (w.par nwlChAPwt n = k.val)).foldl (fun w n =>
        w.onChan n fun c => { c with duty := c.nextDuty (w.par nwlChBFsDuty n) }) w }) ∧
  (∀ (n : Fin 24) (x : BitVec 12) (s : State), s.newel.sampled n = true →
    exec (.senseSample n x) s = .next { s with newel := s.newel.onChan n fun c => { c with sense := x.toNat, valid := true } }) ∧
  (∀ (n : Fin 24) (t : Nat) (s : State),
    let w := s.newel
    (w.chan n).split = some t → w.cmdMode = 2 → (w.chan n).splitRaised = false → t + 10000000 ≤ w.now →
    exec (.loadDisagree n) s = .next
      { s with newel := (w.onChan n fun c => { c with splitRaised := true }).tellBoth 0x100A n n }) ∧
  (∀ (v : BitVec 16) (s : State), v.toNat < 600 → s.newel.low = false →
    let w : NewelState := { s.newel with vbat := v.toNat, low := true }
    exec (.vbatLow v) s = .next { s with newel := ((List.range 24).foldl (fun w n => w.turnOff n) w).tellBoth 0x100D 0 v.toNat }) ∧
  (∀ (v : BitVec 16) (s : State), 700 < v.toNat → s.newel.low = true →
    let w : NewelState := { s.newel with vbat := v.toNat, low := false }
    exec (.vbatRecover v) s = .next { s with newel := (List.range 24).foldl (fun w n => w.obey n) w }) ∧
  (∀ (s : State),
    let w : NewelState := { s.newel with rev := true }
    exec (.reverseBattery true) s = .next
      { s with newel := (List.range 24).foldl (fun w n => w.onChan n fun c => { c with on := true }) w }) ∧
  (∀ (s : State), s.newel.rev = true →
    exec (.reverseBattery false) s = .next { s with newel := (List.range 24).foldl (fun w n =>
      w.onChan n fun c => { c with on := c.wanted && w.enabled n && !c.latched && !w.low }) ({ s.newel with rev := false } : NewelState) }) ∧
  (∀ (t : Nat) (s : State), s.newel.wdAuto = some t → t + 1000000000 ≤ s.newel.now →
    let w : NewelState := { s.newel with wdAuto := none }
    exec .wdAutoArm s = .next
      { s with newel := [Die.west, Die.east].foldl (fun w d => if w.par nwlWdCfgWdAuto 0 d = 1 then w.wdArm d else w) w }) ∧
  (∀ (i : Die) (s : State),
    let w := s.newel
    (w.wdOf i).state ≠ 0 → (w.linkOf i).stopped = false → w.wdPeriod i < w.now - (w.wdOf i).start →
    exec (.wdPeriodMiss i) s = .next { s with newel := w.wdMiss i 4 }) ∧
  (∀ (high : Bool) (s : State),
    exec (.safelightPinChange high) s = .next { s with newel := ({ s.newel with slPin := high } : NewelState).slCheck }) ∧
  (∀ (k : Fin 6) (high : Bool) (s : State),
    let w : NewelState := { s.newel with lh := s.newel.lh / (2 * 2 ^ k.val) * (2 * 2 ^ k.val) + (if high then 2 ^ k.val else 0) + s.newel.lh % 2 ^ k.val }
    exec (.lhPinEdge k high) s = .next { s with newel :=
      if w.slOn then ((List.range 24).filter fun n => decide (limpPin n = some k.val)).foldl (fun w n => w.limp n k.val) w else w }) ∧
  (∀ (lin : Bool) (x : Fin 24) (s : State),
    exec (.xcvrTxdTimeout lin x) s = .next { s with newel := s.newel.tellXcvr lin x 0x1008 (x.val + 2048) } ∧
    exec (.xcvrThermalShutdown lin x) s = .next { s with newel :=
      { s.newel with shut := (x.val + if lin then 24 else 0) :: s.newel.shut.erase (x.val + if lin then 24 else 0) } }) ∧
  (∀ (lin : Bool) (x : Fin 24) (s : State), s.newel.cmdMode = 2 →
    exec (.newelTxdMismatch lin x) s = .next { s with newel := s.newel.tellBoth 0x1009 x (x.val + 32 * lin.toNat) }) ∧
  (∀ (k : Fin 8) (rising : Bool) (s : State),
    let w : NewelState := { s.newel with wk := s.newel.wk / (2 * 2 ^ k.val) * (2 * 2 ^ k.val) + (if rising then 2 ^ k.val else 0) + s.newel.wk % 2 ^ k.val }
    let hit := (w.par nwlWkCfgEdge / 4 ^ k.val % 4).testBit (if rising then 0 else 1)
    let u : State := { s with newel := ({ w with woke := Nat.lor w.woke (2 ^ k.val) } : NewelState).tellBoth 0x100C k (2 ^ k.val) }
    (hit = true → exec (.wakePinEdge k rising) s = .next ((u.on .west fun d => d.wakeDie 3).on .east fun d => d.wakeDie 3)) ∧
    (hit = false → exec (.wakePinEdge k rising) s = .next { s with newel := w })) ∧
  (∀ (ok : Bool) (i : Die) (p : Nat) (bs : List Byte) (s : State), s.newel.eeJob = some (i, p, bs) →
    exec (.eePageDone ok) s = .next { s with newel := ({ s.newel with eeJob := none, ee := if ok then s.newel.ee.setBytes (16 * p) bs else s.newel.ee } : NewelState).onLink i fun l =>
      { l with eeRes := if ok then 1 else 3 } })

/-- Host cores and the consumers of queue blocks (13 R345 to R347, R351 to R354). -/
def Obligations.HostAndQueueCommandsComplete : Prop :=
  (∀ (a : Acc) (v : Word) (s : State),
    let d := s.get a.die
    let x (off : Nat) := (d.complete a.req (regAddr 0 off) .okay).writeFields 0 (regChan 0 0 (reqCopy a.req) off) off v
    let r (c : Nat) (y : DieState) : DieState := if v.getLsbD (8 + c) then y.unitReset 0 c 0 else y
    (d.regStatus a.req 0 0 0x50 true = .okay →
      exec (.coreReset a v) s = .next (s.set a.die (r 3 (r 2 (r 1 (r 0 (x 0x50)))))) ∧
      exec (.coreRun a v) s = .next (s.set a.die (r 3 (r 2 (r 1 (r 0 (x 0x50))))))) ∧
    (d.regStatus a.req 0 0 0x88 true = .okay → exec (.msipWrite a v) s = .next (s.set a.die (x 0x88)))) ∧
  (∀ (i : Die) (c : Fin 4) (s : State),
    let d := s.get i
    d.timerPending c = true → d.inDoze = true → exec (.mtimeMatch i c) s = .next (s.set i (d.wakeDie 6))) ∧
  (∀ (i : Die) (addr : Nat) (s : State),
    let d := s.get i
    let x := d.cnt evtUe 0 1
    d.hallOn .host = true → x.host.fenced = false →
    exec (.hostFence i addr) s = .next (s.set i
      (({ x with host := { x.host with fenced := true } } : DieState).raise 0x0030 (addr % 2 ^ 32)))) ∧
  (∀ (a : Acc) (n : Fin 64) (s : State),
    let d := s.get a.die
    d.regStatus a.req 14 n 0x130 false = .okay →
    (d.qbUnread n = 0 → exec (.qbPop a n) s = .next (s.set a.die
      ((d.complete a.req (regAddr 14 0x130) .okay 0).wr qbkStatUnder 1 n))) ∧
    (d.qbUnread n ≠ 0 → exec (.qbPop a n) s = .next (s.set a.die
      ((d.complete a.req (regAddr 14 0x130) .okay (d.qbWord n 0).toNat).qbSeek n ((d.rd qbkRp n + 1) % (2 * d.qbSize n)))))) ∧
  (∀ (a : Acc) (n : Fin 64) (k : BitVec 18) (s : State),
    let d := s.get a.die
    let x (op : QbOp) :=
      (d.complete a.req (regAddr 14 0x134) .okay).writeFields 14 (regChan 14 n (reqCopy a.req) 0x134) 0x134 (qbOpWord op)
    let y := x (.adv k.toNat)
    d.regStatus a.req 14 n 0x134 true = .okay →
    exec (.qbAdv a n k) s = .next (s.set a.die
      (if y.qbUnread n < k.toNat then y.wr qbkStatErr 1 n else y.qbSeek n ((y.rd qbkRp n + k.toNat) % (2 * y.qbSize n)))) ∧
    exec (.qbSetmark a n) s = .next (s.set a.die ((x .setmark).wr qbkMark ((x .setmark).rd qbkRp n) n)) ∧
    exec (.qbRewind a n) s = .next (s.set a.die ((x .rewind).qbSeek n ((x .rewind).rd qbkMark n))) ∧
    exec (.qbRelease a n) s = .next (s.set a.die
      (((x .release).wr qbkRel ((x .release).rd qbkRp n) n).wr qbkMark ((x .release).rd qbkRp n) n)) ∧
    exec (.qbReleaseMark a n) s = .next (s.set a.die ((x .releaseMark).wr qbkRel ((x .releaseMark).rd qbkMark n) n)) ∧
    exec (.qbFlush a n) s = .next (s.set a.die
      ((((x .flush).qbSeek n ((x .flush).rd qbkWp n)).wr qbkMark ((x .flush).rd qbkWp n) n).wr qbkRel ((x .flush).rd qbkWp n) n))) ∧
  (∀ (a : Acc) (n : Fin 64) (v : Word) (s : State),
    let d := s.get a.die
    let w := commitWord v 31
    let x := (d.complete a.req (regAddr 14 0x180) .okay).writeFields 14 (regChan 14 n (reqCopy a.req) 0x180) 0x180 w
    let ch := n + 64 * reqCopy a.req
    let p := x.qbWrite n ((List.range (w.toNat % 16 + 1)).map fun k => BitVec.ofNat 32 (x.rd qbkPush ch k))
    d.regStatus a.req 14 n 0x180 true = .okay → w.msb = true →
    exec (.qbPush a n v) s = .next (s.set a.die (p.2.wr qbkStatPushResult (if p.1 then 1 else 2) ch))) ∧
  (∀ (i : Die) (n : Fin 64) (t : Nat) (s : State),
    let d := s.get i
    Tab.get? d.host.stale n = some t → d.hallOn .host = true → d.rd qbkCfgD n ≠ 0 → t + 1000 * d.rd qbkCfgD n ≤ d.now →
    d.qbUnread n ≠ 0 →
    exec (.qbStaleExpiry i n) s = .next (s.set i
      ((({ d with host := { d.host with stale := Tab.erase d.host.stale n } } : DieState).wr qbkStatStale 1 n).qbRose (d.qbNote n) n)))

/-- Mailboxes and cluster doorbells (13 R355 to R359). -/
def Obligations.MailboxCommandsComplete : Prop :=
  (∀ (a : Acc) (m : Fin 16) (e : Nat) (v : Word) (s : State),
    let d := s.get a.die
    let x (off : Nat) := (d.complete a.req (regAddr 13 off) .okay).writeFields 13 (regChan 13 m (reqCopy a.req) off) off v
    d.mbEnd m (reqId a.req) = some e →
    (d.regStatus a.req 13 m 0x110 true = .okay → exec (.mbTx a m v) s = .next (s.set a.die
      (if 8 < ((x 0x110).mbWords m e).length + 1 then (x 0x110).wr mbxStatOvf 1 (endChan m e)
       else (x 0x110).setMb m e ((x 0x110).mbWords m e ++ [v]) ((x 0x110).mbWords m e).isEmpty))) ∧
    (d.regStatus a.req 13 m 0x118 true = .okay → exec (.mbDoorbellRing a m v) s = .next (s.set a.die
      ((x 0x118).mbNotify m (1 - e) v))) ∧
    (d.regStatus a.req 13 m 0x124 true = .okay → exec (.mbFlush a m v) s = .next (s.set a.die
      (let y := if v.getLsbD 0 then (x 0x124).mbDiscard m e else x 0x124
       if v.getLsbD 1 then y.mbDiscard m (1 - e) else y)))) ∧
  (∀ (a : Acc) (m : Fin 16) (e : Nat) (s : State),
    let d := s.get a.die
    d.mbEnd m (reqId a.req) = some e →
    (d.regStatus a.req 13 m 0x114 false = .okay → exec (.mbRx a m) s = .next (s.set a.die
      (let x := d.complete a.req (regAddr 13 0x114) .okay ((d.mbWords m (1 - e)).headD 0).toNat
       let q := x.mbWords m (1 - e)
       if q.length < 1 then x.wr mbxStatUnder 1 (endChan m e) else x.setMb m (1 - e) (q.drop 1) true))) ∧
    (d.regStatus a.req 13 m 0x11C false = .okay → exec (.mbDbValRead a m) s = .next (s.set a.die
      ((d.complete a.req (regAddr 13 0x11C) .okay (d.rd mbxDbVal (endChan m e))).wr mbxStatDb 0 (endChan m e))))) ∧
  (∀ (i : Die) (m : Fin 16) (ba : Bool) (t : Nat) (s : State),
    let d := s.get i
    let e := if ba then 1 else 0
    let k := 2 * m.val + e
    let x := (({ d with host := { d.host with drain := Tab.erase d.host.drain k } } : DieState).wr mbxStatTmo 1 (endChan m e)).raise 0x0D02 e m
    Tab.get? d.host.drain k = some t → d.hallOn .host = true → d.rd mbxCfgB m ≠ 0 → t + 1000 * d.rd mbxCfgB m ≤ d.now →
    d.mbWords m e ≠ [] →
    exec (.mbDrainTimeout i m ba) s = .next (s.set i
      (if x.endCode m e = 16 then x.msixSend (if e = 0 then x.rd mbxCfgCVec m else x.rd mbxCfgDVec m) else x))) ∧
  (∀ (a : Acc) (cl : Fin 4) (v : Word) (s : State),
    let d := s.get a.die
    let off := 0x10 + 4 * cl.val
    let x := (d.complete a.req (regAddr 13 off) .okay).writeFields 13 (regChan 13 0 (reqCopy a.req) off) off v
    d.regStatus a.req 13 0 off true = .okay → x.bit mbxDbeEn 0 cl = true →
    exec (.clusterDoorbell a cl v) s = .next (s.set a.die
      (x.engineEvent cl { typ := 6, entry := x.rd mbxDbeEntry 0 cl, cls := 13, unit := reqId a.req, w1 := reqId a.req, w2 := v.toNat })))

/-- The PCIe endpoint, DMA channels and the virtual NIC (13 R360 to R365).
The MSI-X reset mask is log 35's, unsupported requests log 13's. -/
def Obligations.PcieCommandsComplete : Prop :=
  (∀ (i : Die) (speed : Fin 8) (width : Fin 4) (s : State),
    let d := s.get i
    let y := ((d.wr pciLinkUp 1).wr pciLinkSpeed speed).wr pciLinkWidth width
    d.hallOn .host = true → d.bit pciLinkUp = false → 1 ≤ speed.val → speed.val ≤ 4 → 1 ≤ width.val → width.val ≤ 2 →
    exec (.pcieLinkUp i speed width) s = .next (s.set i
      (({ y with pci := { y.pci with linkIrq := true } } : DieState).raise 0x1101 (speed.val * 2 + width.val * 16)))) ∧
  (∀ (i : Die) (s : State),
    let d := s.get i
    let y := ((d.wr pciLinkUp 0).wr pciLinkSpeed 0).wr pciLinkWidth 0
    d.bit pciLinkUp = true →
    exec (.pcieLinkDown i) s = .next (s.set i
      (((({ y with pci := { y.pci with linkIrq := true } } : DieState).dmaAll 5).portFell (d.portUp 26) 26).raise 0x1102))) ∧
  (∀ (i : Die) (s : State),
    let d := s.get i
    d.hallOn .host = true →
    exec (.pcieHotReset i) s = .next (s.set i ((d.pciReset.portFell (d.portUp 26) 26).raise 0x1103))) ∧
  (∀ (i : Die) (bar2 : Bool) (q : BusReq) (s : State),
    (s.get i).bit pciLinkUp = true → (s.get i).inDoze = false →
    exec (.pcieInboundRequest i bar2 q) s = .next (s.pcieAccess i bar2 q)) ∧
  (∀ (i : Die) (c : Fin 8) (s : State),
    let d := s.get i
    let q := d.rd pciDmaASq 0 c
    let ws := (List.range 8).map fun k => d.qbWord q k
    let x := d.qbTake q 8
    let y := ({ x with pci := { x.pci with dma := Tab.put {} x.pci.dma c { cur := some ws, since := x.now } } } : DieState).wr pciDmaBBusy 1 0 c
    d.hallOn .host = true → d.bit pciDmaAEn 0 c = true → (d.dmaCh c).cur = none → 8 ≤ d.qbUnread q →
    (dmaBad ws = false → y.dmaLocal ws = true → y.bit pciLinkUp = true → exec (.dmaDescriptorStart i c) s = .next (s.set i y)) ∧
    (dmaBad ws = true → exec (.dmaDescriptorStart i c) s = .next (s.set i (y.dmaEnd c 6 0))) ∧
    (dmaBad ws = false → y.dmaLocal ws = false → exec (.dmaDescriptorStart i c) s = .next (s.set i (y.dmaEnd c 1 0)))) ∧
  (∀ (i : Die) (c : Fin 8) (status : Fin 16) (moved : Nat) (data : List Byte) (ws : List Word) (s : State),
    let d := s.get i
    let len := (ws.getD 1 0).toNat
    let n := if status.val = 0 then len else min moved len
    let off := (ws.getD 2 0).toNat - 0x10000000
    (d.dmaCh c).cur = some ws → d.dmaLocal ws = true →
    exec (.dmaComplete i c status moved data) s = .next (s.set i
      ((if (ws.getD 0 0).getLsbD 0 then d.extWrite ((ws.getD 3 0).toNat + 2 ^ 32 * (ws.getD 4 0).toNat) (d.host.sram.bytes off n)
        else d.sramStore off (fit n data)).dmaEnd c status n))) ∧
  (∀ (i : Die) (c : Fin 8) (ws : List Word) (s : State),
    let d := s.get i
    (d.dmaCh c).cur = some ws → (ws.getD 0 0).getLsbD 0 = false → (d.dmaCh c).since + 1000 * d.rd pciCplTmo ≤ d.now →
    exec (.dmaReadTimeout i c) s = .next (s.set i (d.dmaEnd c 3 0))) ∧
  (∀ (a : Acc) (v : Word) (s : State),
    let d := s.get a.die
    let x (off : Nat) := (d.complete a.req (regAddr 17 off) .okay).writeFields 17 (regChan 17 0 (reqCopy a.req) off) off v
    (d.regStatus a.req 17 0 0x220 true = .okay →
      exec (.vnicTxTail a v) s = .next (s.set a.die { x 0x220 with pci := { (x 0x220).pci with vnicIrq := false } })) ∧
    (d.regStatus a.req 17 0 0x228 true = .okay →
      exec (.vnicRxTail a v) s = .next (s.set a.die { x 0x228 with pci := { (x 0x228).pci with vnicIrq := false } }))) ∧
  (∀ (i : Die) (desc : List Word) (bytes : List Byte) (s : State),
    let d := s.get i
    let at_ := ringAddr (d.rd pciTxbLo) (d.rd pciTxbHi) (d.rd pciTxHead)
    d.hallOn .host = true → d.hallOn .swc = true → d.portUp 26 = true →
    d.rd pciTxHead ≠ d.rd pciTxTail % 2 ^ d.rd pciRingsTxlog2 → d.vnicOuter = true →
    exec (.vnicTxFrame i desc bytes) s = .next (s.set i (d.vnicTx at_ (desc.getD 2 0).toNat (desc.getD 3 0).toNat bytes))) ∧
  (∀ (i : Die) (desc : List Word) (bytes : List Byte) (s : State),
    let d := s.get i
    let at_ := ringAddr (d.rd pciTxbLo) (d.rd pciTxbHi) (d.rd pciTxHead)
    let buf := d.ringWord at_ 0 + 2 ^ 32 * d.ringWord at_ 1
    let len := d.ringWord at_ 2 % 2 ^ 14
    d.hallOn .host = true → d.hallOn .swc = true → d.portUp 26 = true →
    d.rd pciTxHead ≠ d.rd pciTxTail % 2 ^ d.rd pciRingsTxlog2 → d.vnicOuter = false → inSram at_ 16 = true → inSram buf len = true →
    exec (.vnicTxFrame i desc bytes) s = .next (s.set i
      (d.vnicTx at_ (d.ringWord at_ 2) (d.ringWord at_ 3) (d.host.sram.bytes (buf - 0x10000000) len)))) ∧
  (∀ (i : Die) (buf t : Nat) (s : State),
    let d := s.get i
    d.hallOn .host = true → d.hallOn .swc = true → d.portUp 26 = true → d.portShut 26 = false →
    d.rd pciRxHead ≠ d.rd pciRxTail % 2 ^ d.rd pciRingsRxlog2 → d.pickClass 26 (fun _ => true) = some t →
    exec (.vnicRxWrite i buf) s = .next (s.set i (d.vnicDeliver t buf))) ∧
  (∀ (i : Die) (s : State),
    let d := s.get i
    d.pci.rxCount ≠ 0 → d.pci.rxFirst + 1000 * d.rd pciIntBUsec ≤ d.now →
    exec (.vnicRxNotifyTimer i) s = .next (s.set i
      (({ d with pci := { d.pci with rxCount := 0 } } : DieState).vnicNotify (d.rd pciIntARxvec))))

/-- Halls, Doze and Rest (15 R396 to R400; 01 R18 to R22).
Refuse order and what a power state keeps are the model's (logs 25, 26). -/
def Obligations.PowerCommandsComplete : Prop :=
  (∀ (a : Acc) (v : Word) (s : State),
    let d := s.get a.die
    let w := v ||| 3
    let x := (d.complete a.req (regAddr 1 8) .okay).writeFields 1 (regChan 1 0 (reqCopy a.req) 8) 8 w
    d.regStatus a.req 1 0 8 true = .okay → w.getLsbD 9 = true →
    exec (.hallCtlWrite a v) s = .next (s.set a.die (x.hallSwitch (Nat.lor (d.rd pwrHallCtl) 3)))) ∧
  (∀ (i : Die) (h : Fin 10) (s : State),
    let d := s.get i
    d.pow.rising.contains h.val = true →
    exec (.hallPowerReady i h) s = .next (s.set i
      { d.wr pwrHallStatReady (Nat.lor (d.rd pwrHallStatReady) (2 ^ h.val)) with pow := { d.pow with rising := d.pow.rising.erase h.val } })) ∧
  (∀ (a : Acc) (v : Word) (s : State),
    let d := s.get a.die
    let x := (d.complete a.req (regAddr 1 0x10) .okay).writeFields 1 (regChan 1 0 (reqCopy a.req) 0x10) 0x10 v
    d.regStatus a.req 1 0 0x10 true = .okay → v.getLsbD 9 = false →
    exec (.hallReset a v) s = .next (s.set a.die
      ((allHalls.filter fun h => decide (2 ≤ h.num) && v.getLsbD h.num).foldl (fun d h => d.hallClear h) x))) ∧
  (∀ (a : Acc) (v : Word) (s : State),
    let d := s.get a.die
    let x := (d.complete a.req (regAddr 1 4) .okay).writeFields 1 (regChan 1 0 (reqCopy a.req) 4) 4 (pwrReqWord v 1)
    d.regStatus a.req 1 0 4 true = .okay → x.rd pwrStateCur = 0 → x.dozeBar = none →
    exec (.dozeRequest a v) s = .next (s.set a.die { (x.wr pwrStateResult 1).wr pwrStateCur 1 with pow := { x.pow with wakeHit := false } })) ∧
  (∀ (i : Die) (s : State),
    let d := s.get i
    let y := (d.wr pwrStateCur 0).cnt pwrCntDozes
    d.rd pwrStateCur = 1 → d.bus.waiting.isEmpty = true → d.pow.wakeHit = false →
    exec (.dozeEnter i) s = .next (s.set i { y with pow := { y.pow with stopped := d.dozeHalls.map Hall.num } })) ∧
  (∀ (i : Die) (src : Fin 7) (s : State),
    let d := s.get i
    d.inDoze = true → exec (.dozeWake i src) s = .next (s.set i (d.wakeDie src))) ∧
  (∀ (a : Acc) (v : Word) (s : State),
    let d := s.get a.die
    let x := (d.complete a.req (regAddr 1 4) .okay).writeFields 1 (regChan 1 0 (reqCopy a.req) 4) 4 (pwrReqWord v 2)
    d.regStatus a.req 1 0 4 true = .okay → x.rd pwrStateCur = 0 → x.rd pwrWakeEn ≠ 0 → x.pairMode = 0 → (s.set a.die x).loadHeld a.die = false →
    exec (.restRequest a v) s = .next (s.set a.die
      { (x.wr pwrStateResult 1).wr pwrStateCur 3 with pow := { x.pow with pendAt := x.now, wakeHit := false } })) ∧
  (∀ (i : Die) (s : State),
    let d := s.get i
    d.rd pwrStateCur = 2 → d.pow.pendAt + 1000000000 ≤ d.now →
    exec (.restPendingTimeout i) s = .next (s.set i ((d.wr pwrStateCur 0).pwrRefuse 4))) ∧
  (∀ (i : Die) (s : State),
    let d := s.get i
    d.rd pwrStateCur = 3 → d.pairMode = 0 → (s.get i.other).linkUp = false →
    exec (.restEnter i) s = .next ((s.set i d.restNow).onNewel fun w => w.restDie i)) ∧
  (∀ (i : Die) (s : State), exec (.restWake i 2) s = .next (s.set i ((s.get i).wakeDie 2))) ∧
  (∀ (i : Die) (src : Fin 7) (s : State), src = 0 ∨ src = 1 ∨ src = 3 →
    exec (.restWake i src) s = .next ((s.set i ((s.get i).wakeDie src)).set i.other ((s.get i.other).wakeDie src)))

/-- Supplies, resets and the Newel's own restart (15 R401 to R404).
Delays of the sequencing are left to the commands (log 26). -/
def Obligations.SupplyAndResetCommandsComplete : Prop :=
  (∀ (s : State), exec .moduleOff s = .next
    (((s.set .west s.west.dark).set .east s.east.dark).onNewel fun w =>
      { w.restart with offline := true, active := .west, vbat := 0, low := true, rev := false, slPin := true, lh := 0, wk := 0, ntemp := 0, supply := Vector.replicate 2 { on := 0, good := 0 } })) ∧
  (∀ (v : BitVec 16) (s : State),
    s.newel.offline = true → 450 < v.toNat →
    exec (.modulePowerOn v) s = .next (s.onNewel fun w =>
      ((({ w with offline := false, vbat := v.toNat, low := decide (v.toNat ≤ 700), wdAuto := some w.now, supply := Vector.replicate 2 { on := 1, good := 0, why := 0 } } : NewelState).seed .west).seed .east))) ∧
  (∀ (i : Die) (g : Fin 3) (s : State),
    let u := s.onNewel fun w => w.onSupply i fun p => { p with good := g.val + 1, on := min 3 (g.val + 2) }
    s.newel.offline = false → (s.newel.supplyOf i).good = g.val → s.groupsOn i = g.val + 1 →
    exec (.powerGoodRise i g) s = .next (if g.val = 2 then u.release i else u)) ∧
  (∀ (i : Die) (g : Fin 3) (s : State),
    let now := s.newel.now
    let fails := now :: (s.newel.supplyOf i).fails.filter fun t => decide (now < t + 1000000000)
    s.newel.offline = false → g.val < s.groupsOn i → fails.length < 3 →
    exec (.powerGoodFault i g) s = .next
      (((s.on i DieState.dark).on i.other DieState.partnerMute).onNewel fun w =>
        w.onSupply i fun _ => { on := 0, good := 0, fails := fails, off := false, retryAt := some (now + 10000000), why := 2 })) ∧
  (∀ (i : Die) (g : Fin 3) (s : State),
    let now := s.newel.now
    let fails := now :: (s.newel.supplyOf i).fails.filter fun t => decide (now < t + 1000000000)
    let u := ((s.on i DieState.dark).on i.other DieState.partnerMute).onNewel fun w => w.onSupply i fun _ => { on := 0, good := 0, fails := fails, off := true, retryAt := none, why := 2 }
    s.newel.offline = false → g.val < s.groupsOn i → 3 ≤ fails.length → (u.get i.other).pow.alive = true →
    exec (.powerGoodFault i g) s = .next (u.on i.other fun x => x.raise 0x0105 ((dieIdx i).val + 2 * g.val))) ∧
  (∀ (i : Die) (t : Nat) (s : State),
    (s.newel.supplyOf i).retryAt = some t → t ≤ s.newel.now → s.newel.offline = false →
    exec (.pgRetry i) s = .next (s.onNewel fun w => w.onSupply i fun p => { p with on := 1, good := 0, retryAt := none })) ∧
  (∀ (s : State),
    let lost (x : DieState) : DieState := if x.pow.alive && x.bit nwlLinkUp then x.nlLost 1 else x
    s.newel.offline = false →
    exec .newelReset s = .next ((((s.onNewel fun w => { w.restart with note := [0, 1] }).on .west lost).on .east lost).showArmed 0)) ∧
  (∀ (i : Die) (s : State),
    (s.get i).pow.alive = true →
    exec (.rstinAssert i) s = .next ((s.set i ((s.get i).afterReset 3 s.newel.mode true false)).on i.other DieState.partnerMute)) ∧
  (∀ (a : Acc) (v : Word) (s : State),
    let d := s.get a.die
    let x := (d.complete a.req (regAddr 1 0x24) .okay).writeFields 1 (regChan 1 0 (reqCopy a.req) 0x24) 0x24 v
    d.regStatus a.req 1 0 0x24 true = .okay → v.toNat % 65536 = 0xD1E0 → v.msb = true →
    exec (.pwrResetWrite a v) s = .next ((s.set a.die x).dieReset a.die 4)) ∧
  (∀ (a : Acc) (v : Word) (s : State),
    let d := s.get a.die
    let x := (d.complete a.req (regAddr 1 0x24) .okay).writeFields 1 (regChan 1 0 (reqCopy a.req) 0x24) 0x24 v
    d.regStatus a.req 1 0 0x24 true = .okay → v.toNat % 65536 ≠ 0xD1E0 →
    exec (.pwrResetWrite a v) s = .next (s.set a.die ((x.wr pwrStateReason 5).raise 0x0102 5)))

/-- The boot ROM (15 R405, R406).
The boot's working area is log 27's. -/
def Obligations.BootCommandsComplete : Prop :=
  (∀ (i : Die) (s : State),
    let d := s.get i
    d.pow.alive = true → d.rd pwrBootStage = 0 →
    exec (.bootStart i) s = .next (s.set i
      { (d.wr sysCoreCtlRun 1).wr pwrBootStage 1 with pow := { d.pow with tried := false, firstFail := 0 }, upd := { d.upd with trialAt := d.trialStart } })) ∧
  (∀ (i : Die) (s : State),
    let d := s.get i
    d.rd pwrBootStage = 1 → d.currentCopy = none →
    exec (.bootHeaderDone i) s = .next (s.set i ((d.wr pwrBootStage 7).wr pwrBootFail 1))) ∧
  (∀ (i : Die) (s : State),
    let d := s.get i
    let f := headerCheck d.upd.fuses (d.flashRead (bankAddr d.pow.bootBank) 512)
    d.rd pwrBootStage = 1 → d.currentCopy ≠ none → d.pow.tried = true →
    exec (.bootHeaderDone i) s = .next (s.set i (if f = 0 then d.wr pwrBootStage 2 else d.romRefuse f))) ∧
  (∀ (i : Die) (s : State),
    let d := s.get i
    let u := s.romBegin i
    let y := u.get i
    let f := headerCheck y.upd.fuses (y.flashRead (bankAddr y.pow.bootBank) 512)
    d.rd pwrBootStage = 1 → d.currentCopy ≠ none → d.pow.tried = false →
    exec (.bootHeaderDone i) s = .next (u.set i (if f = 0 then y.wr pwrBootStage 2 else y.romRefuse f))) ∧
  (∀ (i : Die) (s : State),
    let d := s.get i
    d.rd pwrBootStage = 2 →
    exec (.bootVerifyDone i) s = .next (s.set i (if d.signed d.pow.bootBank then d.wr pwrBootStage 3 else d.romRefuse 6))) ∧
  (∀ (i : Die) (s : State),
    let d := s.get i
    let b := bankAddr d.pow.bootBank
    let h := d.flashRead b 512
    d.rd pwrBootStage = 3 →
    exec (.bootCopyDone i) s = .next (s.set i
      (d.sramStore (leAt h 32 4 - 0x10000000) (d.flashRead (b + leAt h 24 4) (leAt h 28 4))).romDone))

/-- The update block (16 R416 to R426).
Checks that the spec names no reason for are log 28's. -/
def Obligations.UpdateCommandsComplete : Prop :=
  (∀ (a : Acc) (v : Word) (s : State),
    let d := s.get a.die
    let x (op : Nat) := (d.complete a.req (regAddr 18 4) .okay).writeFields 18 (regChan 18 0 (reqCopy a.req) 4) 4 (updWord v op)
    d.regStatus a.req 18 0 4 true = .okay →
    ((x 1).bit updStatBusy = false → exec (.updOpen a v) s = .next (s.set a.die ((x 1).updRun 1 (x 1).updSource 0))) ∧
    ((x 3).bit updStatBusy = false → exec (.updActivate a v) s = .next (s.set a.die ((x 3).updRun 3 (x 3).updSource 0))) ∧
    ((x 4).bit updStatBusy = false → exec (.updConfirm a v) s = .next (s.set a.die ((x 4).updRun 4 (x 4).updSource 0))) ∧
    ((x 6).bit updStatBusy = false → exec (.updFallback a v) s = .next (s.set a.die ((x 6).updRun 6 (x 6).updSource 0))) ∧
    ((x 7).bit updStatBusy = false → exec (.updChain a v) s = .next (s.set a.die ((x 7).updRun 7 (x 7).updSource 0))) ∧
    ((x 8).bit updStatBusy = false → exec (.updInit a v) s = .next (s.set a.die ((x 8).updRun 8 (x 8).updSource 0)))) ∧
  (∀ (a : Acc) (v : Word) (p : Nat) (s : State),
    let d := s.get a.die
    let x := (d.complete a.req (regAddr 18 0x10) .okay).writeFields 18 (regChan 18 0 (reqCopy a.req) 0x10) 0x10 (commitWord v 31)
    d.regStatus a.req 18 0 0x10 true = .okay → x.bit updStatBusy = false →
    x.progPlace (x.rd updProgTarget) (x.rd updProgUnit) = .ok p →
    exec (.updProg a v) s = .next (s.set a.die (x.updRun 16 p (x.rd updProgUnit)))) ∧
  (∀ (i : Die) (p u : Nat) (s : State),
    let d := s.get i
    let y := (d.flashProgram p (d.updBuffer d.upd.src 4096)).cnt updCntUnits
    d.upd.op = some (16, p, u) →
    exec (.updProgDone i true) s = .next (s.set i
      ((if bankAddr 0 ≤ p ∧ p < 0x05000000 then y.wr updNext (max (y.rd updNext) (u + 1)) else y).updEnd .ok)) ∧
    exec (.updProgDone i false) s = .next (s.set i ((d.flashBroken p).updEnd .flash))) ∧
  (∀ (a : Acc) (v : Word) (s : State),
    let d := s.get a.die
    let x := (d.complete a.req (regAddr 18 4) .okay).writeFields 18 (regChan 18 0 (reqCopy a.req) 4) 4 (updWord v 2)
    d.regStatus a.req 18 0 4 true = .okay → x.bit updStatBusy = false → x.rd updStatState = 1 →
    (x.sessionLen + 8192) / 4096 ≤ x.rd updNext →
    exec (.updVerify a v) s = .next (s.set a.die ((x.updRun 2 0 0).wr updStatState 2))) ∧
  (∀ (i : Die) (p u : Nat) (s : State),
    let d := s.get i
    let y := { d with upd := { d.upd with ready := d.spareBank } }.updEnd .ok
    d.upd.op = some (2, p, u) →
    exec (.updVerifyDone i) s = .next (s.set i
      (if d.signed d.spareBank then (y.wr updStatState 3).raise 0x1202 (d.rd updHdrId)
       else ((y.wr updStatState 4).wr updStatFail 6).raise 0x1203 6))) ∧
  (∀ (a : Acc) (v : Word) (s : State),
    let d := s.get a.die
    let x := (d.complete a.req (regAddr 18 4) .okay).writeFields 18 (regChan 18 0 (reqCopy a.req) 4) 4 (updWord v 5)
    d.regStatus a.req 18 0 4 true = .okay → x.bit updStatBusy = false →
    exec (.updAbort a v) s = .next (s.set a.die
      ((({ x with upd := { x.upd with hdr := [] } }.wr updStatState 0).wr updNext 0).updEnd .ok))) ∧
  (∀ (i : Die) (p q : Nat) (s : State),
    let d := s.get i
    (d.upd.op = some (1, p, q) → inSram p 4096 = true → exec (.updOperationDone i) s = .next (s.set i (d.openDone p))) ∧
    (d.upd.op = some (3, p, q) → exec (.updOperationDone i) s = .next (s.set i d.activateDone)) ∧
    (d.upd.op = some (4, p, q) → exec (.updOperationDone i) s = .next (s.set i d.confirmDone)) ∧
    (d.upd.op = some (6, p, q) → exec (.updOperationDone i) s = .next (s.set i d.fallbackDone)) ∧
    (d.upd.op = some (7, p, q) → inSram p 4096 = true → exec (.updOperationDone i) s = .next (s.set i (d.chainDone p))) ∧
    (d.upd.op = some (8, p, q) → inSram p 4096 = true → exec (.updOperationDone i) s = .next (s.set i (d.initDone p)))) ∧
  (∀ (i : Die) (r : BootRec) (t : Nat) (s : State),
    let d := s.get i
    d.bootRec = some r → d.upd.trialAt = some t → d.pow.alive = true → d.upd.op = none → r.trial = 1 → r.trialS ≠ 0 →
    t + 1000000000 * r.trialS ≤ d.now →
    exec (.updTrialExpiry i) s = .next ((s.set i d.fallBack).dieReset i 4 true))

/-- Uncorrectable errors, the event log and perturbation (17 R428, R437, R439 to R441).
Fence numbers are log 29's. -/
def Obligations.GuardCommandsComplete : Prop :=
  (∀ (i : Die) (u : UnitRef) (s : State), u.cls.val ≠ 15 →
    exec (.uncorrectableError i u) s = .next (s.set i ((s.get i).unitError u.cls.val u.idx))) ∧
  (∀ (i : Die) (u : UnitRef) (s : State),
    let x := (s.get i).unitError 15 u.idx
    u.cls.val = 15 → x.fences.contains 79 = true →
    exec (.uncorrectableError i u) s = .next ((s.set i x).linkDown 0)) ∧
  (∀ (a : Acc) (v : Word) (s : State),
    let d := s.get a.die
    let x := (d.complete a.req (regAddr 20 0x14) .okay).writeFields 20 (regChan 20 0 (reqCopy a.req) 0x14) 0x14 (commitWord v 8)
    d.regStatus a.req 20 0 0x14 true = .okay → d.bit evtLogCfgEn = false →
    exec (.logEnable a v) s = .next (s.set a.die x.logStart)) ∧
  (∀ (a : Acc) (v : Word) (s : State),
    let d := s.get a.die
    let x := (d.complete a.req (regAddr 19 4) .okay).writeFields 19 (regChan 19 0 (reqCopy a.req) 4) 4 v
    d.regStatus a.req 19 0 4 true = .okay →
    (v.toNat % 65536 = 0x5A5A → exec (.prtUnlock a v) s = .next (s.set a.die
      (if Config.fusePrtLock x.num then x.cnt prtStatDenied else { x with guard := { x.guard with half := some (unlockId a.req) } }))) ∧
    (v.toNat % 65536 = 0xA5A5 → x.guard.half = some (unlockId a.req) → x.bit prtStatOpen = false →
      exec (.prtUnlock a v) s = .next (s.set a.die
        (if Config.fusePrtLock x.num then x.cnt prtStatDenied
         else (({ x with guard := { x.guard with half := none } } : DieState).wr prtStatOpen 1).raise 0x1310 (reqId a.req))))) ∧
  (∀ (a : Acc) (v : Word) (s : State),
    let d := s.get a.die
    let x := (d.complete a.req (regAddr 19 0xC) .okay).writeFields 19 (regChan 19 0 (reqCopy a.req) 0xC) 0xC (commitWord v 31)
    d.regStatus a.req 19 0 0xC true = .okay → x.bit prtStatOpen = true →
    exec (.prtRelock a v) s = .next (s.set a.die { x.stageZero.wr prtStatOpen 0 with guard := { x.guard with relock := true } })) ∧
  (∀ (a : Acc) (c : Fin 32) (v : Word) (s : State),
    let d := s.get a.die
    let x := (d.complete a.req (regAddr 19 (0x400 + 16 * c)) .okay).writeFields 19 (regChan 19 0 (reqCopy a.req) (0x400 + 16 * c)) (0x400 + 16 * c) (commitWord v 12)
    d.regStatus a.req 19 0 (0x400 + 16 * c) true = .okay → x.bit prtStatOpen = true →
    exec (.prtCanArm a c v) s = .next (s.set a.die { x with guard := { x.guard with armed := c.val :: x.guard.armed.erase c.val } })) ∧
  (∀ (a : Acc) (v : Word) (s : State),
    let d := s.get a.die
    let x := (d.complete a.req (regAddr 19 0x640) .okay).writeFields 19 (regChan 19 0 (reqCopy a.req) 0x640) 0x640 v
    d.regStatus a.req 19 0 0x640 true = .okay → x.bit prtStatOpen = true →
    exec (.prtWdN a v) s = .next (s.set a.die (x.wr prtWdLeft (prtWdN.ofWord v)))) ∧
  (∀ (i : Die) (p : Fin 29) (on : Bool) (s : State),
    let d := s.get i
    d.rd prtPortBBpOn 0 p ≠ 0 →
    exec (.prtBpPhase i p on) s = .next (s.set i (d.onPort p fun y => { y with bpBlocked := on })))
end

