-- ==== Sys2Proof/Laws/Tab.lean ====
section
/-! SUPPORT. Laws/Tab.lean: reads after writes of sparse tables and byte memories, and the canonical form, which every operation
keeps. -/

namespace Sys2Proof.Machine

/-! ### Tables -/

@[simp] theorem Tab.get?_insert_same {α : Type} (t : Tab α) (k : Nat) (v : α) : (t.insert k v).get? k = some v := by
  induction t with
  | nil => simp [Tab.insert, Tab.get?]
  | cons e r ih =>
    obtain ⟨k', v'⟩ := e
    by_cases h1 : k = k'
    · simp [Tab.insert, Tab.get?, h1]
    · by_cases h2 : k < k'
      · simp [Tab.insert, Tab.get?, h1, h2]
      · simp [Tab.insert, Tab.get?, h1, h2, ih]

/-- A write leaves every other key of a table in canonical form alone. -/
theorem Tab.get?_insert_other {α : Type} (t : Tab α) {k j : Nat} (v : α) (h : j ≠ k) : (t.insert k v).get? j = t.get? j := by
  induction t with
  | nil => simp [Tab.insert, Tab.get?, h]
  | cons e r ih =>
    obtain ⟨k', v'⟩ := e
    unfold Tab.insert
    split
    · next h1 => subst h1; simp [Tab.get?, h]
    · split
      · next h1 h2 =>
        by_cases h3 : j < k
        · have : j ≠ k' := by omega
          have h4 : j < k' := by omega
          simp [Tab.get?, h, h3, this, h4]
        · simp [Tab.get?, h, h3]
      · next h1 h2 => by_cases h3 : j = k' <;> by_cases h4 : j < k' <;> simp [Tab.get?, h3, h4, ih]

/-- A bound below which a sorted table lists nothing may be lowered. -/
theorem Tab.sorted_mono {α : Type} {t : Tab α} {a b : Nat} (h : b ≤ a) (hs : t.sorted a = true) : t.sorted b = true := by
  cases t with
  | nil => rfl
  | cons e r =>
    simp only [Tab.sorted, Bool.and_eq_true, Nat.ble_eq] at hs ⊢
    exact ⟨by omega, hs.2⟩

/-- A key below the bound is not listed. -/
theorem Tab.get?_below {α : Type} {t : Tab α} {a k : Nat} (hs : t.sorted a = true) (h : k < a) : t.get? k = none := by
  cases t with
  | nil => rfl
  | cons e r =>
    simp only [Tab.sorted, Bool.and_eq_true, Nat.ble_eq] at hs
    have h1 : k ≠ e.1 := by omega
    have h2 : k < e.1 := by omega
    simp [Tab.get?, h1, h2]

theorem Tab.sorted_insert {α : Type} {t : Tab α} {a k : Nat} (v : α) (hs : t.sorted a = true) (hk : a ≤ k) :
    (t.insert k v).sorted a = true := by
  induction t generalizing a with
  | nil => simp [Tab.insert, Tab.sorted, hk]
  | cons e r ih =>
    obtain ⟨k', v'⟩ := e
    simp only [Tab.sorted, Bool.and_eq_true, Nat.ble_eq] at hs
    unfold Tab.insert
    split
    · next h => subst h; simp [Tab.sorted, hs]
    · split
      · next h1 h2 =>
        simp only [Tab.sorted, Bool.and_eq_true, Nat.ble_eq]
        exact ⟨hk, by omega, hs.2⟩
      · next h1 h2 =>
        simp only [Tab.sorted, Bool.and_eq_true, Nat.ble_eq]
        exact ⟨hs.1, ih hs.2 (by omega)⟩

theorem Tab.sorted_erase {α : Type} {t : Tab α} {a : Nat} (k : Nat) (hs : t.sorted a = true) : (t.erase k).sorted a = true := by
  induction t generalizing a with
  | nil => rfl
  | cons e r ih =>
    obtain ⟨k', v'⟩ := e
    have hs' := hs
    simp only [Tab.sorted, Bool.and_eq_true, Nat.ble_eq] at hs
    unfold Tab.erase
    split
    · exact Tab.sorted_mono (by omega) hs.2
    · split
      · exact hs'
      · simp only [Tab.sorted, Bool.and_eq_true, Nat.ble_eq]
        exact ⟨hs.1, ih hs.2⟩

/-- In a sorted table an erased key is not listed. -/
theorem Tab.get?_erase_same {α : Type} {t : Tab α} {a : Nat} (k : Nat) (hs : t.sorted a = true) : (t.erase k).get? k = none := by
  induction t generalizing a with
  | nil => rfl
  | cons e r ih =>
    obtain ⟨k', v'⟩ := e
    simp only [Tab.sorted, Bool.and_eq_true, Nat.ble_eq] at hs
    unfold Tab.erase
    split
    · next h => exact Tab.get?_below hs.2 (by omega)
    · split
      · next h1 h2 => simp [Tab.get?, h1, h2]
      · next h1 h2 => simp [Tab.get?, h1, h2, ih hs.2]

theorem Tab.get?_erase_other {α : Type} {t : Tab α} {a k j : Nat} (hs : t.sorted a = true) (h : j ≠ k) :
    (t.erase k).get? j = t.get? j := by
  induction t generalizing a with
  | nil => rfl
  | cons e r ih =>
    obtain ⟨k', v'⟩ := e
    simp only [Tab.sorted, Bool.and_eq_true, Nat.ble_eq] at hs
    unfold Tab.erase
    split
    · next h1 =>
      subst h1
      by_cases h3 : j < k
      · rw [Tab.get?_below hs.2 (by omega)]; simp [Tab.get?, h, h3]
      · simp [Tab.get?, h, h3]
    · split
      · rfl
      · next h1 h2 => by_cases h3 : j = k' <;> by_cases h4 : j < k' <;> simp [Tab.get?, h3, h4, ih hs.2]

theorem Tab.all_insert {α : Type} {t : Tab α} {p : Nat × α → Bool} {k : Nat} {v : α} (ht : t.all p = true) (hv : p (k, v) = true) :
    (t.insert k v).all p = true := by
  induction t with
  | nil => simp [Tab.insert, hv]
  | cons e r ih =>
    simp only [List.all_cons, Bool.and_eq_true] at ht
    unfold Tab.insert
    split
    · simp only [List.all_cons, Bool.and_eq_true]; exact ⟨hv, ht.2⟩
    · split
      · simp only [List.all_cons, Bool.and_eq_true]; exact ⟨hv, ht.1, ht.2⟩
      · simp only [List.all_cons, Bool.and_eq_true]; exact ⟨ht.1, ih ht.2⟩

theorem Tab.all_erase {α : Type} {t : Tab α} {p : Nat × α → Bool} (k : Nat) (ht : t.all p = true) : (t.erase k).all p = true := by
  induction t with
  | nil => rfl
  | cons e r ih =>
    have ht' := ht
    simp only [List.all_cons, Bool.and_eq_true] at ht
    unfold Tab.erase
    split
    · exact ht.2
    · split
      · exact ht'
      · simp only [List.all_cons, Bool.and_eq_true]; exact ⟨ht.1, ih ht.2⟩

/-- Every write keeps the canonical form. -/
theorem Tab.wf_put {α : Type} [DecidableEq α] {d : α} {t : Tab α} (k : Nat) (v : α) (h : Tab.wf d t = true) :
    Tab.wf d (Tab.put d t k v) = true := by
  simp only [Tab.wf, Bool.and_eq_true] at h ⊢
  unfold Tab.put
  split
  · exact ⟨Tab.sorted_erase k h.1, Tab.all_erase k h.2⟩
  · next hv => exact ⟨Tab.sorted_insert v h.1 (Nat.zero_le k), Tab.all_insert h.2 (by simp [hv])⟩

/-- A read gives what was written to the key last. -/
theorem Tab.get_put_same {α : Type} [DecidableEq α] {d : α} {t : Tab α} (k : Nat) (v : α) (h : Tab.wf d t = true) :
    Tab.get d (Tab.put d t k v) k = v := by
  simp only [Tab.wf, Bool.and_eq_true] at h
  unfold Tab.put Tab.get
  split
  · next hv => rw [Tab.get?_erase_same k h.1]; exact hv.symm
  · simp

/-- A write leaves every other key alone. -/
theorem Tab.get_put_other {α : Type} [DecidableEq α] {d : α} {t : Tab α} {k j : Nat} (v : α) (h : Tab.wf d t = true) (hj : j ≠ k) :
    Tab.get d (Tab.put d t k v) j = Tab.get d t j := by
  simp only [Tab.wf, Bool.and_eq_true] at h
  unfold Tab.put Tab.get
  split
  · rw [Tab.get?_erase_other h.1 hj]
  · rw [Tab.get?_insert_other t v hj]

/-! ### Byte memories -/

theorem Memory.wf_setByte {m : Memory} (a : Nat) (b : Byte) (h : m.wf = true) : (m.setByte a b).wf = true := Tab.wf_put a b h

@[simp] theorem Memory.byte_setByte_same {m : Memory} (a : Nat) (b : Byte) (h : m.wf = true) : (m.setByte a b).byte a = b :=
  Tab.get_put_same a b h

theorem Memory.byte_setByte_other {m : Memory} {a x : Nat} (b : Byte) (h : m.wf = true) (hx : x ≠ a) :
    (m.setByte a b).byte x = m.byte x := Tab.get_put_other b h hx

/-- Every store keeps the canonical form. -/
theorem Memory.wf_setBytes {m : Memory} (a : Nat) (bs : List Byte) (h : m.wf = true) : (m.setBytes a bs).wf = true := by
  induction bs generalizing m a with
  | nil => exact h
  | cons b r ih => exact ih (a + 1) (Memory.wf_setByte a b h)

/-- A store leaves every byte outside it alone. -/
theorem Memory.byte_setBytes_other {m : Memory} {a x : Nat} (bs : List Byte) (h : m.wf = true) (hx : x < a ∨ a + bs.length ≤ x) :
    (m.setBytes a bs).byte x = m.byte x := by
  induction bs generalizing m a with
  | nil => rfl
  | cons b r ih =>
    simp only [List.length_cons] at hx
    unfold Memory.setBytes
    rw [ih (Memory.wf_setByte a b h) (by omega), Memory.byte_setByte_other b h (by omega)]

/-- A read of a stored byte gives it. -/
theorem Memory.byte_setBytes_same {m : Memory} (a : Nat) (bs : List Byte) (h : m.wf = true) (i : Nat) (hi : i < bs.length) :
    (m.setBytes a bs).byte (a + i) = bs[i] := by
  induction bs generalizing m a i with
  | nil => simp at hi
  | cons b r ih =>
    unfold Memory.setBytes
    cases i with
    | zero =>
      rw [Nat.add_zero, Memory.byte_setBytes_other r (Memory.wf_setByte a b h) (Or.inl (by omega))]
      simp [Memory.byte_setByte_same a b h]
    | succ k =>
      have e : a + (k + 1) = (a + 1) + k := by omega
      rw [e, ih (a + 1) (Memory.wf_setByte a b h) k (by simpa using hi)]
      rfl

theorem Memory.wf_setWord {m : Memory} (a : Nat) (w : Word) (h : m.wf = true) : (m.setWord a w).wf = true := Memory.wf_setBytes a _ h

theorem leBytes_length (n v : Nat) : (leBytes n v).length = n := by
  induction n generalizing v with
  | zero => rfl
  | succ n ih => simp [leBytes, ih]

end Sys2Proof.Machine
end

