-- ==== Sys2Proof/Laws/Flash.lean ====
section
/-! SUPPORT. Laws/Flash.lean: bytes of memories, little-endian numbers, and when a copy of the boot record is valid (16 R414). -/

namespace Sys2Proof.Machine

/-- Bytes that nothing has written read as 0. -/
theorem Memory.bytes_nil (a n : Nat) : Memory.bytes [] a n = List.replicate n 0 := by
  unfold Memory.bytes Memory.byte Tab.get Tab.get?
  simp [List.map_const']

/-- Bytes read back as they were written. -/
theorem Memory.bytes_setBytes (m : Memory) (a : Nat) (bs : List Byte) (h : m.wf = true) :
    (m.setBytes a bs).bytes a bs.length = bs := by
  apply List.ext_getElem
  · simp [Memory.bytes]
  · intro k h1 h2
    simp only [Memory.bytes, List.getElem_map, List.getElem_range]
    exact Memory.byte_setBytes_same a bs h k h2

/-- A number read back from its little-endian bytes, cut to them. -/
theorem leNat_leBytes (n v : Nat) : leNat (leBytes n v) = v % 256 ^ n := by
  induction n generalizing v with
  | zero => simp [leBytes, leNat, Nat.mod_one]
  | succ n ih =>
    simp only [leBytes, leNat, ih, BitVec.toNat_ofNat]
    have h : (256 : Nat) ^ (n + 1) = 256 * 256 ^ n := by rw [Nat.pow_succ, Nat.mul_comm]
    rw [h, Nat.mod_mul]

/-- A shift step of the CRC stays within 32 bits. -/
theorem crc32cShift_lt (n c : Nat) (h : c < 2 ^ 32) : crc32cShift n c < 2 ^ 32 := by
  induction n generalizing c with
  | zero => exact h
  | succ n ih =>
    unfold crc32cShift
    apply ih
    split
    · exact Nat.xor_lt_two_pow (by omega) (by decide)
    · omega

/-- A CRC stays within 32 bits. -/
theorem crc32c_lt (bs : List Byte) : crc32c bs < 2 ^ 32 := by
  have key : ∀ (c : Nat), c < 2 ^ 32 → crc32cOf c bs < 2 ^ 32 := by
    induction bs with
    | nil => intro c h; exact h
    | cons b r ih =>
      intro c h
      simp only [crc32cOf, List.foldl_cons]
      exact ih _ (crc32cShift_lt 8 _ (Nat.xor_lt_two_pow h (by have := b.isLt; omega)))
  exact key _ (by decide)

/-- A number of bytes that stand at the end of a list. -/
theorem leAt_append (a b : List Byte) : leAt (a ++ b) a.length b.length = leNat b := by
  unfold leAt byteAt
  congr 1
  apply List.ext_getElem
  · simp
  · intro k h1 h2
    simp [List.getElem?_append_right, h2]

/-- A record with its MAGIC and the CRC of what stands before it is valid. -/
theorem recordValid_of_crc (b : List Byte) (hl : b.length = 4092) (hm : leAt (b ++ leBytes 4 (crc32c b)) 0 4 = 0x43455242) :
    recordValid (b ++ leBytes 4 (crc32c b)) = true := by
  have e : leAt (b ++ leBytes 4 (crc32c b)) 4092 4 = crc32c b := by
    have h := leAt_append b (leBytes 4 (crc32c b))
    rw [hl, leBytes_length, leNat_leBytes] at h
    exact h.trans (Nat.mod_eq_of_lt (crc32c_lt b))
  have t : (b ++ leBytes 4 (crc32c b)).take 4092 = b := by rw [← hl, List.take_left]
  unfold recordValid
  rw [hm, e, t]
  simp

end Sys2Proof.Machine
end

