-- ==== Sys2Proof/Laws/Forrek.lean ====
section
/-! SUPPORT. Laws/Forrek.lean: what the issue of an instruction does, and the laws of general registers and status bits. -/

namespace Sys2Proof.Machine

/-- An instruction that may run is counted, and its body runs. -/
theorem DieState.issue_issuable (d : DieState) (c : Ctx) (i : Instr) (body : DieState → Context → DieState)
    (h : d.issuable c i = true) :
    d.issue c i body = body (d.countIssue (ctxNum c)) ((d.countIssue (ctxNum c)).ctx (ctxNum c)) := by
  simp only [DieState.issuable, Bool.and_eq_true, Bool.not_eq_true', decide_eq_true_eq] at h
  obtain ⟨⟨⟨⟨h1, h2⟩, h3⟩, h4⟩, h5⟩ := h
  simp only [DieState.issue, h1, h2, h3, h4, h5, Bool.not_true, Bool.false_eq_true, if_false, if_true, ne_eq, not_true_eq_false]

/-- A context that may not issue leaves the die as it is. -/
theorem DieState.issue_idle (d : DieState) (c : Ctx) (i : Instr) (body : DieState → Context → DieState)
    (h : d.mayIssue (ctxNum c) = false) : d.issue c i body = d := by
  simp [DieState.issue, h]

/-- w0 reads as 0. -/
@[simp] theorem Context.gr_zero (x : Context) : x.gr 0 = 0 := rfl

/-- A write to w0 is discarded. -/
@[simp] theorem Context.setGr_zero (x : Context) (v : Word) : x.setGr 0 v = x := rfl

/-- A register reads what was written to it. -/
theorem Context.gr_setGr_same (x : Context) (r : Nat) (v : Word) (h0 : r ≠ 0) (h : r < 16) : (x.setGr r v).gr r = v := by
  simp [Context.gr, Context.setGr, h0, h]

/-- A write of a register leaves every other register as it was. -/
theorem Context.gr_setGr_other (x : Context) (r k : Nat) (v : Word) (h : k ≠ r) : (x.setGr r v).gr k = x.gr k := by
  unfold Context.gr Context.setGr
  split
  · rfl
  · split
    · rfl
    · simp [Ne.symm h]

/-- A context that was put back is there. -/
@[simp] theorem DieState.ctx_setCtx_same (d : DieState) (n : Nat) (x : Context) : (d.setCtx n x).ctx n = x := by
  simp [DieState.ctx, DieState.setCtx, Tab.get]

/-- Another context stays as it was. -/
theorem DieState.ctx_setCtx_other (d : DieState) (n k : Nat) (x : Context) (h : k ≠ n) : (d.setCtx n x).ctx k = d.ctx k := by
  simp [DieState.ctx, DieState.setCtx, Tab.get, Tab.get?_insert_other _ _ h]

/-- A status bit that is set or cleared, and the others. -/
theorem getLsbD_setSt (st : BitVec 16) (b : StBit) (v : Bool) (k : Nat) :
    (setSt st b v).getLsbD k = if k = b.num then v else st.getLsbD k := by
  have hm : ∀ k, b.mask.getLsbD k = decide (k = b.num) := by
    intro k
    cases b <;> simp only [StBit.mask, StBit.num, BitVec.getLsbD_ofNat] <;>
      (by_cases h : k < 16
       · interval_cases k <;> decide
       · simp only [h, decide_false, Bool.false_and]; exact (decide_eq_false (by omega)).symm)
  have hn : b.num < 16 := by cases b <;> decide
  unfold setSt
  cases v
  · simp only [Bool.false_eq_true, if_false, BitVec.getLsbD_and, BitVec.getLsbD_not, hm]
    by_cases h : k = b.num
    · simp [h]
    · by_cases h16 : k < 16
      · simp [h, h16]
      · simp [h, BitVec.getLsbD_of_ge st k (by omega)]
  · simp only [if_true, BitVec.getLsbD_or, hm]
    by_cases h : k = b.num <;> simp [h]

end Sys2Proof.Machine
end

