-- ==== Sys2Proof/Laws/State.lean ====
section
/-! SUPPORT. Laws/State.lean: what each update of a die leaves as it was, one lemma for each field, and the die after an update of the
package. -/

namespace Sys2Proof.Machine

/-! ### The package -/

@[simp] theorem State.get_set_same (s : State) (d : Die) (x : DieState) : (s.set d x).get d = x := by cases d <;> rfl

@[simp] theorem State.get_set_other (s : State) (d : Die) (x : DieState) : (s.set d x).get d.other = s.get d.other := by cases d <;> rfl

@[simp] theorem State.set_newel (s : State) (d : Die) (x : DieState) : (s.set d x).newel = s.newel := by cases d <;> rfl

@[simp] theorem State.set_pending (s : State) (d : Die) (x : DieState) : (s.set d x).pending = s.pending := by cases d <;> rfl

@[simp] theorem State.get_on_same (s : State) (d : Die) (f : DieState → DieState) : (s.on d f).get d = f (s.get d) := by cases d <;> rfl

@[simp] theorem State.get_on_other (s : State) (d : Die) (f : DieState → DieState) : (s.on d f).get d.other = s.get d.other := by
  cases d <;> rfl

@[simp] theorem State.on_newel (s : State) (d : Die) (f : DieState → DieState) : (s.on d f).newel = s.newel := by cases d <;> rfl

@[simp] theorem State.on_pending (s : State) (d : Die) (f : DieState → DieState) : (s.on d f).pending = s.pending := by cases d <;> rfl

/-! ### The dies -/

@[simp] theorem DieState.wr_die (d : DieState) (f : Fld) (v ch i j : Nat) : (d.wr f v ch i j).die = d.die := rfl
@[simp] theorem DieState.wr_now (d : DieState) (f : Fld) (v ch i j : Nat) : (d.wr f v ch i j).now = d.now := rfl
@[simp] theorem DieState.wr_free (d : DieState) (f : Fld) (v ch i j : Nat) : (d.wr f v ch i j).free = d.free := rfl
@[simp] theorem DieState.wr_staged (d : DieState) (f : Fld) (v ch i j : Nat) : (d.wr f v ch i j).staged = d.staged := rfl
@[simp] theorem DieState.wr_old (d : DieState) (f : Fld) (v ch i j : Nat) : (d.wr f v ch i j).old = d.old := rfl
@[simp] theorem DieState.wr_gen (d : DieState) (f : Fld) (v ch i j : Nat) : (d.wr f v ch i j).gen = d.gen := rfl
@[simp] theorem DieState.wr_bus (d : DieState) (f : Fld) (v ch i j : Nat) : (d.wr f v ch i j).bus = d.bus := rfl
@[simp] theorem DieState.wr_evt (d : DieState) (f : Fld) (v ch i j : Nat) : (d.wr f v ch i j).evt = d.evt := rfl
@[simp] theorem DieState.wr_eng (d : DieState) (f : Fld) (v ch i j : Nat) : (d.wr f v ch i j).eng = d.eng := rfl
@[simp] theorem DieState.wr_host (d : DieState) (f : Fld) (v ch i j : Nat) : (d.wr f v ch i j).host = d.host := rfl
@[simp] theorem DieState.wr_tb (d : DieState) (f : Fld) (v ch i j : Nat) : (d.wr f v ch i j).tb = d.tb := rfl
@[simp] theorem DieState.wr_can (d : DieState) (f : Fld) (v ch i j : Nat) : (d.wr f v ch i j).can = d.can := rfl
@[simp] theorem DieState.wr_lin (d : DieState) (f : Fld) (v ch i j : Nat) : (d.wr f v ch i j).lin = d.lin := rfl
@[simp] theorem DieState.wr_gal (d : DieState) (f : Fld) (v ch i j : Nat) : (d.wr f v ch i j).gal = d.gal := rfl
@[simp] theorem DieState.wr_rte (d : DieState) (f : Fld) (v ch i j : Nat) : (d.wr f v ch i j).rte = d.rte := rfl
@[simp] theorem DieState.wr_port (d : DieState) (f : Fld) (v ch i j : Nat) : (d.wr f v ch i j).port = d.port := rfl
@[simp] theorem DieState.wr_sw (d : DieState) (f : Fld) (v ch i j : Nat) : (d.wr f v ch i j).sw = d.sw := rfl
@[simp] theorem DieState.wr_tbl (d : DieState) (f : Fld) (v ch i j : Nat) : (d.wr f v ch i j).tbl = d.tbl := rfl
@[simp] theorem DieState.wr_tim (d : DieState) (f : Fld) (v ch i j : Nat) : (d.wr f v ch i j).tim = d.tim := rfl
@[simp] theorem DieState.wr_stw (d : DieState) (f : Fld) (v ch i j : Nat) : (d.wr f v ch i j).stw = d.stw := rfl
@[simp] theorem DieState.wr_sec (d : DieState) (f : Fld) (v ch i j : Nat) : (d.wr f v ch i j).sec = d.sec := rfl
@[simp] theorem DieState.wr_pci (d : DieState) (f : Fld) (v ch i j : Nat) : (d.wr f v ch i j).pci = d.pci := rfl
@[simp] theorem DieState.wr_pow (d : DieState) (f : Fld) (v ch i j : Nat) : (d.wr f v ch i j).pow = d.pow := rfl
@[simp] theorem DieState.wr_upd (d : DieState) (f : Fld) (v ch i j : Nat) : (d.wr f v ch i j).upd = d.upd := rfl
@[simp] theorem DieState.wr_guard (d : DieState) (f : Fld) (v ch i j : Nat) : (d.wr f v ch i j).guard = d.guard := rfl
@[simp] theorem DieState.wr_cm (d : DieState) (f : Fld) (v ch i j : Nat) : (d.wr f v ch i j).cm = d.cm := rfl
@[simp] theorem DieState.wr_nl (d : DieState) (f : Fld) (v ch i j : Nat) : (d.wr f v ch i j).nl = d.nl := rfl
@[simp] theorem DieState.wr_fences (d : DieState) (f : Fld) (v ch i j : Nat) : (d.wr f v ch i j).fences = d.fences := rfl

@[simp] theorem DieState.cnt_die (d : DieState) (f : Fld) (ch i j n : Nat) : (d.cnt f ch i j n).die = d.die := rfl
@[simp] theorem DieState.cnt_now (d : DieState) (f : Fld) (ch i j n : Nat) : (d.cnt f ch i j n).now = d.now := rfl
@[simp] theorem DieState.cnt_free (d : DieState) (f : Fld) (ch i j n : Nat) : (d.cnt f ch i j n).free = d.free := rfl
@[simp] theorem DieState.cnt_staged (d : DieState) (f : Fld) (ch i j n : Nat) : (d.cnt f ch i j n).staged = d.staged := rfl
@[simp] theorem DieState.cnt_old (d : DieState) (f : Fld) (ch i j n : Nat) : (d.cnt f ch i j n).old = d.old := rfl
@[simp] theorem DieState.cnt_gen (d : DieState) (f : Fld) (ch i j n : Nat) : (d.cnt f ch i j n).gen = d.gen := rfl
@[simp] theorem DieState.cnt_bus (d : DieState) (f : Fld) (ch i j n : Nat) : (d.cnt f ch i j n).bus = d.bus := rfl
@[simp] theorem DieState.cnt_evt (d : DieState) (f : Fld) (ch i j n : Nat) : (d.cnt f ch i j n).evt = d.evt := rfl
@[simp] theorem DieState.cnt_eng (d : DieState) (f : Fld) (ch i j n : Nat) : (d.cnt f ch i j n).eng = d.eng := rfl
@[simp] theorem DieState.cnt_host (d : DieState) (f : Fld) (ch i j n : Nat) : (d.cnt f ch i j n).host = d.host := rfl
@[simp] theorem DieState.cnt_tb (d : DieState) (f : Fld) (ch i j n : Nat) : (d.cnt f ch i j n).tb = d.tb := rfl
@[simp] theorem DieState.cnt_can (d : DieState) (f : Fld) (ch i j n : Nat) : (d.cnt f ch i j n).can = d.can := rfl
@[simp] theorem DieState.cnt_lin (d : DieState) (f : Fld) (ch i j n : Nat) : (d.cnt f ch i j n).lin = d.lin := rfl
@[simp] theorem DieState.cnt_gal (d : DieState) (f : Fld) (ch i j n : Nat) : (d.cnt f ch i j n).gal = d.gal := rfl
@[simp] theorem DieState.cnt_rte (d : DieState) (f : Fld) (ch i j n : Nat) : (d.cnt f ch i j n).rte = d.rte := rfl
@[simp] theorem DieState.cnt_port (d : DieState) (f : Fld) (ch i j n : Nat) : (d.cnt f ch i j n).port = d.port := rfl
@[simp] theorem DieState.cnt_sw (d : DieState) (f : Fld) (ch i j n : Nat) : (d.cnt f ch i j n).sw = d.sw := rfl
@[simp] theorem DieState.cnt_tbl (d : DieState) (f : Fld) (ch i j n : Nat) : (d.cnt f ch i j n).tbl = d.tbl := rfl
@[simp] theorem DieState.cnt_tim (d : DieState) (f : Fld) (ch i j n : Nat) : (d.cnt f ch i j n).tim = d.tim := rfl
@[simp] theorem DieState.cnt_stw (d : DieState) (f : Fld) (ch i j n : Nat) : (d.cnt f ch i j n).stw = d.stw := rfl
@[simp] theorem DieState.cnt_sec (d : DieState) (f : Fld) (ch i j n : Nat) : (d.cnt f ch i j n).sec = d.sec := rfl
@[simp] theorem DieState.cnt_pci (d : DieState) (f : Fld) (ch i j n : Nat) : (d.cnt f ch i j n).pci = d.pci := rfl
@[simp] theorem DieState.cnt_pow (d : DieState) (f : Fld) (ch i j n : Nat) : (d.cnt f ch i j n).pow = d.pow := rfl
@[simp] theorem DieState.cnt_upd (d : DieState) (f : Fld) (ch i j n : Nat) : (d.cnt f ch i j n).upd = d.upd := rfl
@[simp] theorem DieState.cnt_guard (d : DieState) (f : Fld) (ch i j n : Nat) : (d.cnt f ch i j n).guard = d.guard := rfl
@[simp] theorem DieState.cnt_cm (d : DieState) (f : Fld) (ch i j n : Nat) : (d.cnt f ch i j n).cm = d.cm := rfl
@[simp] theorem DieState.cnt_nl (d : DieState) (f : Fld) (ch i j n : Nat) : (d.cnt f ch i j n).nl = d.nl := rfl
@[simp] theorem DieState.cnt_fences (d : DieState) (f : Fld) (ch i j n : Nat) : (d.cnt f ch i j n).fences = d.fences := rfl

@[simp] theorem DieState.peak_die (d : DieState) (f : Fld) (v ch i j : Nat) : (d.peak f v ch i j).die = d.die := rfl
@[simp] theorem DieState.peak_now (d : DieState) (f : Fld) (v ch i j : Nat) : (d.peak f v ch i j).now = d.now := rfl
@[simp] theorem DieState.peak_free (d : DieState) (f : Fld) (v ch i j : Nat) : (d.peak f v ch i j).free = d.free := rfl
@[simp] theorem DieState.peak_staged (d : DieState) (f : Fld) (v ch i j : Nat) : (d.peak f v ch i j).staged = d.staged := rfl
@[simp] theorem DieState.peak_old (d : DieState) (f : Fld) (v ch i j : Nat) : (d.peak f v ch i j).old = d.old := rfl
@[simp] theorem DieState.peak_gen (d : DieState) (f : Fld) (v ch i j : Nat) : (d.peak f v ch i j).gen = d.gen := rfl
@[simp] theorem DieState.peak_bus (d : DieState) (f : Fld) (v ch i j : Nat) : (d.peak f v ch i j).bus = d.bus := rfl
@[simp] theorem DieState.peak_evt (d : DieState) (f : Fld) (v ch i j : Nat) : (d.peak f v ch i j).evt = d.evt := rfl
@[simp] theorem DieState.peak_eng (d : DieState) (f : Fld) (v ch i j : Nat) : (d.peak f v ch i j).eng = d.eng := rfl
@[simp] theorem DieState.peak_host (d : DieState) (f : Fld) (v ch i j : Nat) : (d.peak f v ch i j).host = d.host := rfl
@[simp] theorem DieState.peak_tb (d : DieState) (f : Fld) (v ch i j : Nat) : (d.peak f v ch i j).tb = d.tb := rfl
@[simp] theorem DieState.peak_can (d : DieState) (f : Fld) (v ch i j : Nat) : (d.peak f v ch i j).can = d.can := rfl
@[simp] theorem DieState.peak_lin (d : DieState) (f : Fld) (v ch i j : Nat) : (d.peak f v ch i j).lin = d.lin := rfl
@[simp] theorem DieState.peak_gal (d : DieState) (f : Fld) (v ch i j : Nat) : (d.peak f v ch i j).gal = d.gal := rfl
@[simp] theorem DieState.peak_rte (d : DieState) (f : Fld) (v ch i j : Nat) : (d.peak f v ch i j).rte = d.rte := rfl
@[simp] theorem DieState.peak_port (d : DieState) (f : Fld) (v ch i j : Nat) : (d.peak f v ch i j).port = d.port := rfl
@[simp] theorem DieState.peak_sw (d : DieState) (f : Fld) (v ch i j : Nat) : (d.peak f v ch i j).sw = d.sw := rfl
@[simp] theorem DieState.peak_tbl (d : DieState) (f : Fld) (v ch i j : Nat) : (d.peak f v ch i j).tbl = d.tbl := rfl
@[simp] theorem DieState.peak_tim (d : DieState) (f : Fld) (v ch i j : Nat) : (d.peak f v ch i j).tim = d.tim := rfl
@[simp] theorem DieState.peak_stw (d : DieState) (f : Fld) (v ch i j : Nat) : (d.peak f v ch i j).stw = d.stw := rfl
@[simp] theorem DieState.peak_sec (d : DieState) (f : Fld) (v ch i j : Nat) : (d.peak f v ch i j).sec = d.sec := rfl
@[simp] theorem DieState.peak_pci (d : DieState) (f : Fld) (v ch i j : Nat) : (d.peak f v ch i j).pci = d.pci := rfl
@[simp] theorem DieState.peak_pow (d : DieState) (f : Fld) (v ch i j : Nat) : (d.peak f v ch i j).pow = d.pow := rfl
@[simp] theorem DieState.peak_upd (d : DieState) (f : Fld) (v ch i j : Nat) : (d.peak f v ch i j).upd = d.upd := rfl
@[simp] theorem DieState.peak_guard (d : DieState) (f : Fld) (v ch i j : Nat) : (d.peak f v ch i j).guard = d.guard := rfl
@[simp] theorem DieState.peak_cm (d : DieState) (f : Fld) (v ch i j : Nat) : (d.peak f v ch i j).cm = d.cm := rfl
@[simp] theorem DieState.peak_nl (d : DieState) (f : Fld) (v ch i j : Nat) : (d.peak f v ch i j).nl = d.nl := rfl
@[simp] theorem DieState.peak_fences (d : DieState) (f : Fld) (v ch i j : Nat) : (d.peak f v ch i j).fences = d.fences := rfl

@[simp] theorem DieState.drawn_die (d : DieState) : (d.drawn).die = d.die := rfl
@[simp] theorem DieState.drawn_now (d : DieState) : (d.drawn).now = d.now := rfl
@[simp] theorem DieState.drawn_regs (d : DieState) : (d.drawn).regs = d.regs := rfl
@[simp] theorem DieState.drawn_staged (d : DieState) : (d.drawn).staged = d.staged := rfl
@[simp] theorem DieState.drawn_old (d : DieState) : (d.drawn).old = d.old := rfl
@[simp] theorem DieState.drawn_gen (d : DieState) : (d.drawn).gen = d.gen := rfl
@[simp] theorem DieState.drawn_bus (d : DieState) : (d.drawn).bus = d.bus := rfl
@[simp] theorem DieState.drawn_evt (d : DieState) : (d.drawn).evt = d.evt := rfl
@[simp] theorem DieState.drawn_eng (d : DieState) : (d.drawn).eng = d.eng := rfl
@[simp] theorem DieState.drawn_host (d : DieState) : (d.drawn).host = d.host := rfl
@[simp] theorem DieState.drawn_tb (d : DieState) : (d.drawn).tb = d.tb := rfl
@[simp] theorem DieState.drawn_can (d : DieState) : (d.drawn).can = d.can := rfl
@[simp] theorem DieState.drawn_lin (d : DieState) : (d.drawn).lin = d.lin := rfl
@[simp] theorem DieState.drawn_gal (d : DieState) : (d.drawn).gal = d.gal := rfl
@[simp] theorem DieState.drawn_rte (d : DieState) : (d.drawn).rte = d.rte := rfl
@[simp] theorem DieState.drawn_port (d : DieState) : (d.drawn).port = d.port := rfl
@[simp] theorem DieState.drawn_sw (d : DieState) : (d.drawn).sw = d.sw := rfl
@[simp] theorem DieState.drawn_tbl (d : DieState) : (d.drawn).tbl = d.tbl := rfl
@[simp] theorem DieState.drawn_tim (d : DieState) : (d.drawn).tim = d.tim := rfl
@[simp] theorem DieState.drawn_stw (d : DieState) : (d.drawn).stw = d.stw := rfl
@[simp] theorem DieState.drawn_sec (d : DieState) : (d.drawn).sec = d.sec := rfl
@[simp] theorem DieState.drawn_pci (d : DieState) : (d.drawn).pci = d.pci := rfl
@[simp] theorem DieState.drawn_pow (d : DieState) : (d.drawn).pow = d.pow := rfl
@[simp] theorem DieState.drawn_upd (d : DieState) : (d.drawn).upd = d.upd := rfl
@[simp] theorem DieState.drawn_guard (d : DieState) : (d.drawn).guard = d.guard := rfl
@[simp] theorem DieState.drawn_cm (d : DieState) : (d.drawn).cm = d.cm := rfl
@[simp] theorem DieState.drawn_nl (d : DieState) : (d.drawn).nl = d.nl := rfl
@[simp] theorem DieState.drawn_fences (d : DieState) : (d.drawn).fences = d.fences := rfl

@[simp] theorem DieState.startHold_die (d : DieState) (code scope : Nat) : (d.startHold code scope).die = d.die := rfl
@[simp] theorem DieState.startHold_now (d : DieState) (code scope : Nat) : (d.startHold code scope).now = d.now := rfl
@[simp] theorem DieState.startHold_free (d : DieState) (code scope : Nat) : (d.startHold code scope).free = d.free := rfl
@[simp] theorem DieState.startHold_regs (d : DieState) (code scope : Nat) : (d.startHold code scope).regs = d.regs := rfl
@[simp] theorem DieState.startHold_staged (d : DieState) (code scope : Nat) : (d.startHold code scope).staged = d.staged := rfl
@[simp] theorem DieState.startHold_old (d : DieState) (code scope : Nat) : (d.startHold code scope).old = d.old := rfl
@[simp] theorem DieState.startHold_gen (d : DieState) (code scope : Nat) : (d.startHold code scope).gen = d.gen := rfl
@[simp] theorem DieState.startHold_bus (d : DieState) (code scope : Nat) : (d.startHold code scope).bus = d.bus := rfl
@[simp] theorem DieState.startHold_eng (d : DieState) (code scope : Nat) : (d.startHold code scope).eng = d.eng := rfl
@[simp] theorem DieState.startHold_host (d : DieState) (code scope : Nat) : (d.startHold code scope).host = d.host := rfl
@[simp] theorem DieState.startHold_tb (d : DieState) (code scope : Nat) : (d.startHold code scope).tb = d.tb := rfl
@[simp] theorem DieState.startHold_can (d : DieState) (code scope : Nat) : (d.startHold code scope).can = d.can := rfl
@[simp] theorem DieState.startHold_lin (d : DieState) (code scope : Nat) : (d.startHold code scope).lin = d.lin := rfl
@[simp] theorem DieState.startHold_gal (d : DieState) (code scope : Nat) : (d.startHold code scope).gal = d.gal := rfl
@[simp] theorem DieState.startHold_rte (d : DieState) (code scope : Nat) : (d.startHold code scope).rte = d.rte := rfl
@[simp] theorem DieState.startHold_port (d : DieState) (code scope : Nat) : (d.startHold code scope).port = d.port := rfl
@[simp] theorem DieState.startHold_sw (d : DieState) (code scope : Nat) : (d.startHold code scope).sw = d.sw := rfl
@[simp] theorem DieState.startHold_tbl (d : DieState) (code scope : Nat) : (d.startHold code scope).tbl = d.tbl := rfl
@[simp] theorem DieState.startHold_tim (d : DieState) (code scope : Nat) : (d.startHold code scope).tim = d.tim := rfl
@[simp] theorem DieState.startHold_stw (d : DieState) (code scope : Nat) : (d.startHold code scope).stw = d.stw := rfl
@[simp] theorem DieState.startHold_sec (d : DieState) (code scope : Nat) : (d.startHold code scope).sec = d.sec := rfl
@[simp] theorem DieState.startHold_pci (d : DieState) (code scope : Nat) : (d.startHold code scope).pci = d.pci := rfl
@[simp] theorem DieState.startHold_pow (d : DieState) (code scope : Nat) : (d.startHold code scope).pow = d.pow := rfl
@[simp] theorem DieState.startHold_upd (d : DieState) (code scope : Nat) : (d.startHold code scope).upd = d.upd := rfl
@[simp] theorem DieState.startHold_guard (d : DieState) (code scope : Nat) : (d.startHold code scope).guard = d.guard := rfl
@[simp] theorem DieState.startHold_cm (d : DieState) (code scope : Nat) : (d.startHold code scope).cm = d.cm := rfl
@[simp] theorem DieState.startHold_nl (d : DieState) (code scope : Nat) : (d.startHold code scope).nl = d.nl := rfl
@[simp] theorem DieState.startHold_fences (d : DieState) (code scope : Nat) : (d.startHold code scope).fences = d.fences := rfl

@[simp] theorem DieState.sendVc_die (d : DieState) (v : Fin 4) (m : VMsg) : (d.sendVc v m).die = d.die := rfl
@[simp] theorem DieState.sendVc_now (d : DieState) (v : Fin 4) (m : VMsg) : (d.sendVc v m).now = d.now := rfl
@[simp] theorem DieState.sendVc_free (d : DieState) (v : Fin 4) (m : VMsg) : (d.sendVc v m).free = d.free := rfl
@[simp] theorem DieState.sendVc_regs (d : DieState) (v : Fin 4) (m : VMsg) : (d.sendVc v m).regs = d.regs := rfl
@[simp] theorem DieState.sendVc_staged (d : DieState) (v : Fin 4) (m : VMsg) : (d.sendVc v m).staged = d.staged := rfl
@[simp] theorem DieState.sendVc_old (d : DieState) (v : Fin 4) (m : VMsg) : (d.sendVc v m).old = d.old := rfl
@[simp] theorem DieState.sendVc_gen (d : DieState) (v : Fin 4) (m : VMsg) : (d.sendVc v m).gen = d.gen := rfl
@[simp] theorem DieState.sendVc_bus (d : DieState) (v : Fin 4) (m : VMsg) : (d.sendVc v m).bus = d.bus := rfl
@[simp] theorem DieState.sendVc_evt (d : DieState) (v : Fin 4) (m : VMsg) : (d.sendVc v m).evt = d.evt := rfl
@[simp] theorem DieState.sendVc_eng (d : DieState) (v : Fin 4) (m : VMsg) : (d.sendVc v m).eng = d.eng := rfl
@[simp] theorem DieState.sendVc_host (d : DieState) (v : Fin 4) (m : VMsg) : (d.sendVc v m).host = d.host := rfl
@[simp] theorem DieState.sendVc_tb (d : DieState) (v : Fin 4) (m : VMsg) : (d.sendVc v m).tb = d.tb := rfl
@[simp] theorem DieState.sendVc_can (d : DieState) (v : Fin 4) (m : VMsg) : (d.sendVc v m).can = d.can := rfl
@[simp] theorem DieState.sendVc_lin (d : DieState) (v : Fin 4) (m : VMsg) : (d.sendVc v m).lin = d.lin := rfl
@[simp] theorem DieState.sendVc_gal (d : DieState) (v : Fin 4) (m : VMsg) : (d.sendVc v m).gal = d.gal := rfl
@[simp] theorem DieState.sendVc_rte (d : DieState) (v : Fin 4) (m : VMsg) : (d.sendVc v m).rte = d.rte := rfl
@[simp] theorem DieState.sendVc_port (d : DieState) (v : Fin 4) (m : VMsg) : (d.sendVc v m).port = d.port := rfl
@[simp] theorem DieState.sendVc_sw (d : DieState) (v : Fin 4) (m : VMsg) : (d.sendVc v m).sw = d.sw := rfl
@[simp] theorem DieState.sendVc_tbl (d : DieState) (v : Fin 4) (m : VMsg) : (d.sendVc v m).tbl = d.tbl := rfl
@[simp] theorem DieState.sendVc_tim (d : DieState) (v : Fin 4) (m : VMsg) : (d.sendVc v m).tim = d.tim := rfl
@[simp] theorem DieState.sendVc_sec (d : DieState) (v : Fin 4) (m : VMsg) : (d.sendVc v m).sec = d.sec := rfl
@[simp] theorem DieState.sendVc_pci (d : DieState) (v : Fin 4) (m : VMsg) : (d.sendVc v m).pci = d.pci := rfl
@[simp] theorem DieState.sendVc_pow (d : DieState) (v : Fin 4) (m : VMsg) : (d.sendVc v m).pow = d.pow := rfl
@[simp] theorem DieState.sendVc_upd (d : DieState) (v : Fin 4) (m : VMsg) : (d.sendVc v m).upd = d.upd := rfl
@[simp] theorem DieState.sendVc_guard (d : DieState) (v : Fin 4) (m : VMsg) : (d.sendVc v m).guard = d.guard := rfl
@[simp] theorem DieState.sendVc_cm (d : DieState) (v : Fin 4) (m : VMsg) : (d.sendVc v m).cm = d.cm := rfl
@[simp] theorem DieState.sendVc_nl (d : DieState) (v : Fin 4) (m : VMsg) : (d.sendVc v m).nl = d.nl := rfl
@[simp] theorem DieState.sendVc_fences (d : DieState) (v : Fin 4) (m : VMsg) : (d.sendVc v m).fences = d.fences := rfl

@[simp] theorem DieState.popLanding_die (d : DieState) (v : Fin 4) : (d.popLanding v).die = d.die := rfl
@[simp] theorem DieState.popLanding_now (d : DieState) (v : Fin 4) : (d.popLanding v).now = d.now := rfl
@[simp] theorem DieState.popLanding_free (d : DieState) (v : Fin 4) : (d.popLanding v).free = d.free := rfl
@[simp] theorem DieState.popLanding_regs (d : DieState) (v : Fin 4) : (d.popLanding v).regs = d.regs := rfl
@[simp] theorem DieState.popLanding_staged (d : DieState) (v : Fin 4) : (d.popLanding v).staged = d.staged := rfl
@[simp] theorem DieState.popLanding_old (d : DieState) (v : Fin 4) : (d.popLanding v).old = d.old := rfl
@[simp] theorem DieState.popLanding_gen (d : DieState) (v : Fin 4) : (d.popLanding v).gen = d.gen := rfl
@[simp] theorem DieState.popLanding_bus (d : DieState) (v : Fin 4) : (d.popLanding v).bus = d.bus := rfl
@[simp] theorem DieState.popLanding_evt (d : DieState) (v : Fin 4) : (d.popLanding v).evt = d.evt := rfl
@[simp] theorem DieState.popLanding_eng (d : DieState) (v : Fin 4) : (d.popLanding v).eng = d.eng := rfl
@[simp] theorem DieState.popLanding_host (d : DieState) (v : Fin 4) : (d.popLanding v).host = d.host := rfl
@[simp] theorem DieState.popLanding_tb (d : DieState) (v : Fin 4) : (d.popLanding v).tb = d.tb := rfl
@[simp] theorem DieState.popLanding_can (d : DieState) (v : Fin 4) : (d.popLanding v).can = d.can := rfl
@[simp] theorem DieState.popLanding_lin (d : DieState) (v : Fin 4) : (d.popLanding v).lin = d.lin := rfl
@[simp] theorem DieState.popLanding_gal (d : DieState) (v : Fin 4) : (d.popLanding v).gal = d.gal := rfl
@[simp] theorem DieState.popLanding_rte (d : DieState) (v : Fin 4) : (d.popLanding v).rte = d.rte := rfl
@[simp] theorem DieState.popLanding_port (d : DieState) (v : Fin 4) : (d.popLanding v).port = d.port := rfl
@[simp] theorem DieState.popLanding_sw (d : DieState) (v : Fin 4) : (d.popLanding v).sw = d.sw := rfl
@[simp] theorem DieState.popLanding_tbl (d : DieState) (v : Fin 4) : (d.popLanding v).tbl = d.tbl := rfl
@[simp] theorem DieState.popLanding_tim (d : DieState) (v : Fin 4) : (d.popLanding v).tim = d.tim := rfl
@[simp] theorem DieState.popLanding_sec (d : DieState) (v : Fin 4) : (d.popLanding v).sec = d.sec := rfl
@[simp] theorem DieState.popLanding_pci (d : DieState) (v : Fin 4) : (d.popLanding v).pci = d.pci := rfl
@[simp] theorem DieState.popLanding_pow (d : DieState) (v : Fin 4) : (d.popLanding v).pow = d.pow := rfl
@[simp] theorem DieState.popLanding_upd (d : DieState) (v : Fin 4) : (d.popLanding v).upd = d.upd := rfl
@[simp] theorem DieState.popLanding_guard (d : DieState) (v : Fin 4) : (d.popLanding v).guard = d.guard := rfl
@[simp] theorem DieState.popLanding_cm (d : DieState) (v : Fin 4) : (d.popLanding v).cm = d.cm := rfl
@[simp] theorem DieState.popLanding_nl (d : DieState) (v : Fin 4) : (d.popLanding v).nl = d.nl := rfl
@[simp] theorem DieState.popLanding_fences (d : DieState) (v : Fin 4) : (d.popLanding v).fences = d.fences := rfl

@[simp] theorem DieState.onCluster_die (d : DieState) (cl : Nat) (g : Cluster → Cluster) : (d.onCluster cl g).die = d.die := rfl
@[simp] theorem DieState.onCluster_now (d : DieState) (cl : Nat) (g : Cluster → Cluster) : (d.onCluster cl g).now = d.now := rfl
@[simp] theorem DieState.onCluster_free (d : DieState) (cl : Nat) (g : Cluster → Cluster) : (d.onCluster cl g).free = d.free := rfl
@[simp] theorem DieState.onCluster_regs (d : DieState) (cl : Nat) (g : Cluster → Cluster) : (d.onCluster cl g).regs = d.regs := rfl
@[simp] theorem DieState.onCluster_staged (d : DieState) (cl : Nat) (g : Cluster → Cluster) : (d.onCluster cl g).staged = d.staged := rfl
@[simp] theorem DieState.onCluster_old (d : DieState) (cl : Nat) (g : Cluster → Cluster) : (d.onCluster cl g).old = d.old := rfl
@[simp] theorem DieState.onCluster_gen (d : DieState) (cl : Nat) (g : Cluster → Cluster) : (d.onCluster cl g).gen = d.gen := rfl
@[simp] theorem DieState.onCluster_bus (d : DieState) (cl : Nat) (g : Cluster → Cluster) : (d.onCluster cl g).bus = d.bus := rfl
@[simp] theorem DieState.onCluster_evt (d : DieState) (cl : Nat) (g : Cluster → Cluster) : (d.onCluster cl g).evt = d.evt := rfl
@[simp] theorem DieState.onCluster_host (d : DieState) (cl : Nat) (g : Cluster → Cluster) : (d.onCluster cl g).host = d.host := rfl
@[simp] theorem DieState.onCluster_tb (d : DieState) (cl : Nat) (g : Cluster → Cluster) : (d.onCluster cl g).tb = d.tb := rfl
@[simp] theorem DieState.onCluster_can (d : DieState) (cl : Nat) (g : Cluster → Cluster) : (d.onCluster cl g).can = d.can := rfl
@[simp] theorem DieState.onCluster_lin (d : DieState) (cl : Nat) (g : Cluster → Cluster) : (d.onCluster cl g).lin = d.lin := rfl
@[simp] theorem DieState.onCluster_gal (d : DieState) (cl : Nat) (g : Cluster → Cluster) : (d.onCluster cl g).gal = d.gal := rfl
@[simp] theorem DieState.onCluster_rte (d : DieState) (cl : Nat) (g : Cluster → Cluster) : (d.onCluster cl g).rte = d.rte := rfl
@[simp] theorem DieState.onCluster_port (d : DieState) (cl : Nat) (g : Cluster → Cluster) : (d.onCluster cl g).port = d.port := rfl
@[simp] theorem DieState.onCluster_sw (d : DieState) (cl : Nat) (g : Cluster → Cluster) : (d.onCluster cl g).sw = d.sw := rfl
@[simp] theorem DieState.onCluster_tbl (d : DieState) (cl : Nat) (g : Cluster → Cluster) : (d.onCluster cl g).tbl = d.tbl := rfl
@[simp] theorem DieState.onCluster_tim (d : DieState) (cl : Nat) (g : Cluster → Cluster) : (d.onCluster cl g).tim = d.tim := rfl
@[simp] theorem DieState.onCluster_stw (d : DieState) (cl : Nat) (g : Cluster → Cluster) : (d.onCluster cl g).stw = d.stw := rfl
@[simp] theorem DieState.onCluster_sec (d : DieState) (cl : Nat) (g : Cluster → Cluster) : (d.onCluster cl g).sec = d.sec := rfl
@[simp] theorem DieState.onCluster_pci (d : DieState) (cl : Nat) (g : Cluster → Cluster) : (d.onCluster cl g).pci = d.pci := rfl
@[simp] theorem DieState.onCluster_pow (d : DieState) (cl : Nat) (g : Cluster → Cluster) : (d.onCluster cl g).pow = d.pow := rfl
@[simp] theorem DieState.onCluster_upd (d : DieState) (cl : Nat) (g : Cluster → Cluster) : (d.onCluster cl g).upd = d.upd := rfl
@[simp] theorem DieState.onCluster_guard (d : DieState) (cl : Nat) (g : Cluster → Cluster) : (d.onCluster cl g).guard = d.guard := rfl
@[simp] theorem DieState.onCluster_cm (d : DieState) (cl : Nat) (g : Cluster → Cluster) : (d.onCluster cl g).cm = d.cm := rfl
@[simp] theorem DieState.onCluster_nl (d : DieState) (cl : Nat) (g : Cluster → Cluster) : (d.onCluster cl g).nl = d.nl := rfl
@[simp] theorem DieState.onCluster_fences (d : DieState) (cl : Nat) (g : Cluster → Cluster) : (d.onCluster cl g).fences = d.fences := rfl

@[simp] theorem DieState.setCtx_die (d : DieState) (n : Nat) (x : Context) : (d.setCtx n x).die = d.die := rfl
@[simp] theorem DieState.setCtx_now (d : DieState) (n : Nat) (x : Context) : (d.setCtx n x).now = d.now := rfl
@[simp] theorem DieState.setCtx_free (d : DieState) (n : Nat) (x : Context) : (d.setCtx n x).free = d.free := rfl
@[simp] theorem DieState.setCtx_regs (d : DieState) (n : Nat) (x : Context) : (d.setCtx n x).regs = d.regs := rfl
@[simp] theorem DieState.setCtx_staged (d : DieState) (n : Nat) (x : Context) : (d.setCtx n x).staged = d.staged := rfl
@[simp] theorem DieState.setCtx_old (d : DieState) (n : Nat) (x : Context) : (d.setCtx n x).old = d.old := rfl
@[simp] theorem DieState.setCtx_gen (d : DieState) (n : Nat) (x : Context) : (d.setCtx n x).gen = d.gen := rfl
@[simp] theorem DieState.setCtx_bus (d : DieState) (n : Nat) (x : Context) : (d.setCtx n x).bus = d.bus := rfl
@[simp] theorem DieState.setCtx_evt (d : DieState) (n : Nat) (x : Context) : (d.setCtx n x).evt = d.evt := rfl
@[simp] theorem DieState.setCtx_host (d : DieState) (n : Nat) (x : Context) : (d.setCtx n x).host = d.host := rfl
@[simp] theorem DieState.setCtx_tb (d : DieState) (n : Nat) (x : Context) : (d.setCtx n x).tb = d.tb := rfl
@[simp] theorem DieState.setCtx_can (d : DieState) (n : Nat) (x : Context) : (d.setCtx n x).can = d.can := rfl
@[simp] theorem DieState.setCtx_lin (d : DieState) (n : Nat) (x : Context) : (d.setCtx n x).lin = d.lin := rfl
@[simp] theorem DieState.setCtx_gal (d : DieState) (n : Nat) (x : Context) : (d.setCtx n x).gal = d.gal := rfl
@[simp] theorem DieState.setCtx_rte (d : DieState) (n : Nat) (x : Context) : (d.setCtx n x).rte = d.rte := rfl
@[simp] theorem DieState.setCtx_port (d : DieState) (n : Nat) (x : Context) : (d.setCtx n x).port = d.port := rfl
@[simp] theorem DieState.setCtx_sw (d : DieState) (n : Nat) (x : Context) : (d.setCtx n x).sw = d.sw := rfl
@[simp] theorem DieState.setCtx_tbl (d : DieState) (n : Nat) (x : Context) : (d.setCtx n x).tbl = d.tbl := rfl
@[simp] theorem DieState.setCtx_tim (d : DieState) (n : Nat) (x : Context) : (d.setCtx n x).tim = d.tim := rfl
@[simp] theorem DieState.setCtx_stw (d : DieState) (n : Nat) (x : Context) : (d.setCtx n x).stw = d.stw := rfl
@[simp] theorem DieState.setCtx_sec (d : DieState) (n : Nat) (x : Context) : (d.setCtx n x).sec = d.sec := rfl
@[simp] theorem DieState.setCtx_pci (d : DieState) (n : Nat) (x : Context) : (d.setCtx n x).pci = d.pci := rfl
@[simp] theorem DieState.setCtx_pow (d : DieState) (n : Nat) (x : Context) : (d.setCtx n x).pow = d.pow := rfl
@[simp] theorem DieState.setCtx_upd (d : DieState) (n : Nat) (x : Context) : (d.setCtx n x).upd = d.upd := rfl
@[simp] theorem DieState.setCtx_guard (d : DieState) (n : Nat) (x : Context) : (d.setCtx n x).guard = d.guard := rfl
@[simp] theorem DieState.setCtx_cm (d : DieState) (n : Nat) (x : Context) : (d.setCtx n x).cm = d.cm := rfl
@[simp] theorem DieState.setCtx_nl (d : DieState) (n : Nat) (x : Context) : (d.setCtx n x).nl = d.nl := rfl
@[simp] theorem DieState.setCtx_fences (d : DieState) (n : Nat) (x : Context) : (d.setCtx n x).fences = d.fences := rfl

@[simp] theorem DieState.onCan_die (d : DieState) (ch : Nat) (g : CanChan → CanChan) : (d.onCan ch g).die = d.die := rfl
@[simp] theorem DieState.onCan_now (d : DieState) (ch : Nat) (g : CanChan → CanChan) : (d.onCan ch g).now = d.now := rfl
@[simp] theorem DieState.onCan_free (d : DieState) (ch : Nat) (g : CanChan → CanChan) : (d.onCan ch g).free = d.free := rfl
@[simp] theorem DieState.onCan_regs (d : DieState) (ch : Nat) (g : CanChan → CanChan) : (d.onCan ch g).regs = d.regs := rfl
@[simp] theorem DieState.onCan_staged (d : DieState) (ch : Nat) (g : CanChan → CanChan) : (d.onCan ch g).staged = d.staged := rfl
@[simp] theorem DieState.onCan_old (d : DieState) (ch : Nat) (g : CanChan → CanChan) : (d.onCan ch g).old = d.old := rfl
@[simp] theorem DieState.onCan_gen (d : DieState) (ch : Nat) (g : CanChan → CanChan) : (d.onCan ch g).gen = d.gen := rfl
@[simp] theorem DieState.onCan_bus (d : DieState) (ch : Nat) (g : CanChan → CanChan) : (d.onCan ch g).bus = d.bus := rfl
@[simp] theorem DieState.onCan_evt (d : DieState) (ch : Nat) (g : CanChan → CanChan) : (d.onCan ch g).evt = d.evt := rfl
@[simp] theorem DieState.onCan_eng (d : DieState) (ch : Nat) (g : CanChan → CanChan) : (d.onCan ch g).eng = d.eng := rfl
@[simp] theorem DieState.onCan_host (d : DieState) (ch : Nat) (g : CanChan → CanChan) : (d.onCan ch g).host = d.host := rfl
@[simp] theorem DieState.onCan_tb (d : DieState) (ch : Nat) (g : CanChan → CanChan) : (d.onCan ch g).tb = d.tb := rfl
@[simp] theorem DieState.onCan_lin (d : DieState) (ch : Nat) (g : CanChan → CanChan) : (d.onCan ch g).lin = d.lin := rfl
@[simp] theorem DieState.onCan_gal (d : DieState) (ch : Nat) (g : CanChan → CanChan) : (d.onCan ch g).gal = d.gal := rfl
@[simp] theorem DieState.onCan_rte (d : DieState) (ch : Nat) (g : CanChan → CanChan) : (d.onCan ch g).rte = d.rte := rfl
@[simp] theorem DieState.onCan_port (d : DieState) (ch : Nat) (g : CanChan → CanChan) : (d.onCan ch g).port = d.port := rfl
@[simp] theorem DieState.onCan_sw (d : DieState) (ch : Nat) (g : CanChan → CanChan) : (d.onCan ch g).sw = d.sw := rfl
@[simp] theorem DieState.onCan_tbl (d : DieState) (ch : Nat) (g : CanChan → CanChan) : (d.onCan ch g).tbl = d.tbl := rfl
@[simp] theorem DieState.onCan_tim (d : DieState) (ch : Nat) (g : CanChan → CanChan) : (d.onCan ch g).tim = d.tim := rfl
@[simp] theorem DieState.onCan_stw (d : DieState) (ch : Nat) (g : CanChan → CanChan) : (d.onCan ch g).stw = d.stw := rfl
@[simp] theorem DieState.onCan_sec (d : DieState) (ch : Nat) (g : CanChan → CanChan) : (d.onCan ch g).sec = d.sec := rfl
@[simp] theorem DieState.onCan_pci (d : DieState) (ch : Nat) (g : CanChan → CanChan) : (d.onCan ch g).pci = d.pci := rfl
@[simp] theorem DieState.onCan_pow (d : DieState) (ch : Nat) (g : CanChan → CanChan) : (d.onCan ch g).pow = d.pow := rfl
@[simp] theorem DieState.onCan_upd (d : DieState) (ch : Nat) (g : CanChan → CanChan) : (d.onCan ch g).upd = d.upd := rfl
@[simp] theorem DieState.onCan_guard (d : DieState) (ch : Nat) (g : CanChan → CanChan) : (d.onCan ch g).guard = d.guard := rfl
@[simp] theorem DieState.onCan_cm (d : DieState) (ch : Nat) (g : CanChan → CanChan) : (d.onCan ch g).cm = d.cm := rfl
@[simp] theorem DieState.onCan_nl (d : DieState) (ch : Nat) (g : CanChan → CanChan) : (d.onCan ch g).nl = d.nl := rfl
@[simp] theorem DieState.onCan_fences (d : DieState) (ch : Nat) (g : CanChan → CanChan) : (d.onCan ch g).fences = d.fences := rfl

@[simp] theorem DieState.onLin_die (d : DieState) (ch : Nat) (g : LinChan → LinChan) : (d.onLin ch g).die = d.die := rfl
@[simp] theorem DieState.onLin_now (d : DieState) (ch : Nat) (g : LinChan → LinChan) : (d.onLin ch g).now = d.now := rfl
@[simp] theorem DieState.onLin_free (d : DieState) (ch : Nat) (g : LinChan → LinChan) : (d.onLin ch g).free = d.free := rfl
@[simp] theorem DieState.onLin_regs (d : DieState) (ch : Nat) (g : LinChan → LinChan) : (d.onLin ch g).regs = d.regs := rfl
@[simp] theorem DieState.onLin_staged (d : DieState) (ch : Nat) (g : LinChan → LinChan) : (d.onLin ch g).staged = d.staged := rfl
@[simp] theorem DieState.onLin_old (d : DieState) (ch : Nat) (g : LinChan → LinChan) : (d.onLin ch g).old = d.old := rfl
@[simp] theorem DieState.onLin_gen (d : DieState) (ch : Nat) (g : LinChan → LinChan) : (d.onLin ch g).gen = d.gen := rfl
@[simp] theorem DieState.onLin_bus (d : DieState) (ch : Nat) (g : LinChan → LinChan) : (d.onLin ch g).bus = d.bus := rfl
@[simp] theorem DieState.onLin_evt (d : DieState) (ch : Nat) (g : LinChan → LinChan) : (d.onLin ch g).evt = d.evt := rfl
@[simp] theorem DieState.onLin_eng (d : DieState) (ch : Nat) (g : LinChan → LinChan) : (d.onLin ch g).eng = d.eng := rfl
@[simp] theorem DieState.onLin_host (d : DieState) (ch : Nat) (g : LinChan → LinChan) : (d.onLin ch g).host = d.host := rfl
@[simp] theorem DieState.onLin_tb (d : DieState) (ch : Nat) (g : LinChan → LinChan) : (d.onLin ch g).tb = d.tb := rfl
@[simp] theorem DieState.onLin_can (d : DieState) (ch : Nat) (g : LinChan → LinChan) : (d.onLin ch g).can = d.can := rfl
@[simp] theorem DieState.onLin_gal (d : DieState) (ch : Nat) (g : LinChan → LinChan) : (d.onLin ch g).gal = d.gal := rfl
@[simp] theorem DieState.onLin_rte (d : DieState) (ch : Nat) (g : LinChan → LinChan) : (d.onLin ch g).rte = d.rte := rfl
@[simp] theorem DieState.onLin_port (d : DieState) (ch : Nat) (g : LinChan → LinChan) : (d.onLin ch g).port = d.port := rfl
@[simp] theorem DieState.onLin_sw (d : DieState) (ch : Nat) (g : LinChan → LinChan) : (d.onLin ch g).sw = d.sw := rfl
@[simp] theorem DieState.onLin_tbl (d : DieState) (ch : Nat) (g : LinChan → LinChan) : (d.onLin ch g).tbl = d.tbl := rfl
@[simp] theorem DieState.onLin_tim (d : DieState) (ch : Nat) (g : LinChan → LinChan) : (d.onLin ch g).tim = d.tim := rfl
@[simp] theorem DieState.onLin_stw (d : DieState) (ch : Nat) (g : LinChan → LinChan) : (d.onLin ch g).stw = d.stw := rfl
@[simp] theorem DieState.onLin_sec (d : DieState) (ch : Nat) (g : LinChan → LinChan) : (d.onLin ch g).sec = d.sec := rfl
@[simp] theorem DieState.onLin_pci (d : DieState) (ch : Nat) (g : LinChan → LinChan) : (d.onLin ch g).pci = d.pci := rfl
@[simp] theorem DieState.onLin_pow (d : DieState) (ch : Nat) (g : LinChan → LinChan) : (d.onLin ch g).pow = d.pow := rfl
@[simp] theorem DieState.onLin_upd (d : DieState) (ch : Nat) (g : LinChan → LinChan) : (d.onLin ch g).upd = d.upd := rfl
@[simp] theorem DieState.onLin_guard (d : DieState) (ch : Nat) (g : LinChan → LinChan) : (d.onLin ch g).guard = d.guard := rfl
@[simp] theorem DieState.onLin_cm (d : DieState) (ch : Nat) (g : LinChan → LinChan) : (d.onLin ch g).cm = d.cm := rfl
@[simp] theorem DieState.onLin_nl (d : DieState) (ch : Nat) (g : LinChan → LinChan) : (d.onLin ch g).nl = d.nl := rfl
@[simp] theorem DieState.onLin_fences (d : DieState) (ch : Nat) (g : LinChan → LinChan) : (d.onLin ch g).fences = d.fences := rfl

@[simp] theorem DieState.onPort_die (d : DieState) (p : Nat) (g : Port → Port) : (d.onPort p g).die = d.die := rfl
@[simp] theorem DieState.onPort_now (d : DieState) (p : Nat) (g : Port → Port) : (d.onPort p g).now = d.now := rfl
@[simp] theorem DieState.onPort_free (d : DieState) (p : Nat) (g : Port → Port) : (d.onPort p g).free = d.free := rfl
@[simp] theorem DieState.onPort_regs (d : DieState) (p : Nat) (g : Port → Port) : (d.onPort p g).regs = d.regs := rfl
@[simp] theorem DieState.onPort_staged (d : DieState) (p : Nat) (g : Port → Port) : (d.onPort p g).staged = d.staged := rfl
@[simp] theorem DieState.onPort_old (d : DieState) (p : Nat) (g : Port → Port) : (d.onPort p g).old = d.old := rfl
@[simp] theorem DieState.onPort_gen (d : DieState) (p : Nat) (g : Port → Port) : (d.onPort p g).gen = d.gen := rfl
@[simp] theorem DieState.onPort_bus (d : DieState) (p : Nat) (g : Port → Port) : (d.onPort p g).bus = d.bus := rfl
@[simp] theorem DieState.onPort_evt (d : DieState) (p : Nat) (g : Port → Port) : (d.onPort p g).evt = d.evt := rfl
@[simp] theorem DieState.onPort_eng (d : DieState) (p : Nat) (g : Port → Port) : (d.onPort p g).eng = d.eng := rfl
@[simp] theorem DieState.onPort_host (d : DieState) (p : Nat) (g : Port → Port) : (d.onPort p g).host = d.host := rfl
@[simp] theorem DieState.onPort_tb (d : DieState) (p : Nat) (g : Port → Port) : (d.onPort p g).tb = d.tb := rfl
@[simp] theorem DieState.onPort_can (d : DieState) (p : Nat) (g : Port → Port) : (d.onPort p g).can = d.can := rfl
@[simp] theorem DieState.onPort_lin (d : DieState) (p : Nat) (g : Port → Port) : (d.onPort p g).lin = d.lin := rfl
@[simp] theorem DieState.onPort_gal (d : DieState) (p : Nat) (g : Port → Port) : (d.onPort p g).gal = d.gal := rfl
@[simp] theorem DieState.onPort_rte (d : DieState) (p : Nat) (g : Port → Port) : (d.onPort p g).rte = d.rte := rfl
@[simp] theorem DieState.onPort_sw (d : DieState) (p : Nat) (g : Port → Port) : (d.onPort p g).sw = d.sw := rfl
@[simp] theorem DieState.onPort_tbl (d : DieState) (p : Nat) (g : Port → Port) : (d.onPort p g).tbl = d.tbl := rfl
@[simp] theorem DieState.onPort_tim (d : DieState) (p : Nat) (g : Port → Port) : (d.onPort p g).tim = d.tim := rfl
@[simp] theorem DieState.onPort_stw (d : DieState) (p : Nat) (g : Port → Port) : (d.onPort p g).stw = d.stw := rfl
@[simp] theorem DieState.onPort_sec (d : DieState) (p : Nat) (g : Port → Port) : (d.onPort p g).sec = d.sec := rfl
@[simp] theorem DieState.onPort_pci (d : DieState) (p : Nat) (g : Port → Port) : (d.onPort p g).pci = d.pci := rfl
@[simp] theorem DieState.onPort_pow (d : DieState) (p : Nat) (g : Port → Port) : (d.onPort p g).pow = d.pow := rfl
@[simp] theorem DieState.onPort_upd (d : DieState) (p : Nat) (g : Port → Port) : (d.onPort p g).upd = d.upd := rfl
@[simp] theorem DieState.onPort_guard (d : DieState) (p : Nat) (g : Port → Port) : (d.onPort p g).guard = d.guard := rfl
@[simp] theorem DieState.onPort_cm (d : DieState) (p : Nat) (g : Port → Port) : (d.onPort p g).cm = d.cm := rfl
@[simp] theorem DieState.onPort_nl (d : DieState) (p : Nat) (g : Port → Port) : (d.onPort p g).nl = d.nl := rfl
@[simp] theorem DieState.onPort_fences (d : DieState) (p : Nat) (g : Port → Port) : (d.onPort p g).fences = d.fences := rfl

@[simp] theorem DieState.setGalSlot_die (d : DieState) (h : Nat) (x : Slot) : (d.setGalSlot h x).die = d.die := rfl
@[simp] theorem DieState.setGalSlot_now (d : DieState) (h : Nat) (x : Slot) : (d.setGalSlot h x).now = d.now := rfl
@[simp] theorem DieState.setGalSlot_free (d : DieState) (h : Nat) (x : Slot) : (d.setGalSlot h x).free = d.free := rfl
@[simp] theorem DieState.setGalSlot_regs (d : DieState) (h : Nat) (x : Slot) : (d.setGalSlot h x).regs = d.regs := rfl
@[simp] theorem DieState.setGalSlot_staged (d : DieState) (h : Nat) (x : Slot) : (d.setGalSlot h x).staged = d.staged := rfl
@[simp] theorem DieState.setGalSlot_old (d : DieState) (h : Nat) (x : Slot) : (d.setGalSlot h x).old = d.old := rfl
@[simp] theorem DieState.setGalSlot_gen (d : DieState) (h : Nat) (x : Slot) : (d.setGalSlot h x).gen = d.gen := rfl
@[simp] theorem DieState.setGalSlot_bus (d : DieState) (h : Nat) (x : Slot) : (d.setGalSlot h x).bus = d.bus := rfl
@[simp] theorem DieState.setGalSlot_evt (d : DieState) (h : Nat) (x : Slot) : (d.setGalSlot h x).evt = d.evt := rfl
@[simp] theorem DieState.setGalSlot_eng (d : DieState) (h : Nat) (x : Slot) : (d.setGalSlot h x).eng = d.eng := rfl
@[simp] theorem DieState.setGalSlot_host (d : DieState) (h : Nat) (x : Slot) : (d.setGalSlot h x).host = d.host := rfl
@[simp] theorem DieState.setGalSlot_tb (d : DieState) (h : Nat) (x : Slot) : (d.setGalSlot h x).tb = d.tb := rfl
@[simp] theorem DieState.setGalSlot_can (d : DieState) (h : Nat) (x : Slot) : (d.setGalSlot h x).can = d.can := rfl
@[simp] theorem DieState.setGalSlot_lin (d : DieState) (h : Nat) (x : Slot) : (d.setGalSlot h x).lin = d.lin := rfl
@[simp] theorem DieState.setGalSlot_rte (d : DieState) (h : Nat) (x : Slot) : (d.setGalSlot h x).rte = d.rte := rfl
@[simp] theorem DieState.setGalSlot_port (d : DieState) (h : Nat) (x : Slot) : (d.setGalSlot h x).port = d.port := rfl
@[simp] theorem DieState.setGalSlot_sw (d : DieState) (h : Nat) (x : Slot) : (d.setGalSlot h x).sw = d.sw := rfl
@[simp] theorem DieState.setGalSlot_tbl (d : DieState) (h : Nat) (x : Slot) : (d.setGalSlot h x).tbl = d.tbl := rfl
@[simp] theorem DieState.setGalSlot_tim (d : DieState) (h : Nat) (x : Slot) : (d.setGalSlot h x).tim = d.tim := rfl
@[simp] theorem DieState.setGalSlot_stw (d : DieState) (h : Nat) (x : Slot) : (d.setGalSlot h x).stw = d.stw := rfl
@[simp] theorem DieState.setGalSlot_sec (d : DieState) (h : Nat) (x : Slot) : (d.setGalSlot h x).sec = d.sec := rfl
@[simp] theorem DieState.setGalSlot_pci (d : DieState) (h : Nat) (x : Slot) : (d.setGalSlot h x).pci = d.pci := rfl
@[simp] theorem DieState.setGalSlot_pow (d : DieState) (h : Nat) (x : Slot) : (d.setGalSlot h x).pow = d.pow := rfl
@[simp] theorem DieState.setGalSlot_upd (d : DieState) (h : Nat) (x : Slot) : (d.setGalSlot h x).upd = d.upd := rfl
@[simp] theorem DieState.setGalSlot_guard (d : DieState) (h : Nat) (x : Slot) : (d.setGalSlot h x).guard = d.guard := rfl
@[simp] theorem DieState.setGalSlot_cm (d : DieState) (h : Nat) (x : Slot) : (d.setGalSlot h x).cm = d.cm := rfl
@[simp] theorem DieState.setGalSlot_nl (d : DieState) (h : Nat) (x : Slot) : (d.setGalSlot h x).nl = d.nl := rfl
@[simp] theorem DieState.setGalSlot_fences (d : DieState) (h : Nat) (x : Slot) : (d.setGalSlot h x).fences = d.fences := rfl

@[simp] theorem DieState.setSlot_die (d : DieState) (k : Nat) (x : KeySlot) : (d.setSlot k x).die = d.die := rfl
@[simp] theorem DieState.setSlot_now (d : DieState) (k : Nat) (x : KeySlot) : (d.setSlot k x).now = d.now := rfl
@[simp] theorem DieState.setSlot_free (d : DieState) (k : Nat) (x : KeySlot) : (d.setSlot k x).free = d.free := rfl
@[simp] theorem DieState.setSlot_regs (d : DieState) (k : Nat) (x : KeySlot) : (d.setSlot k x).regs = d.regs := rfl
@[simp] theorem DieState.setSlot_staged (d : DieState) (k : Nat) (x : KeySlot) : (d.setSlot k x).staged = d.staged := rfl
@[simp] theorem DieState.setSlot_old (d : DieState) (k : Nat) (x : KeySlot) : (d.setSlot k x).old = d.old := rfl
@[simp] theorem DieState.setSlot_gen (d : DieState) (k : Nat) (x : KeySlot) : (d.setSlot k x).gen = d.gen := rfl
@[simp] theorem DieState.setSlot_bus (d : DieState) (k : Nat) (x : KeySlot) : (d.setSlot k x).bus = d.bus := rfl
@[simp] theorem DieState.setSlot_evt (d : DieState) (k : Nat) (x : KeySlot) : (d.setSlot k x).evt = d.evt := rfl
@[simp] theorem DieState.setSlot_eng (d : DieState) (k : Nat) (x : KeySlot) : (d.setSlot k x).eng = d.eng := rfl
@[simp] theorem DieState.setSlot_host (d : DieState) (k : Nat) (x : KeySlot) : (d.setSlot k x).host = d.host := rfl
@[simp] theorem DieState.setSlot_tb (d : DieState) (k : Nat) (x : KeySlot) : (d.setSlot k x).tb = d.tb := rfl
@[simp] theorem DieState.setSlot_can (d : DieState) (k : Nat) (x : KeySlot) : (d.setSlot k x).can = d.can := rfl
@[simp] theorem DieState.setSlot_lin (d : DieState) (k : Nat) (x : KeySlot) : (d.setSlot k x).lin = d.lin := rfl
@[simp] theorem DieState.setSlot_gal (d : DieState) (k : Nat) (x : KeySlot) : (d.setSlot k x).gal = d.gal := rfl
@[simp] theorem DieState.setSlot_rte (d : DieState) (k : Nat) (x : KeySlot) : (d.setSlot k x).rte = d.rte := rfl
@[simp] theorem DieState.setSlot_port (d : DieState) (k : Nat) (x : KeySlot) : (d.setSlot k x).port = d.port := rfl
@[simp] theorem DieState.setSlot_sw (d : DieState) (k : Nat) (x : KeySlot) : (d.setSlot k x).sw = d.sw := rfl
@[simp] theorem DieState.setSlot_tbl (d : DieState) (k : Nat) (x : KeySlot) : (d.setSlot k x).tbl = d.tbl := rfl
@[simp] theorem DieState.setSlot_tim (d : DieState) (k : Nat) (x : KeySlot) : (d.setSlot k x).tim = d.tim := rfl
@[simp] theorem DieState.setSlot_stw (d : DieState) (k : Nat) (x : KeySlot) : (d.setSlot k x).stw = d.stw := rfl
@[simp] theorem DieState.setSlot_pci (d : DieState) (k : Nat) (x : KeySlot) : (d.setSlot k x).pci = d.pci := rfl
@[simp] theorem DieState.setSlot_pow (d : DieState) (k : Nat) (x : KeySlot) : (d.setSlot k x).pow = d.pow := rfl
@[simp] theorem DieState.setSlot_upd (d : DieState) (k : Nat) (x : KeySlot) : (d.setSlot k x).upd = d.upd := rfl
@[simp] theorem DieState.setSlot_guard (d : DieState) (k : Nat) (x : KeySlot) : (d.setSlot k x).guard = d.guard := rfl
@[simp] theorem DieState.setSlot_cm (d : DieState) (k : Nat) (x : KeySlot) : (d.setSlot k x).cm = d.cm := rfl
@[simp] theorem DieState.setSlot_nl (d : DieState) (k : Nat) (x : KeySlot) : (d.setSlot k x).nl = d.nl := rfl
@[simp] theorem DieState.setSlot_fences (d : DieState) (k : Nat) (x : KeySlot) : (d.setSlot k x).fences = d.fences := rfl

@[simp] theorem DieState.onBase_die (d : DieState) (n : Nat) (g : TBase → TBase) : (d.onBase n g).die = d.die := rfl
@[simp] theorem DieState.onBase_now (d : DieState) (n : Nat) (g : TBase → TBase) : (d.onBase n g).now = d.now := rfl
@[simp] theorem DieState.onBase_free (d : DieState) (n : Nat) (g : TBase → TBase) : (d.onBase n g).free = d.free := rfl
@[simp] theorem DieState.onBase_regs (d : DieState) (n : Nat) (g : TBase → TBase) : (d.onBase n g).regs = d.regs := rfl
@[simp] theorem DieState.onBase_staged (d : DieState) (n : Nat) (g : TBase → TBase) : (d.onBase n g).staged = d.staged := rfl
@[simp] theorem DieState.onBase_old (d : DieState) (n : Nat) (g : TBase → TBase) : (d.onBase n g).old = d.old := rfl
@[simp] theorem DieState.onBase_gen (d : DieState) (n : Nat) (g : TBase → TBase) : (d.onBase n g).gen = d.gen := rfl
@[simp] theorem DieState.onBase_bus (d : DieState) (n : Nat) (g : TBase → TBase) : (d.onBase n g).bus = d.bus := rfl
@[simp] theorem DieState.onBase_evt (d : DieState) (n : Nat) (g : TBase → TBase) : (d.onBase n g).evt = d.evt := rfl
@[simp] theorem DieState.onBase_eng (d : DieState) (n : Nat) (g : TBase → TBase) : (d.onBase n g).eng = d.eng := rfl
@[simp] theorem DieState.onBase_host (d : DieState) (n : Nat) (g : TBase → TBase) : (d.onBase n g).host = d.host := rfl
@[simp] theorem DieState.onBase_can (d : DieState) (n : Nat) (g : TBase → TBase) : (d.onBase n g).can = d.can := rfl
@[simp] theorem DieState.onBase_lin (d : DieState) (n : Nat) (g : TBase → TBase) : (d.onBase n g).lin = d.lin := rfl
@[simp] theorem DieState.onBase_gal (d : DieState) (n : Nat) (g : TBase → TBase) : (d.onBase n g).gal = d.gal := rfl
@[simp] theorem DieState.onBase_rte (d : DieState) (n : Nat) (g : TBase → TBase) : (d.onBase n g).rte = d.rte := rfl
@[simp] theorem DieState.onBase_port (d : DieState) (n : Nat) (g : TBase → TBase) : (d.onBase n g).port = d.port := rfl
@[simp] theorem DieState.onBase_sw (d : DieState) (n : Nat) (g : TBase → TBase) : (d.onBase n g).sw = d.sw := rfl
@[simp] theorem DieState.onBase_tbl (d : DieState) (n : Nat) (g : TBase → TBase) : (d.onBase n g).tbl = d.tbl := rfl
@[simp] theorem DieState.onBase_tim (d : DieState) (n : Nat) (g : TBase → TBase) : (d.onBase n g).tim = d.tim := rfl
@[simp] theorem DieState.onBase_stw (d : DieState) (n : Nat) (g : TBase → TBase) : (d.onBase n g).stw = d.stw := rfl
@[simp] theorem DieState.onBase_sec (d : DieState) (n : Nat) (g : TBase → TBase) : (d.onBase n g).sec = d.sec := rfl
@[simp] theorem DieState.onBase_pci (d : DieState) (n : Nat) (g : TBase → TBase) : (d.onBase n g).pci = d.pci := rfl
@[simp] theorem DieState.onBase_pow (d : DieState) (n : Nat) (g : TBase → TBase) : (d.onBase n g).pow = d.pow := rfl
@[simp] theorem DieState.onBase_upd (d : DieState) (n : Nat) (g : TBase → TBase) : (d.onBase n g).upd = d.upd := rfl
@[simp] theorem DieState.onBase_guard (d : DieState) (n : Nat) (g : TBase → TBase) : (d.onBase n g).guard = d.guard := rfl
@[simp] theorem DieState.onBase_cm (d : DieState) (n : Nat) (g : TBase → TBase) : (d.onBase n g).cm = d.cm := rfl
@[simp] theorem DieState.onBase_nl (d : DieState) (n : Nat) (g : TBase → TBase) : (d.onBase n g).nl = d.nl := rfl
@[simp] theorem DieState.onBase_fences (d : DieState) (n : Nat) (g : TBase → TBase) : (d.onBase n g).fences = d.fences := rfl

@[simp] theorem DieState.sramStore_die (d : DieState) (a : Nat) (bs : List Byte) (w : Option Nat) : (d.sramStore a bs w).die = d.die := rfl
@[simp] theorem DieState.sramStore_now (d : DieState) (a : Nat) (bs : List Byte) (w : Option Nat) : (d.sramStore a bs w).now = d.now := rfl
@[simp] theorem DieState.sramStore_free (d : DieState) (a : Nat) (bs : List Byte) (w : Option Nat) : (d.sramStore a bs w).free = d.free := rfl
@[simp] theorem DieState.sramStore_regs (d : DieState) (a : Nat) (bs : List Byte) (w : Option Nat) : (d.sramStore a bs w).regs = d.regs := rfl
@[simp] theorem DieState.sramStore_staged (d : DieState) (a : Nat) (bs : List Byte) (w : Option Nat) : (d.sramStore a bs w).staged = d.staged := rfl
@[simp] theorem DieState.sramStore_old (d : DieState) (a : Nat) (bs : List Byte) (w : Option Nat) : (d.sramStore a bs w).old = d.old := rfl
@[simp] theorem DieState.sramStore_gen (d : DieState) (a : Nat) (bs : List Byte) (w : Option Nat) : (d.sramStore a bs w).gen = d.gen := rfl
@[simp] theorem DieState.sramStore_bus (d : DieState) (a : Nat) (bs : List Byte) (w : Option Nat) : (d.sramStore a bs w).bus = d.bus := rfl
@[simp] theorem DieState.sramStore_evt (d : DieState) (a : Nat) (bs : List Byte) (w : Option Nat) : (d.sramStore a bs w).evt = d.evt := rfl
@[simp] theorem DieState.sramStore_eng (d : DieState) (a : Nat) (bs : List Byte) (w : Option Nat) : (d.sramStore a bs w).eng = d.eng := rfl
@[simp] theorem DieState.sramStore_tb (d : DieState) (a : Nat) (bs : List Byte) (w : Option Nat) : (d.sramStore a bs w).tb = d.tb := rfl
@[simp] theorem DieState.sramStore_can (d : DieState) (a : Nat) (bs : List Byte) (w : Option Nat) : (d.sramStore a bs w).can = d.can := rfl
@[simp] theorem DieState.sramStore_lin (d : DieState) (a : Nat) (bs : List Byte) (w : Option Nat) : (d.sramStore a bs w).lin = d.lin := rfl
@[simp] theorem DieState.sramStore_gal (d : DieState) (a : Nat) (bs : List Byte) (w : Option Nat) : (d.sramStore a bs w).gal = d.gal := rfl
@[simp] theorem DieState.sramStore_rte (d : DieState) (a : Nat) (bs : List Byte) (w : Option Nat) : (d.sramStore a bs w).rte = d.rte := rfl
@[simp] theorem DieState.sramStore_port (d : DieState) (a : Nat) (bs : List Byte) (w : Option Nat) : (d.sramStore a bs w).port = d.port := rfl
@[simp] theorem DieState.sramStore_sw (d : DieState) (a : Nat) (bs : List Byte) (w : Option Nat) : (d.sramStore a bs w).sw = d.sw := rfl
@[simp] theorem DieState.sramStore_tbl (d : DieState) (a : Nat) (bs : List Byte) (w : Option Nat) : (d.sramStore a bs w).tbl = d.tbl := rfl
@[simp] theorem DieState.sramStore_tim (d : DieState) (a : Nat) (bs : List Byte) (w : Option Nat) : (d.sramStore a bs w).tim = d.tim := rfl
@[simp] theorem DieState.sramStore_sec (d : DieState) (a : Nat) (bs : List Byte) (w : Option Nat) : (d.sramStore a bs w).sec = d.sec := rfl
@[simp] theorem DieState.sramStore_pci (d : DieState) (a : Nat) (bs : List Byte) (w : Option Nat) : (d.sramStore a bs w).pci = d.pci := rfl
@[simp] theorem DieState.sramStore_pow (d : DieState) (a : Nat) (bs : List Byte) (w : Option Nat) : (d.sramStore a bs w).pow = d.pow := rfl
@[simp] theorem DieState.sramStore_upd (d : DieState) (a : Nat) (bs : List Byte) (w : Option Nat) : (d.sramStore a bs w).upd = d.upd := rfl
@[simp] theorem DieState.sramStore_guard (d : DieState) (a : Nat) (bs : List Byte) (w : Option Nat) : (d.sramStore a bs w).guard = d.guard := rfl
@[simp] theorem DieState.sramStore_cm (d : DieState) (a : Nat) (bs : List Byte) (w : Option Nat) : (d.sramStore a bs w).cm = d.cm := rfl
@[simp] theorem DieState.sramStore_nl (d : DieState) (a : Nat) (bs : List Byte) (w : Option Nat) : (d.sramStore a bs w).nl = d.nl := rfl
@[simp] theorem DieState.sramStore_fences (d : DieState) (a : Nat) (bs : List Byte) (w : Option Nat) : (d.sramStore a bs w).fences = d.fences := rfl

end Sys2Proof.Machine
end

