-- ==== Sys2Proof/Laws/Ops.lean ====
section
/-! SUPPORT. Laws/Ops.lean: what each shared operation can do, said once: register fields, register accesses, events. -/

namespace Sys2Proof.Machine

/-! ### Register fields -/

/-- Two different keys of a table do not touch one another. -/
theorem Tab.get_put_same_of_sorted {α : Type} [DecidableEq α] {d : α} {t : Tab α} (k : Nat) (v : α) (h : t.sorted 0 = true) :
    Tab.get d (Tab.put d t k v) k = v := by
  unfold Tab.get Tab.put
  split
  · rename_i e
    rw [Tab.get?_erase_same k h]
    exact e.symm
  · simp

/-- A write of one key leaves every other key as it was. -/
theorem Tab.get_put_other_of_sorted {α : Type} [DecidableEq α] {d e : α} {t : Tab α} {k j : Nat} (v : α) (h : t.sorted 0 = true)
    (hj : j ≠ k) : Tab.get e (Tab.put d t k v) j = Tab.get e t j := by
  unfold Tab.get Tab.put
  split
  · rw [Tab.get?_erase_other h hj]
  · rw [Tab.get?_insert_other t v hj]

/-- A write keeps the keys in order. -/
theorem Tab.sorted_put {α : Type} [DecidableEq α] {d : α} {t : Tab α} (k : Nat) (v : α) (h : t.sorted 0 = true) :
    (Tab.put d t k v).sorted 0 = true := by
  unfold Tab.put
  split
  · exact Tab.sorted_erase k h
  · exact Tab.sorted_insert v h (Nat.zero_le k)

/-- A field reads what was written to it, cut to its width. -/
theorem DieState.rd_wr_same (d : DieState) (f : Fld) (v ch i j : Nat) (h : Tab.sorted 0 d.regs = true) :
    (d.wr f v ch i j).rd f ch i j = v % 2 ^ f.width := Tab.get_put_same_of_sorted _ _ h

/-- A write of a field leaves every field of another key as it was. -/
theorem DieState.rd_wr_other (d : DieState) (f g : Fld) (v ch i j ch' i' j' : Nat) (h : Tab.sorted 0 d.regs = true)
    (hk : g.key ch' i' j' ≠ f.key ch i j) : (d.wr f v ch i j).rd g ch' i' j' = d.rd g ch' i' j' :=
  Tab.get_put_other_of_sorted _ h hk

/-- A write of a field keeps the register file in order. -/
theorem DieState.sorted_wr (d : DieState) (f : Fld) (v ch i j : Nat) (h : Tab.sorted 0 d.regs = true) :
    Tab.sorted 0 (d.wr f v ch i j).regs = true := Tab.sorted_put _ _ h

/-! ### Accesses -/

/-- An access that completes with OKAY changes the completion only. -/
theorem DieState.complete_okay (d : DieState) (q : Requester) (a v : Nat) :
    d.complete q a .okay v = { d with bus := { d.bus with resp := { status := .okay, value := v } } } := rfl

/-- Every other status raises the SYS event of its name. -/
theorem DieState.complete_refused (d : DieState) (q : Requester) (a v : Nat) (st : Status) (h : st ≠ .okay) :
    d.complete q a st v = ({ d with bus := { d.bus with resp := { status := st, value := v } } }).raise (0x000F + st.code)
      (a % 2 ^ 32) 0 (reqId q) (d.secure q) (a / 2 ^ 32) := by
  cases st <;> first | exact absurd rfl h | rfl

/-- A register write that begins with OKAY and is not blocked: the fields take the value, then the register acts. -/
theorem DieState.writeReg_okay (d : DieState) (q : Requester) (blk ch off : Nat) (v : Word) (act : DieState → DieState)
    (h : d.regStatus q blk ch off true = .okay) :
    d.writeReg q blk ch off v act =
      act ((d.complete q (regAddr blk off) .okay).writeFields blk (regChan blk ch (reqCopy q) off) off v) := by
  simp [DieState.writeReg, h]

/-- A register write that its chapter blocks completes with DECODE_ERROR. -/
theorem DieState.writeReg_blocked (d : DieState) (q : Requester) (blk ch off : Nat) (v : Word) (act : DieState → DieState)
    (h : d.regStatus q blk ch off true = .okay) :
    d.writeReg q blk ch off v act true = d.complete q (regAddr blk off) .decodeError := by
  simp [DieState.writeReg, h]

/-- A register write whose status is not OKAY does nothing but complete with it. -/
theorem DieState.writeReg_refused (d : DieState) (q : Requester) (blk ch off : Nat) (v : Word) (act : DieState → DieState)
    (b : Bool) (h : d.regStatus q blk ch off true ≠ .okay) :
    d.writeReg q blk ch off v act b = d.complete q (regAddr blk off) (d.regStatus q blk ch off true) := by
  unfold DieState.writeReg
  split
  · rename_i e; exact absurd e h
  · rfl

/-- A register read that begins with OKAY returns the value and has its effect. -/
theorem DieState.readReg_okay (d : DieState) (q : Requester) (blk ch off : Nat) (value : DieState → Nat) (act : DieState → DieState)
    (h : d.regStatus q blk ch off false = .okay) :
    d.readReg q blk ch off value act = act (d.complete q (regAddr blk off) .okay (value d)) := by
  simp [DieState.readReg, h]

/-- A register read whose status is not OKAY does nothing but complete with it, with the value 0. -/
theorem DieState.readReg_refused (d : DieState) (q : Requester) (blk ch off : Nat) (value : DieState → Nat)
    (act : DieState → DieState) (h : d.regStatus q blk ch off false ≠ .okay) :
    d.readReg q blk ch off value act = d.complete q (regAddr blk off) (d.regStatus q blk ch off false) := by
  unfold DieState.readReg
  split
  · rename_i e; exact absurd e h
  · rfl

/-! ### What events leave as it was -/

/-- The parts of a die that no event, record or engine event changes. -/
def DieState.core (d : DieState) : Die × Nat × Nat × Tab Nat × Tab Nat × Vector TBase 8 × Tab CanChan × Tab LinChan × GalState ×
    TblState × TimState × SecState × PowState × UpdState × GuardState × CommitState × NlState × List Nat × BusState :=
  (d.die, d.now, d.gen, d.staged, d.old, d.tb, d.can, d.lin, d.gal, d.tbl, d.tim, d.sec, d.pow, d.upd, d.guard, d.cm, d.nl,
    d.fences, d.bus)

@[simp] theorem DieState.core_wr (d : DieState) (f : Fld) (v ch i j : Nat) : (d.wr f v ch i j).core = d.core := rfl

@[simp] theorem DieState.core_cnt (d : DieState) (f : Fld) (ch i j n : Nat) : (d.cnt f ch i j n).core = d.core := rfl

@[simp] theorem DieState.core_peak (d : DieState) (f : Fld) (v ch i j : Nat) : (d.peak f v ch i j).core = d.core := rfl

@[simp] theorem DieState.core_startHold (d : DieState) (c k : Nat) : (d.startHold c k).core = d.core := rfl

@[simp] theorem DieState.core_sendVc (d : DieState) (v : Fin 4) (m : VMsg) : (d.sendVc v m).core = d.core := rfl

@[simp] theorem DieState.core_onPort (d : DieState) (p : Nat) (g : Port → Port) : (d.onPort p g).core = d.core := rfl

@[simp] theorem DieState.core_onCluster (d : DieState) (c : Nat) (g : Cluster → Cluster) : (d.onCluster c g).core = d.core := rfl

@[simp] theorem DieState.core_sramStore (d : DieState) (a : Nat) (bs : List Byte) (w : Option Nat) : (d.sramStore a bs w).core = d.core := rfl

@[simp] theorem DieState.core_takeSeq (d : DieState) (r : EvRec) : (d.takeSeq r).1.core = d.core := rfl

@[simp] theorem DieState.core_qbStore (d : DieState) (n p : Nat) (ws : List Word) : (d.qbStore n p ws).core = d.core := by
  induction ws generalizing d p with
  | nil => rfl
  | cons w r ih => exact ih _ _

@[simp] theorem DieState.core_qbEnter (d : DieState) (n : Nat) (ws : List Word) : (d.qbEnter n ws).core = d.core := by
  unfold DieState.qbEnter
  split
  · exact DieState.core_qbStore d n _ ws
  · simp

@[simp] theorem DieState.core_qbDropEff (d : DieState) (n k : Nat) : (d.qbDropEff n k).1.core = d.core := by
  unfold DieState.qbDropEff
  split <;> rfl

@[simp] theorem DieState.core_msixSend (d : DieState) (v : Nat) : (d.msixSend v).core = d.core := by
  unfold DieState.msixSend
  split <;> rfl

@[simp] theorem DieState.core_noteRise (d : DieState) (n : Nat) : (d.noteRise n).1.core = d.core := by
  simp only [DieState.noteRise]
  split <;> split <;> simp

@[simp] theorem DieState.core_qbOffer (d : DieState) (n : Nat) (ws : List Word) : (d.qbOffer n ws).2.1.core = d.core := by
  simp only [DieState.qbOffer]
  repeat' split
  all_goals simp

@[simp] theorem DieState.core_logHeader (d : DieState) : d.logHeader.core = d.core := rfl

@[simp] theorem DieState.core_logTrigger (d : DieState) (c : Nat) : (d.logTrigger c).core = d.core := by
  simp only [DieState.logTrigger]
  repeat' split
  all_goals rfl

@[simp] theorem DieState.core_withEvt (d : DieState) (e : EvtState) : DieState.core { d with evt := e } = d.core := rfl

@[simp] theorem DieState.core_logRecord (d : DieState) (r : EvRec) : (d.logRecord r).core = d.core := by
  have key : ∀ (x : DieState) (e : EvtState) (c : Nat), x.core = d.core →
      ((DieState.logHeader { x with evt := e }).logTrigger c).core = d.core := by
    intro x e c h
    rw [DieState.core_logTrigger, DieState.core_logHeader, DieState.core_withEvt, h]
  simp only [DieState.logRecord]
  split
  · split
    · rfl
    · exact key _ _ _ (DieState.core_sramStore _ _ _ _)
  · rfl

@[simp] theorem DieState.core_deliver (d : DieState) (r : EvRec) : (d.deliver r).1.core = d.core := by
  have h1 : ∀ (b : Bool) (q : Nat) (x : DieState) (es : List Eff),
      (if b then
        let (ok, d', es) := d.qbOffer q r.words
        (if ok then d' else d'.cnt evtDrop 0 0, es)
      else (d, [])) = (x, es) → x.core = d.core := by
    intro b q x es h
    cases b with
    | false => cases h; rfl
    | true =>
      simp only [if_true] at h
      have e := congrArg Prod.fst h
      simp only at e
      rw [← e]
      split <;> simp
  have h2 : ∀ (b : Bool) (x : DieState), x.core = d.core → (if b then x.logRecord r else x).core = d.core := by
    intro b x h; cases b <;> simp [h]
  have h3 : ∀ (b : Bool) (x : DieState), x.core = d.core →
      (if b then if x.evt.pciq.length < Config.pcieEventDepth then ({ x with evt := { x.evt with pciq := x.evt.pciq ++ [r] } } : DieState)
        else x.cnt evtDrop 0 1 else x).core = d.core := by
    intro b x h
    cases b with
    | false => exact h
    | true =>
      simp only [if_true]
      split
      · exact h
      · exact h
  have h4 : ∀ (b : Bool) (x : DieState), x.core = d.core →
      (if b then if x.linkUp then x.sendVc 0 (.event r) else x.cnt evtDrop 0 2 else x).core = d.core := by
    intro b x h
    cases b with
    | false => exact h
    | true =>
      simp only [if_true]
      split
      · exact h
      · exact h
  simp only [DieState.deliver]
  exact h4 _ _ (h3 _ _ (h2 _ _ (h1 _ _ _ _ rfl)))

/-! Frames of the packet buffer -/

@[simp] theorem DieState.core_withSw (d : DieState) (e : SwState) : DieState.core { d with sw := e } = d.core := rfl

@[simp] theorem DieState.core_sendPause (d : DieState) (p q : Nat) : (d.sendPause p q).core = d.core := rfl

@[simp] theorem DieState.core_pauseCheck (d : DieState) (p : Nat) : (d.pauseCheck p).core = d.core := by
  simp only [DieState.pauseCheck]
  repeat' split
  all_goals rfl

@[simp] theorem DieState.core_takeCells (d : DieState) (p q n : Nat) : (d.takeCells p q n).core = d.core := by
  simp only [DieState.takeCells, DieState.core_pauseCheck, DieState.core_peak]
  rfl

@[simp] theorem DieState.core_giveCells (d : DieState) (p q n : Nat) : (d.giveCells p q n).core = d.core := by
  simp only [DieState.giveCells, DieState.core_pauseCheck]
  rfl

@[simp] theorem DieState.core_storeFrame (d : DieState) (f : SFrame) : (d.storeFrame f).2.core = d.core := by
  simp only [DieState.storeFrame, DieState.storeHeld]
  exact DieState.core_takeCells d _ _ _

@[simp] theorem DieState.core_onFrame (d : DieState) (n : Nat) (g : SFrame → SFrame) : (d.onFrame n g).core = d.core := by
  unfold DieState.onFrame
  split <;> rfl

@[simp] theorem DieState.core_releaseFrame (d : DieState) (n : Nat) : (d.releaseFrame n).core = d.core := by
  unfold DieState.releaseFrame
  split
  · split
    · rw [DieState.core_giveCells]; rfl
    · simp
  · rfl

@[simp] theorem DieState.core_freeEFrame (d : DieState) (f : EFrame) : (d.freeEFrame f).core = d.core := by
  unfold DieState.freeEFrame
  split <;> simp

@[simp] theorem DieState.core_lookupPush (d : DieState) (n : Nat) : (d.lookupPush n).core = d.core := by
  unfold DieState.lookupPush
  split
  · rfl
  · simp

@[simp] theorem DieState.core_routePush (d : DieState) (f : RFrame) : (d.routePush f).core = d.core := by
  unfold DieState.routePush
  repeat' split
  all_goals rfl

/-! Engine events -/

@[simp] theorem DieState.core_forwardFrame (d : DieState) (f : EFrame) : (d.forwardFrame f).core = d.core := by
  unfold DieState.forwardFrame
  split <;> simp

@[simp] theorem DieState.core_disposeFrame (d : DieState) (f : EFrame) (b : Bool) : (d.disposeFrame f b).core = d.core := by
  unfold DieState.disposeFrame
  split <;> simp

@[simp] theorem DieState.core_disposeEvent (d : DieState) (cl : Nat) (e : EngEvent) (r : Nat) :
    (d.disposeEvent cl e r).1.core = d.core := by
  have h : ∀ (o : Option EFrame) (x : DieState) (b : Bool), x.core = d.core →
      (match o with | some f => x.disposeFrame f b | none => x).core = d.core := by
    intro o x b h
    cases o
    · exact h
    · simp [h]
  simp only [DieState.disposeEvent, DieState.core_takeSeq]
  refine h _ _ _ ?_
  split <;> simp

@[simp] theorem DieState.core_enqueueEvent (d : DieState) (cl : Nat) (e : EngEvent) : (d.enqueueEvent cl e).1.core = d.core := by
  simp only [DieState.enqueueEvent]
  repeat' split
  all_goals simp

@[simp] theorem DieState.core_effect (d : DieState) (e : Eff) : (d.effect e).1.core = d.core := by
  unfold DieState.effect
  split
  · split
    · simp
    · rfl
  · simp

@[simp] theorem DieState.core_settle (n : Nat) (d : DieState) (es : List Eff) : (d.settle n es).core = d.core := by
  induction n generalizing d es with
  | zero => rfl
  | succ k ih =>
    cases es with
    | nil => rfl
    | cons e r => simp only [DieState.settle, ih, DieState.core_effect]

/-- An event leaves the core of the die as it was. -/
@[simp] theorem DieState.core_raise (d : DieState) (code info unit id : Nat) (sec : Bool) (hi : Nat) :
    (d.raise code info unit id sec hi).core = d.core := by
  simp only [DieState.raise, DieState.core_settle, DieState.core_takeSeq]

@[simp] theorem DieState.core_raiseHeld (d : DieState) (code scope lim info unit : Nat) :
    (d.raiseHeld code scope lim info unit).core = d.core := by
  unfold DieState.raiseHeld
  split <;> simp

@[simp] theorem DieState.core_engineEvent (d : DieState) (cl : Nat) (e : EngEvent) : (d.engineEvent cl e).core = d.core := by
  simp [DieState.engineEvent]

@[simp] theorem DieState.core_qbWrite (d : DieState) (n : Nat) (ws : List Word) : (d.qbWrite n ws).2.core = d.core := by
  simp [DieState.qbWrite]

/-- An item tagged with the active set reads the active fields. -/
@[simp] theorem DieState.rdAs_gen (d : DieState) (f : Fld) (ch i j : Nat) : d.rdAs d.gen f ch i j = d.rd f ch i j := by
  simp only [DieState.rdAs, if_true]

@[simp] theorem DieState.bitAs_gen (d : DieState) (f : Fld) (ch i j : Nat) : d.bitAs d.gen f ch i j = d.bit f ch i j := by
  simp only [DieState.bitAs, DieState.bit, DieState.rdAs_gen]

end Sys2Proof.Machine
end

