-- ==== Sys2Proof/Tests/Slice0.lean ====
section
/-! SUPPORT. Slice0.lean: tests. A term that each check of well-formedness refuses, words that the manual encodes, its worked
examples, and for each statement a state and operands that meet its hypotheses. -/

namespace Sys2Proof.Tests

open Sys2Proof.Machine

/-! ### Small states -/

/-- A secure core of West. -/
def wCore : Acc := { die := .west, req := .core 0 true }

/-- Context 0 of engine 0 of West. -/
def wC : Ctx := { die := .west, eng := 0, ctx := 0 }

/-- The package with West changed by `f`. -/
def wWest (f : DieState → DieState) : State := State.reset.on .west f

/-- The package with a register field of West set. -/
def wSet (f : Fld) (v : Nat) (ch : Nat := 0) (i : Nat := 0) (j : Nat := 0) : State := wWest fun d => d.wr f v ch i j

/-- The package with register fields of West set, each with its channel and index. -/
def wSets (l : List (Fld × Nat × Nat × Nat)) (f : DieState → DieState := fun d => d) : State :=
  wWest fun d => f (l.foldl (fun d e => d.wr e.1 e.2.1 e.2.2.1 e.2.2.2) d)

/-- The package with the Newel changed by `f`. -/
def wNewel (f : NewelState → NewelState) : State := State.reset.onNewel f

/-- A boot record with a running trial of 1 s, up to its CRC. -/
def wRecordBody : List Byte :=
  ([0x42, 0x52, 0x45, 0x43, 0, 0, 0, 0, 0, 1, 2, 0, 0, 0, 0, 0, 1, 0, 0, 0] : List Byte) ++ List.replicate 4072 0

/-- The record with its CRC. -/
def wRecord : List Byte := wRecordBody ++ leBytes 4 (crc32c wRecordBody)

/-- West with that boot record in copy 0. -/
def wBoot (f : DieState → DieState) : State := wWest fun d => f { d with upd := { d.upd with flash := Memory.setBytes [] 0 wRecord } }

/-- The record stands in copy 0 and is the current one. -/
theorem wBoot_copy (d : DieState) (h : d.upd.flash = Memory.setBytes [] 0 wRecord) :
    d.currentCopy = some 0 ∧ d.recordCopy 0 = wRecord := by
  have hl : wRecord.length = 4096 := by
    unfold wRecord wRecordBody
    rw [List.length_append, List.length_append, List.length_replicate, leBytes_length]
    rfl
  have e0 : d.recordCopy 0 = wRecord := by
    unfold DieState.recordCopy
    rw [h, show 4096 * 0 = 0 from rfl, ← hl]
    exact Memory.bytes_setBytes [] 0 wRecord (by decide)
  have e1 : d.recordCopy 1 = List.replicate 4096 0 := by
    unfold DieState.recordCopy
    apply List.ext_getElem
    · simp [Memory.bytes, -List.reduceReplicate]
    · intro k h1 h2
      simp only [Memory.bytes, List.getElem_map, List.getElem_range, List.getElem_replicate]
      rw [h, Memory.byte_setBytes_other wRecord (by decide) (Or.inr (by rw [hl]; omega))]
      rfl
  refine ⟨?_, e0⟩
  unfold DieState.currentCopy
  rw [e0, e1]
  have v0 : recordValid wRecord = true := recordValid_of_crc wRecordBody
    (by unfold wRecordBody; rw [List.length_append, List.length_replicate]; rfl) (by decide +kernel)
  have v1 : recordValid (List.replicate 4096 0) = false := by decide +kernel
  simp only [v0, v1]

theorem wBoot_flash (f : DieState → DieState) (h : ∀ d, (f d).upd.flash = d.upd.flash) :
    ((wBoot f).get .west).upd.flash = Memory.setBytes [] 0 wRecord := by
  unfold wBoot wWest State.on
  rw [State.get_set_same, h]

theorem wBoot_current (f : DieState → DieState) (h : ∀ d, (f d).upd.flash = d.upd.flash) :
    ((wBoot f).get .west).currentCopy = some 0 := (wBoot_copy _ (wBoot_flash f h)).1

/-- West with context 0 as given. -/
def wCtx0 (x : Context) (f : DieState → DieState := fun d => d) : State :=
  wWest fun d => f { d with eng := { d.eng with ctxs := [(0, x)] } }

/-- An event of the engines. -/
def wEvent : EngEvent := { typ := 3, entry := 0, cls := 7, unit := 0 }

/-- A put into a slot. -/
def wPut : GalReq := { pos := 0, source := 8, handle := 65535, op := .put [1] 2 1 }

/-- West with the Gallery open and as given. -/
def wGal (g : GalState) : State := wWest fun d => { d.wr galStat 0 with gal := g }

/-- A classical CAN frame of one byte. -/
def wBus : BusFrame :=
  { id := 5, ide := false, rtr := false, fmt := .cc, flags := 0, dlc := 1, sdt := 0, vcid := 0, af := 0, data := [1] }

/-- A frame in the route FIFO. -/
def wRoute : RFrame := { ch := 0, frame := wBus, stamp := 0 }

/-- A 1722 frame. -/
def w1722 : Ieee1722 := { subtype := 0x82, streamId := 0, seqNum := 0, tooLong := false, msgs := [] }

/-- A message a talker holds. -/
def wTalk : TkMsg := { ch := 0, frame := wBus, pos := 0 }

/-- A Signal PDU of one record. -/
def wPdu : SignalPdu :=
  { port := 0, udpLen := 24, version := 1, n := 1, seq := 0, stamp := 0, records := [{ handle := 0, status := 1, typ := 0, value := 0 }] }

/-- A queue entry on the wire. -/
def wTx : TxEntry := { frame := wBus, src := 0, wire := true }

/-- West with CAN channel 0 enabled, in state `st`, with fields set, and as given. -/
def wCan (c : CanChan) (l : List (Fld × Nat × Nat × Nat) := []) (f : DieState → DieState := fun d => d) : State :=
  wSets ((canCtrlEn, 1, 0, 0) :: l) fun d => f (d.onCan 0 fun _ => c)

/-- West with LIN channel 7 enabled, with fields set, and as given. -/
def wLin (c : LinChan) (l : List (Fld × Nat × Nat × Nat) := []) (f : DieState → DieState := fun d => d) : State :=
  wSets ((linCtrlEn, 1, 7, 0) :: l) fun d => f (d.onLin 7 fun _ => c)

/-- A frame that channel 7 awaits the response of. -/
def wCur : LinCur := { id := 63, pub := false }

/-- West with port `p` as given and fields set. -/
def wPort (p : Nat) (x : Port) (l : List (Fld × Nat × Nat × Nat) := []) (f : DieState → DieState := fun d => d) : State :=
  wSets l fun d => f (d.onPort p fun _ => x)

/-- A frame in the switch. -/
def wSw : SFrame := { bytes := List.replicate 60 0, port := 0, pool := 0, ingress := 0, len := 60, cells := 1, refs := 1 }

/-- A rate-stepping message towards 10G. -/
def wStep : StepFrame := { target := 0x19, reason := 1, token := 5, dly := 10 }

/-- West with the switch as given and fields set. -/
def wSwitch (x : SwState) (l : List (Fld × Nat × Nat × Nat) := []) (f : DieState → DieState := fun d => d) : State :=
  wSets l fun d => f { d with sw := x }

/-- West with a frame in the lookup FIFO and the VLAN entry 1 as given. -/
def wLookup (e : List Word) : State :=
  wSwitch { fifo := [7], frames := [(7, wSw)] } [] fun d => { d with tbl := { d.tbl with ent := [(65537, e)] } }

/-- A PTP message of a type, in an untagged frame. -/
def wPtp (typ : Byte) : List Byte := List.replicate 12 0 ++ [0x88, 0xF7, typ, 2] ++ List.replicate 46 0

/-- Both dies with register fields set and changed by `f`. -/
def wBoth (l : List (Fld × Nat × Nat × Nat)) (f : DieState → DieState := fun d => d) : State :=
  (State.reset.on .west fun d => f (l.foldl (fun d e => d.wr e.1 e.2.1 e.2.2.1 e.2.2.2) d)).on .east fun d =>
    f (l.foldl (fun d e => d.wr e.1 e.2.1 e.2.2.1 e.2.2.2) d)

/-- West with the tables as given and fields set. -/
def wTbl (x : TblState) (l : List (Fld × Nat × Nat × Nat) := []) (f : DieState → DieState := fun d => d) : State :=
  wSets l fun d => f { d with tbl := x }

/-- West with the Darkroom and the cipher engine as given and fields set. -/
def wSec (x : SecState) (l : List (Fld × Nat × Nat × Nat) := []) (f : DieState → DieState := fun d => d) : State :=
  wSets l fun d => f { d with sec := x }

/-- A SHA-256 job of secure core 0 over no data, on a lane. -/
def wJob (lane : Nat) (op : Word := 12) : CJob :=
  { num := 3, req := 0, secure := true, desc := [op, 0x10000000, 0x10001000, 0, 0, 0, 0, 0], lane := lane }

/-- Both dies with their Stairwell ends up, West's end as given, fields set in West, West changed by `f`. -/
def wLink (x : StwState) (l : List (Fld × Nat × Nat × Nat) := []) (f : DieState → DieState := fun d => d) : State :=
  ((wBoth [(stwLinkUp, 1, 0, 0)]).on .west fun d => f { l.foldl (fun d e => d.wr e.1 e.2.1 e.2.2.1 e.2.2.2) d with stw := x })

/-- An end with a message in the landing of a virtual channel. -/
def wLand (v : Fin 4) (m : VMsg) : StwState := { landing := (Vector.replicate 4 []).set v [m] }

/-- The Newel with load channel 23 as given and configured by words. -/
def wLoad (c : LsChan) (cfg : Tab Nat := []) (f : NewelState → NewelState := fun w => w) : State :=
  wNewel fun w => f { w with ch := [(23, c)], cfg := cfg }

/-- West's end of its Newel link, up, with a command unanswered. -/
def wNl (c : NlCmd) (l : List (Fld × Nat × Nat × Nat) := []) (f : DieState → DieState := fun d => d) : State :=
  wSets ((nwlLinkUp, 1, 0, 0) :: l) fun d => f { d with nl := { d.nl with sent := [c] } }

/-- West with the host complex as given and fields set. -/
def wHost (x : HostState) (l : List (Fld × Nat × Nat × Nat) := []) (f : DieState → DieState := fun d => d) : State :=
  wSets l fun d => f { d with host := x }

/-- An access of core 0 that waits, or has run out of time. -/
def wPend (late : Bool) : PendAcc := { req := .core 0 true, addr := 0x1010000000, write := false, since := 0, tag := 7, timedOut := late }

/-- West with a commit of MODE `m` and DRY `dry` in STATE `st`. -/
def wCommit (st m : Nat) (dry passed : Bool) : State :=
  wWest fun d => ({ d with now := 1000000000, cm := { mode := m, dry := dry, cue := 0, passed := passed } }).wr sysCommitStatState st

/-- West with context `x` ready on the word of `i`, its entry with room for one instruction. -/
def wIssue (i : Instr) (x : Context) : State :=
  wWest fun d =>
    let e : EngState := { ctxs := [(0, { x with state := .ready })], code := Tab.put 0 [] 0 (BitVec.ofNat 32 ((forrekWord i).getD 0)) }
    ((({ d with eng := e } : DieState).wr fkeCodeTop 1).wr fkeHtB 1).wr pwrHallStatReady 0x3FF

/-- The instruction may run in `wIssue`. -/
def wRuns (i : Instr) (x : Context) : Bool := ((wIssue i x).get .west).issuable wC i

/-! ### Well-formed commands: each check refuses a term -/

theorem smoke_wellFormed :
    Instr.wf (.registerWrite wCore { write := true, addr := 0, size := 4, data := [1] }) = false ∧
    Instr.wf (.remoteWindowAccess wCore { write := false, addr := 0, size := 4, data := [1] }) = false ∧
    Instr.wf (.decodeErrorAccess wCore { write := true, addr := 0, size := 1, data := [] }) = false ∧
    Instr.wf (.hallAsleepAnswer wCore { write := false, addr := 0, size := 1, data := [0] }) = false ∧
    Instr.wf (.pcieInboundRequest .west true { write := true, addr := 0, size := 8, data := [0] }) = false ∧
    Instr.wf (.canFrameReceive .west 0 { wBus with data := List.replicate 9 0 } 0) = false ∧
    Instr.wf (.canFrameReceive .west 0 { wBus with rtr := true } 0) = false ∧
    Instr.wf (.linResponseReceive .west 0 (List.replicate 9 0) true false 0) = false ∧
    Instr.wf (.fext wC 1 (.reg 2) 31 1 .le) = false ∧ Instr.wf (.fexts wC 1 (.reg 2) 1 31 .be) = false ∧
    Instr.wf (.fins wC (.reg 2) 32 0 1 .le) = false ∧ Instr.wf (.fnew wC 1 2 0) = false ∧ Instr.wf (.fnewz wC 1 9213) = false ∧
    Instr.wf (.ggetp wC 15 1) = false ∧ Instr.wf (.gputn wC 1 2 3 8) = false ∧ Instr.wf (.gputn wC 1 12 3 7) = false ∧
    Instr.wf (.lkp wC 1 7 0) = false ∧ Instr.wf (.lkp wC 15 0 0) = false ∧ Instr.wf (.lwait wC 15 0) = false ∧
    Instr.wf (.qput wC 1 15 1) = false ∧ Instr.wf (.qget wC 15 1 1) = false ∧ Instr.wf (.mbput wC 1 15 1 true) = false ∧
    Instr.wf (.mbget wC 15 1 1) = false ∧ Instr.wf (.mfs wC 1 7) = false ∧ Instr.wf (.mts wC 0 1) = false := by decide

theorem smoke_wellFormed_good :
    Instr.wf (.registerWrite wCore { write := true, addr := 0, size := 4, data := [1, 2, 3, 4] }) = true ∧
    Instr.wf (.canFrameReceive .west 0 wBus 0) = true ∧ Instr.wf (.gputn wC 8 1 1 7) = true ∧ Instr.wf (.fnew wC 1 2 9212) = true := by
  decide

/-! ### Decoding -/

/-- Table 4.19: the words the manual encodes. -/
theorem test_decode_manual :
    forrekDecode wC 0x41823838 = some (.fext wC 6 .cur 56 7 .le) ∧ forrekDecode wC 0xA1D8801D = some (.bne wC 7 6 29) ∧
    forrekDecode wC 0x08CE25E0 = some (.scl wC 3 3 8 9 15) ∧ forrekDecode wC 0x6428C840 = some (.gputn wC 10 3 2 2) ∧
    forrekDecode wC 0x13002902 = some (.addi wC 12 0 0x2902) := by decide

/-- No row of the operation table has bits. -/
theorem test_table_word : decodeTableWord 32 0x6428C840 = none ∧ State.reset.withFetchWord 32 0x6428C840 = State.reset := ⟨rfl, rfl⟩

/-! ### Worked examples of the manual -/

/-- The context after an instruction of context 0. -/
def tRun (i : Instr) (x : Context) : Context :=
  match exec i (wIssue i x) with
  | .next t => t.west.ctx 0
  | _ => {}

/-- Registers w3, w8 and w9 at values. -/
def tRegs (a b c : Word) : Context := ((({} : Context).setGr 3 a).setGr 8 b).setGr 9 c

/-- 04 R89: the scaling example. -/
theorem test_scale :
    (tRun (.scl wC 3 3 8 9 15) (tRegs 1001 0x8000 0)).gr 3 = 501 ∧ (tRun (.scl wC 3 3 8 9 15) (tRegs (-1001) 0x8000 0)).gr 3 = -500 ∧
    (tRun (.scl wC 3 3 8 9 15) (tRegs 80000 0x8000 0)).gr 3 = 32767 ∧
    (tRun (.scl wC 3 3 8 9 15) (tRegs 80000 0x8000 0)).st.getLsbD 4 = true ∧
    (tRun (.sclu wC 3 3 8 9 15) (tRegs 80000 0x8000 0)).gr 3 = 40000 ∧
    (tRun (.sclu wC 3 3 8 9 15) (tRegs (-1001) 0x8000 0)).gr 3 = 0 := by decide

/-- The three bytes of the field example at the cursor. -/
def tBytes : Context := { fd := some 0, held := [(0, { bytes := [0x3C, 0xA5, 0x0F], kind := .eth })] }

/-- 04 R92: the field example. -/
theorem test_field :
    (tRun (.fext wC 3 .cur 4 11 .le) tBytes).gr 3 = 0xA53 ∧ (tRun (.fext wC 3 .cur 4 11 .be) tBytes).gr 3 = 0xCA5 ∧
    (tRun (.fexts wC 3 .cur 0 11 .be) tBytes).gr 3 = 0x3CA ∧ (tRun (.fexts wC 3 .cur 8 11 .be) tBytes).gr 3 = 0xFFFFFA50 := by decide

/-- 14 R386: the watchdog answer example. -/
theorem test_watchdog_answer : wdAnswer 0x1234 7 = 0x1C48 := by decide

/-- 06 R167: the Sync of the example, sequence 7 of domain 2, started at 1,234,567.25 s. -/
theorem test_sync :
    syncData ((State.reset.west.wr canTmBDomain 2 2).syncFrame 2 7).data 1234567 = [0x12, 0x70, 0, 0, 0, 0x12, 0xD6, 0x87] := by decide

/-- 02 R45: a read grants a free semaphore and returns 0; a second one returns the owner's ID plus 1. -/
theorem test_semaphore :
    (∃ t, exec (.semClaim wCore 5) State.reset = .next t ∧ t.west.bus.resp.value = 0 ∧ t.west.sem 5 = 1) ∧
    ∃ t, exec (.semClaim { die := .west, req := .core 3 true } 5) (wSet sysSemPeekValue 1 0 5) = .next t ∧ t.west.bus.resp.value = 1 :=
  ⟨⟨_, rfl, by decide, by decide⟩, _, rfl, by decide⟩

/-- 11 R307, Table 11.7: steps 1 to 3 of the freshness example on KS_12. -/
theorem test_freshness :
    let d0 := (State.reset.west.wr cipFwA 1024 0 12).setFwLast 12 0x3FFFFFF80
    let a := d0.fwDecide 12 0x400000010
    let b := a.2.fwDecide 12 0x3FFFFFFA0
    let c := b.2.fwDecide 12 0x3FFFFFFA0
    a.1 = .accept ∧ a.2.fwLast 12 = 0x400000010 ∧ b.1 = .accept ∧ b.2.fwLast 12 = 0x400000010 ∧ c.1 = .replay := by decide

/-- 06 R163: the eighth error of a transmission adds 8 each time, and 256 is bus-off. -/
theorem test_bus_off :
    ∃ t, exec (.canTxError .west 0 .ack .ack) (wCan { q := [wTx] } [(canStatTec, 248, 0, 0)]) = .next t ∧ t.west.canState 0 = 2 :=
  ⟨_, rfl, by decide⟩

/-! ### The hypotheses of the statements are met -/

theorem witness_forrekRegister :
    ∀ i ∈ ([.add wC 1 2 3, .sub wC 15 15 15, .and wC 1 2 3, .or wC 1 2 3, .xor wC 1 2 3, .shl wC 1 2 3, .shr wC 1 2 3, .sar wC 1 2 3,
      .rol wC 1 2 3, .mul wC 1 2 3, .mulh wC 1 2 3, .mulhu wC 0 1 2, .muls wC 1 2 3, .adds wC 1 2 3, .subs wC 1 2 3,
      .addsu wC 1 2 3, .subsu wC 1 2 3, .min wC 1 2 3, .max wC 1 2 3, .minu wC 1 2 3, .maxu wC 1 2 3, .slt wC 1 2 3,
      .sltu wC 1 2 3, .sat wC 1 2 31, .satu wC 1 2 31, .bswap wC 1 2, .addsh wC 1 2 3, .subsh wC 1 2 3, .minh wC 1 2 3,
      .maxh wC 1 2 3, .packh wC 1 2 3, .scl wC 1 2 3 4 31, .sclu wC 1 2 3 4 31] : List Instr), wRuns i {} = true := by decide

theorem witness_forrekImmediate :
    ∀ i ∈ ([.addi wC 1 2 0xFFFF, .andi wC 1 2 0xFFFF, .ori wC 1 2 0xFFFF, .xori wC 1 2 0xFFFF, .lui wC 1 0x8000, .shli wC 1 2 31,
      .shri wC 1 2 31, .sari wC 1 2 31, .roli wC 1 2 31, .slti wC 1 2 0xFFFF, .sltiu wC 1 2 0xFFFF, .flen wC 15, .mfs wC 1 6] : List Instr), wRuns i {} = true := by decide

/-- West once the issue is counted, and its context. -/
def wDie (i : Instr) (x : Context) : DieState := ((wIssue i x).get .west).countIssue 0

/-- The context once the issue is counted. -/
def wCtx (i : Instr) (x : Context) : Context := (wDie i x).ctx 0

/-- A context that holds an Ethernet frame of 64 bytes at descriptor 0. -/
def wFrame (k : FrameKind) : Context := { fd := some 0, held := [(0, { bytes := List.replicate 64 1, kind := k })] }

/-- A context with w2 at a value. -/
def wReg (x : Context) (v : Word) : Context := x.setGr 2 v

theorem witness_forrekMemory :
    (∀ i ∈ ([.ldb wC 1 2 0xFFFF, .ldbs wC 1 2 0xFFFF, .stb wC 1 2 0xFFFF] : List Instr), wRuns i (wReg {} 0x3400) = true ∧
      ((wCtx i (wReg {} 0x3400)).gr 2 + (0xFFFF : BitVec 16).signExtend 32).toNat = 0x33FF) ∧
    (∀ i ∈ ([.ldh wC 1 2 0xFFFE, .ldhs wC 1 2 0xFFFE, .sth wC 1 2 0xFFFE] : List Instr), wRuns i (wReg {} 0x3400) = true ∧
      ((wCtx i (wReg {} 0x3400)).gr 2 + (0xFFFE : BitVec 16).signExtend 32).toNat = 0x33FE) ∧
    (∀ i ∈ ([.ldw wC 1 2 0xFFFC, .stw wC 1 2 0xFFFC] : List Instr), wRuns i (wReg {} 0x3400) = true ∧
      ((wCtx i (wReg {} 0x3400)).gr 2 + (0xFFFC : BitVec 16).signExtend 32).toNat = 0x33FC) := by decide

theorem witness_forrekMemoryBounds :
    (∀ i ∈ ([.ldb wC 1 2 0, .ldbs wC 1 2 0, .stb wC 1 2 0, .ldh wC 1 2 0, .ldhs wC 1 2 0, .sth wC 1 2 0, .ldw wC 1 2 0, .stw wC 1 2 0] : List Instr),
      wRuns i (wReg {} 0x3400) = true ∧ 0x3400 ≤ ((wCtx i (wReg {} 0x3400)).gr 2 + (0 : BitVec 16).signExtend 32).toNat) ∧
    wRuns (.ldw wC 1 2 2) {} = true ∧ ((wCtx (.ldw wC 1 2 2) {}).gr 2 + (2 : BitVec 16).signExtend 32).toNat % 4 ≠ 0 := by decide

theorem witness_forrekFields :
    (∀ i ∈ ([.fext wC 1 .cur 480 31 .be, .fexts wC 1 .cur 480 31 .le, .fins wC .cur 480 31 2 .be] : List Instr),
      wRuns i (wFrame .eth) = true ∧ (wCtx i (wFrame .eth)).fieldBytes .cur 480 32 ≠ none) ∧
    (∀ i ∈ ([.fext wC 1 (.reg 2) 31 0 .be, .fins wC (.reg 2) 0 31 3 .le] : List Instr), wRuns i {} = true ∧
      (wCtx i {}).fieldBytes (.reg 2) 31 1 ≠ none) := by decide

theorem witness_forrekCursor :
    wRuns (.cset wC 0xFFFF) {} = true ∧
    wRuns (.cadd wC 0xFFFF) { cur := 1 } = true ∧ 0 ≤ ((wCtx (.cadd wC 0xFFFF) { cur := 1 }).cur.toNat : Int) + (0xFFFF : BitVec 16).toInt ∧
    ((wCtx (.cadd wC 0xFFFF) { cur := 1 }).cur.toNat : Int) + (0xFFFF : BitVec 16).toInt < 65536 ∧
    wRuns (.csetr wC 2 0x7FFF) (wReg {} 0x8000) = true ∧ 0 ≤ (((wCtx (.csetr wC 2 0x7FFF) (wReg {} 0x8000)).gr 2).toNat : Int) + (0x7FFF : BitVec 16).toInt ∧
    (((wCtx (.csetr wC 2 0x7FFF) (wReg {} 0x8000)).gr 2).toNat : Int) + (0x7FFF : BitVec 16).toInt < 65536 := by decide

theorem witness_forrekNewFrames :
    (∀ i ∈ ([.fnew wC 1 2 64, .fnewz wC 1 64] : List Instr), wRuns i {} = true ∧ ((wCtx i {}).gr 2).toNat + 64 ≤ 0x3400 ∧
      (wDie i {}).hallOn .swc = true ∧ (wCtx i {}).held.length < 4 ∧ (wDie i {}).sw.descUsed < 65536 ∧
      ((wDie i {}).takeIn 27 ((wDie i {}).rdAs (wCtx i {}).tag ethRxcAPool 27 0) 0 (cellsOf 64) 0).1 = true) ∧
    wRuns (.fswp wC 1 2) (wReg {} 0xFFFFFFFF) = true ∧ (wCtx (.fswp wC 1 2) (wReg {} 0xFFFFFFFF)).named
      ((wCtx (.fswp wC 1 2) (wReg {} 0xFFFFFFFF)).gr 2) = some none := by decide

/-- A context that holds a classical CAN frame of 8 bytes in the view of 03 Table 3.5. -/
def wBusCtx : Context :=
  { fd := some 0, held := [(0, { bytes := leBytes 4 0x123 ++ [0, 0] ++ leBytes 2 8 ++ List.replicate 16 0, kind := .can })] }

theorem witness_forrekEmit :
    (let i := Instr.emit wC 2
     let x := wFrame .eth
     wRuns i x = true ∧ (wCtx i x).frame ≠ none ∧ (∃ e, emitWord ((wCtx i x).gr 2) = some e ∧ e.fits .eth = true ∧ e.kind < 2) ∧
      (wDie i x).hallOn .swc = true) ∧
    (let i := Instr.emit wC 2
     let x := wReg wBusCtx 0x21F
     wRuns i x = true ∧ (wCtx i x).frame ≠ none ∧ (∃ e, emitWord ((wCtx i x).gr 2) = some e ∧ e.fits .can = true ∧ 2 ≤ e.kind ∧
      (((wCtx i x).frame.map EFrame.bytes).bind e.busFrame).isSome) ∧ (wDie i x).hallOn .bus = true) ∧
    wRuns (.ffree wC) (wFrame .eth) = true ∧ (wCtx (.ffree wC) (wFrame .eth)).frame ≠ none ∧
    wRuns (.ffree wC) {} = true ∧ (wCtx (.ffree wC) {}).frame = none := by
  refine ⟨⟨by decide, by decide, ⟨_, rfl, by decide, by decide⟩, by decide⟩, ⟨by decide, by decide, ⟨_, rfl, by decide, by decide, by decide⟩, by decide⟩,
    by decide, by decide, by decide, by decide⟩

theorem witness_forrekLength :
    (let i := Instr.fsetlen wC 2
     let x := wReg (wFrame .eth) 60
     wRuns i x = true ∧ ((wCtx i x).frame.map fun f => (f.kind, decide (((wCtx i x).gr 2).toNat ≤ f.bytes.length))) = some (.eth, true)) ∧
    (let i := Instr.fsetlen wC 2
     let x := wReg wBusCtx 16
     wRuns i x = true ∧ 16 ≤ ((wCtx i x).gr 2).toNat ∧
      ((wCtx i x).frame.map fun f => (f.kind, decide (((wCtx i x).gr 2).toNat ≤ f.bytes.length))) = some (.can, true)) := by decide

theorem witness_forrekCrc :
    (∀ i ∈ ([.crc8 wC 1 2 .cur 63, .crc16 wC 1 2 .cur 63, .crc32c wC 1 2 .cur 63] : List Instr), wRuns i (wFrame .eth) = true ∧
      ∃ bs, (wDie i (wFrame .eth)).crcBytes wC (wCtx i (wFrame .eth)) .cur 64 = .ok bs) ∧
    (wRuns (.crc8 wC 1 2 (.mem 3) 0) {} = true ∧
      ∃ bs, (wDie (.crc8 wC 1 2 (.mem 3) 0) {}).crcBytes wC (wCtx (.crc8 wC 1 2 (.mem 3) 0) {}) (.mem 3) 1 = .ok bs) := by
  refine ⟨?_, by decide, ⟨_, rfl⟩⟩
  intro i h
  simp only [List.mem_cons, List.not_mem_nil, or_false] at h
  rcases h with rfl | rfl | rfl <;> exact ⟨by decide, ⟨_, rfl⟩⟩

/-- West once the Gallery has cleared. -/
def wGalDie (i : Instr) (x : Context) : DieState := (((wIssue i x).on .west fun d => d.wr galStat 0).get .west).countIssue 0

theorem witness_forrekGallery :
    ∀ i ∈ ([.gget wC 1 2, .ggets wC 1 2, .ggetm wC 1 2, .ggetp wC 14 2, .gput wC 2 3 4, .gputn wC 2 3 4 7, .gadd wC 1 2 3, .gcas wC 1 2 3 4] : List Instr),
      (((wIssue i (wReg {} 0xFFF8)).on .west fun d => d.wr galStat 0).get .west).issuable wC i = true ∧ (wGalDie i (wReg {} 0xFFF8)).galShut = none ∧
      (((wGalDie i (wReg {} 0xFFF8)).ctx 0).gr 2).toNat % 65536 + 8 ≤ 65536 := by decide

theorem witness_forrekLookups :
    (let i := Instr.lkp wC 2 1 3
     wRuns i {} = true ∧ (((wIssue i {}).get .west).ctx 0).lkpTag 3 = .free ∧
      lookupKey 1 ((wCtx i {}).gr 2).toNat ((wCtx i {}).gr 3).toNat ≠ none ∧ (wDie i {}).hallOn (lkpHall 1) = true) ∧
    (let i := Instr.lwait wC 14 3
     let x := ({} : Context).setTag 3 (.done true 7 9)
     wRuns i x = true ∧ (((wIssue i x).get .west).ctx 0).lkpTag 3 = .done true 7 9 ∧ (wCtx i x).lkpTag 3 = .done true 7 9) ∧
    (let x := ({} : Context).setTag 3 (.busy 1 [0])
     (((wIssue (.ret wC) x).get .west).ctx 0).lkpTag 3 = .busy 1 [0] ∧ ((wIssue (.ret wC) x).get .west).lkpOn 1 = true) := by decide

/-- West with queue block 63 enabled, eight words long, empty; mailbox 15 between cluster 0 and core 0; a range of one engine timer. -/
def wServe (i : Instr) (x : Context) (wp : Nat) (mb : List Word) : State :=
  (wIssue i x).on .west fun d =>
    let e := (((((d.wr qbkCfgAEn 1 63).wr qbkCfgALog2size 3 63).wr qbkWp wp 63).wr mbxCfgAEn 1 15).wr mbxCfgAEndA 8 15).wr mbxCfgAEndB 0 15
    let e := ((e.wr fkeEtRangeCount 1).wr fkeHtAValid 1).wr fkeHtALock 0
    { e with host := { e.host with mbx := [(31, mb)] } }

/-- West of `wServe` once the issue is counted. -/
def wServed (i : Instr) (x : Context) (wp : Nat) (mb : List Word) : DieState := ((wServe i x wp mb).get .west).countIssue 0

theorem witness_forrekQueues :
    (∀ i ∈ ([.qput wC 2 3 7, .qget wC 8 2 7] : List Instr), ((wServe i (wReg {} 63) 0 []).get .west).issuable wC i = true ∧
      (((wServed i (wReg {} 63) 0 []).ctx 0).gr 2).toNat ≤ 63 ∧ (wServed i (wReg {} 63) 0 []).hallOn .host = true ∧
      (wServed i (wReg {} 63) 0 []).qbUnread 63 < 8) ∧
    (let i := Instr.qget wC 8 2 7
     ((wServe i (wReg {} 63) 8 []).get .west).issuable wC i = true ∧ (wServed i (wReg {} 63) 8 []).bit qbkCfgAEn 63 = true ∧
      8 ≤ (wServed i (wReg {} 63) 8 []).qbUnread 63) := by decide

theorem witness_forrekMailboxes :
    (∀ i ∈ ([.mbput wC 2 3 7 false, .mbput wC 2 3 7 true, .mbget wC 8 2 0] : List Instr),
      ((wServe i (wReg {} 15) 0 [5]).get .west).issuable wC i = true ∧ (((wServed i (wReg {} 15) 0 [5]).ctx 0).gr 2).toNat = 15 ∧
      (wServed i (wReg {} 15) 0 [5]).hallOn .host = true ∧ (wServed i (wReg {} 15) 0 [5]).mbEnd 15 8 = some 0) ∧
    (∃ ws y, (wServed (.mbget wC 8 2 0) (wReg {} 15) 0 [5]).mbTake 15 0 1 = some (ws, y)) ∧
    ((wServed (.mbput wC 2 3 7 true) (wReg {} 15) 0 [5]).mbSend 15 0 (List.replicate 8 0)).1 = true := by
  exact ⟨by decide, ⟨_, _, rfl⟩, by decide⟩

theorem witness_forrekTimersAndSpecials :
    (∀ i ∈ ([.raise wC 2 127, .tget wC 1 7, .mts wC 1 2, .mts wC 2 2, .mts wC 5 2] : List Instr), wRuns i {} = true ∧
      ((wCtx i {}).gr 2).toNat < 65536) ∧
    (∀ i ∈ ([.tarm wC 2 3 0, .tdis wC 2] : List Instr), ((wServe i {} 0 []).get .west).issuable wC i = true ∧
      (((wServed i {} 0 []).ctx 0).gr 2).toNat < (wServed i {} 0 []).rdAs ((wServed i {} 0 []).ctx 0).tag fkeEtRangeCount 0 ∧
      (wServed i {} 0 []).usable (wServed i {} 0 []).gen 0 0 = true) ∧
    wRuns (.cjob wC 1 2) {} = true ∧ (wDie (.cjob wC 1 2) {}).hallOn .engA = true ∧
    (∃ n y, (wDie (.cjob wC 1 2) {}).cipIssue 8 (((wDie (.cjob wC 1 2) {}).rd sysSecCfgFc).testBit 0) (some 0)
      (wordsOf ((wDie (.cjob wC 1 2) {}).dataBytes wC 0 32)) = some (n, y)) := by
  exact ⟨by decide, by decide, by decide, by decide, ⟨_, _, rfl⟩⟩

theorem witness_forrekControl :
    (∀ i ∈ ([.beq wC 1 2 0x4000, .bne wC 1 2 0x7FFF, .blt wC 1 2 1, .bge wC 1 2 1, .bltu wC 1 2 1, .bgeu wC 1 2 1, .bfs wC 8 1, .bfc wC 8 1,
      .jmp wC 0x7FFF, .jal wC 0, .jr wC 2, .ret wC, .endInv wC, .yield wC, .waitPost wC, .waitTime wC 2, .trap wC 255] : List Instr),
      wRuns i {} = true) ∧
    wRuns (.rel wC) { lock := some 3 } = true ∧ (wCtx (.rel wC) { lock := some 3 }).lock ≠ none ∧
    (let d := (wIssue (.ret wC) {}).west
     let e : DieState := { d with eng := { d.eng with code := [] } }
     e.mayIssue 0 = true ∧ e.aboveTop 0 = false ∧ forrekDecode wC (e.fetchCode 0) = none ∧ e.overLimit 0 = false) := by decide

theorem witness_idle : State.reset.pending = [] := rfl

theorem witness_decodeOfEncode :
    ∃ w, forrekWord (.gputn wC 10 3 2 2) = some w ∧ (Instr.gputn wC 10 3 2 2).wf = true ∧
      ∀ c ra rb rc, Instr.gputn wC 10 3 2 2 ≠ .gputn c ra rb rc 0 := by
  refine ⟨_, rfl, by decide, ?_⟩
  intro c ra rb rc h
  injection h with _ _ _ _ h
  exact absurd h (by decide)

theorem witness_newelSound : State.reset.newel.sound ∧ ∃ t, step State.reset = .next t :=
  ⟨⟨by decide, by decide, by decide, fun _ n h => by cases h⟩, _, rfl⟩

theorem witness_selectCopies :
    reqCopy (.core 0 true) = reqCopy (.core 0 false) ∧ Tab.sorted 0 (State.reset.get wCore.die).regs = true ∧
    (State.reset.get wCore.die).regStatus wCore.req (winCls .can) 0 0 true = .okay ∧ reqCopy (.core 1 true) ≠ reqCopy wCore.req ∧
    (WinBlock.lin ≠ WinBlock.can) := by
  exact ⟨by decide, by decide +kernel, by decide, by decide, by decide⟩

/-- West with mailbox 15 in use between core 0 and itself, words waiting in both directions. -/
def wBox (l : List Word) : State := wHost { mbx := [(30, l), (31, l)] } [(mbxCfgAEn, 1, 15, 0)]

theorem witness_mailboxSend :
    let d := (wBox [5]).get wCore.die
    Tab.sorted 0 d.host.mbx = true ∧ d.regStatus wCore.req 13 15 0x110 true = .okay ∧ d.mbEnd 15 (reqId wCore.req) = some 0 ∧
    (d.mbWords 15 0).length < 8 := by decide

theorem witness_mailboxRead :
    let d := (wBox [5, 6]).get wCore.die
    Tab.sorted 0 d.host.mbx = true ∧ d.regStatus wCore.req 13 15 0x114 false = .okay ∧ d.mbEnd 15 (reqId wCore.req) = some 0 ∧
    d.mbWords 15 (1 - 0) = [5, 6] := by decide

/-- A put of one value into the last slot. -/
def wLast : GalReq := { wPut with handle := 65535 }

theorem witness_stampRefused :
    let d := (wGal { pipe := [wLast], slots := [(65535, { stamp := 9, status := 1 })] }).get .west
    d.galOpen = true ∧ d.gal.pipe = [wLast] ∧ wLast.op = .put [1] 2 1 ∧
    (wLast.handles.find? fun h => !(d.galSlot h).passes 2) = some 65535 := by decide

theorem witness_stampApplied :
    let d := (wGal { pipe := [wLast], slots := [(65535, { stamp := 0xFFFFFFFF, status := 1 })] }).get .west
    Tab.sorted 0 d.gal.slots = true ∧ d.galOpen = true ∧ d.gal.pipe = [wLast] ∧ wLast.op = .put [1] 2 1 ∧
    (∀ h ∈ wLast.handles, (d.galSlot h).passes 2 = true) ∧ ([1] : List Word)[0]? = some 1 := by decide

theorem witness_stampKept :
    let r : GalReq := { wLast with op := .add 1 5 }
    let d := (wGal { pipe := [r], slots := [(65535, { stamp := 9, status := 1 })] }).get .west
    Tab.sorted 0 d.gal.slots = true ∧ d.galOpen = true ∧ d.gal.pipe = [r] ∧ (r.op = .add 1 5 ∨ r.op = .cas 1 0 5) := by decide

theorem witness_stampsNeverGoBack :
    Tab.sorted 0 ((wGal { pipe := [wLast] }).get .west).gal.slots = true ∧
    ∃ t, exec (.galleryWriteApply .west) (wGal { pipe := [wLast] }) = .next t := ⟨by decide, _, rfl⟩

theorem witness_resets : ∃ t, exec (.rstinAssert .west) State.reset = .next t := ⟨_, rfl⟩

theorem witness_sizeError :
    regionOf 0x40000002 = .regs ∧ regBlk 0x40000002 ≤ 20 ∧ (2 ≠ 4 ∨ 0x40000002 % 4 ≠ 0) := by decide

theorem witness_refusedRegister :
    let a : Acc := { die := .west, req := .core 0 false }
    let q : BusReq := { write := true, addr := 0x40000054, size := 4, data := [] }
    let d := State.reset.get a.die
    let blk := regBlk q.addr
    let off := regOff q.addr
    let ch := d.selected a.req blk
    regionOf q.addr = .regs ∧ blk ≤ 20 ∧ q.addr % 4 = 0 ∧ q.size = 4 ∧ q.write = true ∧ selAt blk off = none ∧
    State.reset.ownCommand a blk ch off (BitVec.ofNat 32 (reqValue q)) = none ∧ d.regStatus a.req blk ch off true ≠ .okay ∧
    secureOnly blk ch off = true ∧ d.secure a.req = false ∧ a.req ≠ .debug := by decide

theorem witness_refusedSram :
    let a : Acc := { die := .west, req := .core 0 false }
    let q : BusReq := { write := true, addr := 0x10000000, size := 4, data := [] }
    let d := State.reset.get a.die
    regionOf q.addr = .sram ∧ d.debugShut a.req = false ∧ d.hallUp .host = true ∧ sizeOk q = true ∧
    d.sramOpen (d.secure a.req) q.addr = false := by decide

theorem witness_refusedRemote :
    regionOf 0x1000000000 = .remote ∧ (∀ o b, wCore.req ≠ .remote o b) ∧ (State.reset.get wCore.die).debugShut wCore.req = false ∧
    (State.reset.get wCore.die).linkUp = false := ⟨by decide, nofun, by decide, by decide⟩

theorem witness_asleep :
    let d := (wSet pwrHallStatReady 0).get wCore.die
    d.secure wCore.req = true ∧ d.hallUp (hallOfReg 2 0 0x100) = false := by decide

theorem witness_shadow : 0x80000 ≤ regOff 0x40080000 := by decide

theorem witness_fieldFrame :
    let q : BusReq := { write := true, addr := 0x40000054, size := 4, data := leBytes 4 1 }
    let d := State.reset.get wCore.die
    let blk := regBlk q.addr
    let off := regOff q.addr
    let ch := d.selected wCore.req blk
    regionOf q.addr = .regs ∧ blk ≤ 18 ∧ q.addr % 4 = 0 ∧ q.size = 4 ∧ q.write = true ∧ selAt blk off = none ∧
    State.reset.ownCommand wCore blk ch off (BitVec.ofNat 32 (reqValue q)) = none ∧ d.mbShut wCore.req blk ch off = false ∧
    d.regStatus wCore.req blk ch off true = .okay ∧ d.commitOpen = true ∧
    (∀ e ∈ fieldsAt blk off, galStat.key 0 0 0 ≠ e.1.key (regChan blk ch (reqCopy wCore.req) off) e.2.1 e.2.2) ∧
    Tab.sorted 0 d.regs = true ∧ ∃ t, exec (.registerWrite wCore q) State.reset = .next t := by
  exact ⟨by decide, by decide, by decide, by decide, by decide, by decide, by decide, by decide, by decide, by decide, by decide,
    by decide +kernel, _, rfl⟩

theorem witness_storeFrame :
    let i := Instr.stw wC 1 2 0xFFFC
    let s := wIssue i (wReg {} 0x3400)
    let d := s.get .west
    Memory.wf d.eng.data = true ∧ d.issuable wC i = true ∧ dataAddr ((d.ctx (ctxNum wC)).gr 2) 0xFFFC 4 = some 0x33FC ∧
    ∃ t, exec i s = .next t := ⟨by decide, by decide, by decide, _, rfl⟩

theorem witness_computeFrame :
    let i := Instr.add wC 1 2 3
    (wIssue i {}).west.issuable wC i = true ∧ ∃ t, exec i (wIssue i {}) = .next t := ⟨by decide, _, rfl⟩

theorem witness_localCommands : ∃ t, exec (.semClaim wCore 63) State.reset = .next t := ⟨_, rfl⟩

theorem witness_jobAccepted :
    let d := State.reset.get .west
    let c := reqCopy wCore.req
    let x := (d.complete wCore.req (regAddr 11 0x60) .okay).writeFields 11 (regChan 11 0 c 0x60) 0x60 (commitWord 0 31)
    d.regStatus wCore.req 11 0 0x60 true = .okay ∧
    ∃ n y, x.cipIssue (reqId wCore.req) (x.secure wCore.req) none ((List.range 8).map fun k => BitVec.ofNat 32 (x.rd cipHjob c k)) = some (n, y) :=
  ⟨by decide, _, _, rfl⟩

theorem witness_AccessCommandsComplete :
  (let a : Acc := wCore
   let q : BusReq := { write := true, addr := 0x40000054, size := 4, data := leBytes 4 1 }
   let s : State := State.reset
   let d := s.get a.die
   let blk := regBlk q.addr
   let off := regOff q.addr
   let ch := d.selected a.req blk
   let v := BitVec.ofNat 32 (reqValue q)
   regionOf q.addr = .regs ∧ blk ≤ 20 ∧ q.addr % 4 = 0 ∧ q.size = 4 ∧ q.write = true ∧ selAt blk off = none ∧ s.ownCommand a blk ch off v = none ∧ d.mbShut a.req blk ch off = false ∧ d.regStatus a.req blk ch off true = .okay) ∧
  (let a : Acc := wCore
   let addr : Nat := 0x200124
   let s : State := State.reset
   let d := s.get a.die
   let blk := regBlk (0x40000000 + addr)
   let off := regOff (0x40000000 + addr)
   let ch := d.selected a.req blk
   addr < 0x1500000 ∧ addr % 4 = 0 ∧ off < 0x80000 ∧ s.ownRead a blk ch off = none ∧ d.mbShut a.req blk ch off = false ∧ d.regStatus a.req blk ch off false = .okay) ∧
  (let a : Acc := wCore
   let b : WinBlock := .can
   let v : Word := 31
   let s : State := State.reset
   let d := s.get a.die
   d.regStatus a.req (winCls b) 0 0 true = .okay ∧ v.toNat % 256 < winCount b) ∧
  (let a : Acc := wCore
   let q : BusReq := { write := true, addr := 0x1010000000, size := 4, data := [] }
   let s : State := wLink {}
   let d := s.get a.die
   regionOf q.addr = .remote ∧ (∀ o b, a.req ≠ .remote o b) ∧ d.debugShut a.req = false ∧ d.linkUp = true ∧ sizeOk q = true ∧ q.write = true) ∧
  (let a : Acc := wCore
   let q : BusReq := { write := false, addr := 0x1010000000, size := 4, data := [] }
   let s : State := wLink {}
   let d := s.get a.die
   regionOf q.addr = .remote ∧ (∀ o b, a.req ≠ .remote o b) ∧ d.debugShut a.req = false ∧ d.linkUp = true ∧ sizeOk q = true ∧ q.write = false ∧ d.npOut < 64) ∧
  (let q : BusReq := { write := false, addr := 0x50000000, size := 4, data := [] }
   regionOf q.addr = .none) ∧
  (let a : Acc := wCore
   let q : BusReq := { write := false, addr := 0x10000000, size := 4, data := [] }
   let s : State := wSet pwrHallStatReady 0
   (s.get a.die).targetAsleep a.req q.addr = true) ∧
  (let a : Acc := wCore
   let p : PendAcc := wPend false
   let s : State := wWest fun d => { d with now := 1000000000, bus := { d.bus with waiting := [wPend false] } }
   let d := s.get a.die
   d.oldestAcc a.req false = some p ∧ p.since + 1000 * d.rd sysBusTmo ≤ d.now) ∧
  (let a : Acc := wCore
   let p : PendAcc := wPend true
   let s : State := wWest fun d => { d with now := 1000000000, bus := { d.bus with waiting := [wPend true] } }
   let d := s.get a.die
   d.oldestAcc a.req true = some p) := by
  refine ⟨?_, ?_, ?_, ?_, ?_, ?_, ?_, ?_, ?_⟩
  · decide
  · decide
  · decide
  · exact ⟨by decide, nofun, by decide, by decide, by decide, by decide⟩
  · exact ⟨by decide, nofun, by decide, by decide, by decide, by decide, by decide⟩
  · decide
  · decide
  · decide
  · decide

theorem witness_SemaphoreCommandsComplete :
  (let a : Acc := wCore
   let n : Fin 64 := 63
   let s : State := State.reset
   let d := s.get a.die
   d.regStatus a.req 0 0 (0x100 + 4 * n) false = .okay ∧ d.sem n = 0) ∧
  (let a : Acc := wCore
   let n : Fin 64 := 63
   let s : State := wSet sysSemPeekValue 1 0 63
   let d := s.get a.die
   d.regStatus a.req 0 0 (0x100 + 4 * n) false = .okay ∧ d.sem n ≠ 0) ∧
  (let a : Acc := wCore
   let n : Fin 64 := 63
   let v : Word := 0
   let s : State := wSet sysSemPeekValue 1 0 63
   let d := s.get a.die
   d.regStatus a.req 0 0 (0x100 + 4 * n) true = .okay ∧ v = 0 ∧ d.sem n = reqId a.req + 1 ∧ d.rd sysSemPeekOrigin 0 n = reqOrigin a.req) ∧
  (let a : Acc := wCore
   let n : Fin 64 := 63
   let v : Word := 0
   let s : State := State.reset
   let d := s.get a.die
   d.regStatus a.req 0 0 (0x100 + 4 * n) true = .okay ∧ ¬ (v = 0 ∧ d.sem n = reqId a.req + 1 ∧ d.rd sysSemPeekOrigin 0 n = reqOrigin a.req)) ∧
  (let a : Acc := wCore
   let n : Fin 64 := 63
   let s : State := wSet sysSemPeekValue 1 0 63
   let d := s.get a.die
   let x := (d.complete a.req (regAddr 0 0xFC) .okay).writeFields 0 0 0xFC (BitVec.ofNat 32 n)
   d.regStatus a.req 0 0 0xFC true = .okay ∧ x.sem n ≠ 0) := by
  refine ⟨?_, ?_, ?_, ?_, ?_⟩ <;> decide

theorem witness_CommitCommandsComplete :
  (let a : Acc := wCore
   let v : Word := 0
   let s : State := State.reset
   let d := s.get a.die
   let x := (d.complete a.req (regAddr 0 0x40) .okay).writeFields 0 0 0x40 (commitWord v 31)
   d.regStatus a.req 0 0 0x40 true = .okay ∧ v.getLsbD 30 = false ∧ v.getLsbD 29 = false ∧ x.commitOpen = true) ∧
  (let a : Acc := wCore
   let v : Word := 0
   let s : State := wSet sysCommitStatState 2
   let d := s.get a.die
   let x := (d.complete a.req (regAddr 0 0x40) .okay).writeFields 0 0 0x40 (commitWord v 30)
   d.regStatus a.req 0 0 0x40 true = .okay ∧ v.getLsbD 31 = false ∧ v.getLsbD 29 = false ∧ x.commitState = 2) ∧
  (let a : Acc := wCore
   let v : Word := 0
   let s : State := State.reset
   let d := s.get a.die
   let x := (d.complete a.req (regAddr 0 0x40) .okay).writeFields 0 0 0x40 (commitWord v 29)
   d.regStatus a.req 0 0 0x40 true = .okay ∧ v.getLsbD 31 = false ∧ v.getLsbD 30 = false ∧ x.commitOpen = true) ∧
  (let i : Die := .west
   let s : State := wCommit 1 3 false false
   let d := s.get i
   let r := 2
   let x := 0
   d.commitState = 1 ∧ d.cm.passed = false ∧ d.validate = some (r, x)) ∧
  (let i : Die := .west
   let s : State := wCommit 1 0 true false
   let d := s.get i
   d.commitState = 1 ∧ d.cm.passed = false ∧ d.validate = none ∧ d.cm.dry = true) ∧
  (let i : Die := .west
   let s : State := (wCommit 1 1 false false).on .west fun d => { d with tim := { d.tim with next := [(0, 0)] } }
   let d := s.get i
   d.commitState = 1 ∧ d.cm.passed = false ∧ d.validate = none ∧ d.cm.dry = false ∧ d.cm.mode = 1) ∧
  (let i : Die := .west
   let s : State := wCommit 1 0 false false
   let d := s.get i
   d.commitState = 1 ∧ d.cm.passed = false ∧ d.validate = none ∧ d.cm.dry = false ∧ d.cm.mode ≠ 1) ∧
  (let i : Die := .west
   let s : State := wCommit 1 0 false true
   let d := s.get i
   d.commitState = 1 ∧ d.cm.passed = true ∧ d.cm.mode ≠ 2) ∧
  (let i : Die := .west
   let u : BoundaryUnit := .can 31
   let s : State := wWest fun d => ({ d with cm := { d.cm with units := [unitNum (.can 31)] } }).wr sysCommitStatState 3
   let d := s.get i
   d.commitState = 3 ∧ d.cm.units.contains (unitNum u) = true ∧ d.unitIdle (unitNum u) = true) ∧
  (let i : Die := .west
   let s : State := wCommit 3 0 false false
   let d := s.get i
   d.commitState = 3 ∧ d.cm.units = [] ∧ d.oldLeft = false) ∧
  (let i : Die := .west
   let s : State := wCommit 3 0 false false
   let d := s.get i
   d.commitState = 3 ∧ d.cm.drainAt + 1000 * d.rd sysCommitDrain ≤ d.now) ∧
  (let i : Die := .west
   let r : EvRec := { code := 1 }
   let rest : List VMsg := []
   let s : State := wLink (wLand 0 (.event { code := 1 }))
   (s.get i).stw.landing.get (0 : Fin 4) = .event r :: rest) := by
  refine ⟨?_, ?_, ?_, ?_, ?_, ?_, ?_, ?_, ?_, ?_, ?_, ?_⟩ <;> decide

theorem witness_EngineCommandsComplete :
  (let i : Die := .west
   let cl : Fin 4 := 3
   let e : EngEvent := wEvent
   let lock : Option Nat := none
   let g : Nat := 0
   let n : Nat := 96
   let s : State := wWest fun d => (d.onCluster 3 fun c => { c with evq := [wEvent] })
   let d := s.get i
   d.hallOn (hallOfCluster cl) = true ∧ (d.cluster cl).fenced = false ∧ d.pickEvent cl (d.cluster cl).evq [] = some (e, lock) ∧ (arbiter 8 (d.cluster cl).ptr fun e => (d.freeContext (8 * cl + e)).isSome) = some g ∧ d.freeContext (8 * cl + g) = some n) ∧
  (let c : Ctx := wC
   let s : State := wCtx0 { state := .ready } fun d => { d with now := 1000000000 }
   let d := s.get c.die
   let x := d.ctx (ctxNum c)
   x.state ≠ .free ∧ x.state ≠ .ending ∧ x.since + 1000 * d.rdAs x.tag fkeReside (ctxCluster (ctxNum c)) ≤ d.now) ∧
  (let c : Ctx := wC
   let s : State := wCtx0 { state := .ending }
   let d := s.get c.die
   (d.ctx (ctxNum c)).state = .ending ∧ d.emitsOpen (ctxNum c) false = false) ∧
  (let c : Ctx := wC
   let s : State := wCtx0 { state := .ready, relReq := true }
   let d := s.get c.die
   (d.ctx (ctxNum c)).state ≠ .ending ∧ (d.ctx (ctxNum c)).relReq = true ∧ d.emitsOpen (ctxNum c) true = false) ∧
  (let c : Ctx := wC
   let s : State := wCtx0 { state := .waitPost }
   let d := s.get c.die
   let x := d.ctx (ctxNum c)
   x.state = .waitPost ∧ d.emitsOpen (ctxNum c) false = false ∧ d.putsOpen (ctxNum c) = false) ∧
  (let c : Ctx := wC
   let t : Word := 0
   let s : State := wCtx0 { state := .waitTime 0 }
   let d := s.get c.die
   let x := d.ctx (ctxNum c)
   x.state = .waitTime t ∧ 0 ≤ stampDiff (d.stamp (d.rdAs x.tag fkeEtRangeTb (ctxCluster (ctxNum c)))) t.toNat) ∧
  (let i : Die := .west
   let t : Fin 256 := 255
   let x : ETimer := { deadline := 0, entry := 1, cluster := 0 }
   let s : State := wWest fun d => { d with eng := { d.eng with timers := [(255, { deadline := 0, entry := 1, cluster := 0 })] } }
   let d := s.get i
   Tab.get? d.eng.timers t = some x ∧ 0 ≤ stampDiff (d.stamp (d.rd fkeEtRangeTb x.cluster)) x.deadline.toNat) ∧
  (let a : Acc := wCore
   let cl : Fin 4 := 0
   let s : State := State.reset
   let d := s.get a.die
   d.debugShut a.req = false ∧ d.hallOn (hallOfCluster cl) = true) ∧
  (let a : Acc := wCore
   let s : State := State.reset
   let d := s.get a.die
   d.regStatus a.req 7 0 8 true = .okay) := by
  refine ⟨?_, ?_, ?_, ?_, ?_, ?_, ?_, ?_, ?_⟩ <;> decide

theorem witness_GalleryCommandsComplete :
  (let i : Die := .west
   let s : State := State.reset
   (s.get i).hallOn .engA = true) ∧
  (let a : Acc := wCore
   let h : BitVec 16 := 65535
   let s : State := wGal {}
   let d := s.get a.die
   d.debugShut a.req = false ∧ d.secure a.req = true ∧ d.galShut = none ∧ d.commitOpen = true ∧ ((d.gal.bind.length < 4096 ∨ (d.gal.bind.any fun e => decide (e.1 = h.toNat)) = true))) ∧
  (let i : Die := .west
   let p : Nat := 0
   let r : GalReq := wPut
   let s : State := wGal { req := [wPut] }
   let d := s.get i
   d.galOpen = true ∧ d.gal.pipe.length < 32 ∧ (arbiter 8 d.gal.ptr fun p => d.gal.req.any fun r => decide (r.pos = p)) = some p ∧ (d.gal.req.find? fun r => decide (r.pos = p)) = some r) ∧
  (let i : Die := .west
   let r : GalReq := wPut
   let rest : List GalReq := []
   let vals : List Word := [1]
   let stamp : Word := 2
   let status : Nat := 1
   let s : State := wGal { pipe := [wPut] }
   let d := s.get i
   let x : DieState := { d with gal := { d.gal with pipe := rest } }
   d.galOpen = true ∧ d.gal.pipe = r :: rest ∧ r.op = .put vals stamp status ∧ (r.handles.find? fun h => !(x.galSlot h).passes stamp) = none) ∧
  (let i : Die := .west
   let r : GalReq := { wPut with op := .add 1 5 }
   let rest : List GalReq := []
   let rd : Nat := 1
   let a : Word := 5
   let s : State := wGal { pipe := [{ wPut with op := .add 1 5 }] }
   let d := s.get i
   d.galOpen = true ∧ d.gal.pipe = r :: rest ∧ r.op = .add rd a) ∧
  (let a : Acc := wCore
   let s : State := wGal {}
   let d := s.get a.die
   d.debugShut a.req = false ∧ d.galShut = none) ∧
  (let a : Acc := wCore
   let v : Word := 0x8000FFFF
   let s : State := wGal {}
   let d := s.get a.die
   let c := reqCopy a.req
   let x := (d.complete a.req (regAddr 8 0x200) .okay).writeFields 8 (regChan 8 0 c 0x200) 0x200 v
   let n := x.rd galHgCtlCount c + 1
   d.regStatus a.req 8 0 0x200 true = .okay ∧ v.msb = true ∧ x.galOpen = true ∧ x.bit galHgStatBusy c = false ∧ x.rd galHgCtlBase c + n ≤ 65536) ∧
  (let i : Die := .west
   let h : BitVec 16 := 65535
   let t : Nat := 0
   let s : State := wGal { deadline := [(65535, 0)] }
   let d := s.get i
   Tab.get? d.gal.deadline h.toNat = some t ∧ d.galOpen = true ∧ t ≤ d.now ∧ d.firstDue h.toNat t = true) := by
  refine ⟨?_, ?_, ?_, ?_, ?_, ?_, ?_, ?_⟩ <;> decide

theorem witness_RouteCommandsComplete :
  (let i : Die := .west
   let s : State := State.reset
   let d := s.get i
   d.hallOn .bus = true ∧ d.fences.contains 73 = false ∧ d.rte.fifo.length < 256) ∧
  (let i : Die := .west
   let f : RFrame := wRoute
   let rest : List RFrame := []
   let s : State := wWest fun d => { d with rte := { d.rte with fifo := [wRoute] } }
   let d := s.get i
   let y : DieState := { d with rte := { d.rte with fifo := rest } }
   let x := if f.frame.ide then y.ueReads 6 (y.badEntries 6) else y
   d.rte.fifo = f :: rest ∧ d.hallOn .bus = true ∧ f.handle = none ∧ y.handleOf f.tag f.ch f.frame = none ∧ x.bitAs f.tag brgWinBMissq 0 f.ch = false) ∧
  (let i : Die := .west
   let f : RFrame := { wRoute with handle := some 65535 }
   let rest : List RFrame := []
   let h : Nat := 65535
   let k : Nat := 15
   let s : State := wSets [(prtQtAState, 2, 0, 15), (prtQtAHandle, 65535, 0, 15), (prtQcfgBHold, 1, 0, 0)] (fun d => { d with rte := { d.rte with fifo := [{ wRoute with handle := some 65535 }] } })
   let d := s.get i
   let x : DieState := { d with rte := { d.rte with fifo := rest } }
   d.rte.fifo = f :: rest ∧ d.hallOn .bus = true ∧ f.handle = some h ∧ x.quarantined f.ch h = some k) ∧
  (let i : Die := .west
   let f : RFrame := wRoute
   let rest : List RFrame := []
   let h : Nat := 5
   let s : State := wSets [(brgWinBCount, 16, 0, 0)] (fun d => (({ d with rte := { d.rte with fifo := [wRoute] } } : DieState)).setEntry 5 5 [0xC0000000, 2, 0, 0])
   let d := s.get i
   let z : DieState := { d with rte := { d.rte with fifo := rest } }
   let y := if f.frame.ide then z.ueReads 6 (z.badEntries 6) else z
   let x := y.ueRead 5 h
   let r := routeOf (x.entryAs f.tag 5 h)
   let cans := (List.range 32).filter fun c => r.candest.testBit c && decide (c ≠ f.ch)
   let lins := (List.range 8).filter fun l => r.lindest.testBit l && decide (32 + l ≠ f.ch)
   let pay := shownOf f.frame
   d.rte.fifo = f :: rest ∧ d.hallOn .bus = true ∧ f.handle = none ∧ z.handleOf f.tag f.ch f.frame = some h ∧ y.quarantined f.ch h = none ∧ x.routeUsable f.tag (x.entryAs f.tag 5 h) = true ∧ r.sec = 0 ∧ r.bucket = none ∧ r.gcap = false ∧ r.sizeOk f.frame cans lins pay.length (fun c => x.linLen f.tag c (if r.keep then f.frame.id.toNat % 64 else r.newid % 64)) = true) ∧
  (let i : Die := .west
   let n : Fin 4096 := 4095
   let s : State := wSets [(brgBkAInterval, 1, 0, 4095)] (fun d => { d with now := 1000 })
   let d := s.get i
   let t := Tab.get 0 d.rte.bucket n
   let k := (d.now / 1000 - t / 1000) / d.rd brgBkAInterval 0 n
   d.hallOn .bus = true ∧ k ≠ 0) ∧
  (let i : Die := .west
   let t : Fin 256 := 255
   let m : TkMsg := wTalk
   let rest : List TkMsg := []
   let s : State := wWest fun d => { d with now := 1000000000, rte := { d.rte with talkers := [(255, { msgs := [wTalk] })] } }
   let d := s.get i
   let x := d.talker t
   let y := ((d.setTalker t {}).cnt brgTkG 0 t).cnt brgTkH 0 t
   d.hallOn .bus = true ∧ x.msgs = m :: rest ∧ x.first + 1000 * d.rdAs x.tag brgTkB 0 t ≤ d.now ∧ (¬ (d.pairMode = 1 ∧ (d.role = 2 ∨ d.role = 4))) ∧ y.hallOn .swc = true) ∧
  (let i : Die := .west
   let port : Fin 29 := 0
   let f : Ieee1722 := w1722
   let s : State := State.reset
   let x := ((s.get i).newOrigin port 0).2
   (s.get i).hallOn .bus = true ∧ ((f.subtype = 0x82 ∨ f.subtype = 0x05)) ∧ x.streamEntry f.streamId = none) ∧
  (let i : Die := .west
   let port : Fin 29 := 0
   let f : Ieee1722 := w1722
   let k : Nat := 3
   let s : State := wSet brgSmCValid 1 0 3
   let o := (s.get i).newOrigin port 0
   let x := o.2
   (s.get i).hallOn .bus = true ∧ ((f.subtype = 0x82 ∨ f.subtype = 0x05)) ∧ x.streamEntry f.streamId = some k ∧ f.tooLong = false ∧ f.msgs.any acfBad = false) ∧
  (let i : Die := .west
   let pdu : SignalPdu := { wPdu with version := 2 }
   let s : State := State.reset
   (s.get i).hallOn .bus = true ∧ ((pduBad pdu = true ∨ (s.get i).pduEntry pdu.port.toNat = none))) ∧
  (let i : Die := .west
   let pdu : SignalPdu := wPdu
   let k : Nat := 15
   let s : State := wSet brgSpiAValid 1 0 15
   let d := s.get i
   d.hallOn .bus = true ∧ pduBad pdu = false ∧ d.pduEntry pdu.port.toNat = some k) ∧
  (let i : Die := .west
   let k : Fin 16 := 15
   let s : State := wSets [(prtQtAState, 1, 0, 15)] (fun d => { d with now := 10000000000000 })
   let d := s.get i
   d.qtState k = 1 ∧ (d.qtSlot k).start + 1000000 * d.rd prtQcfgBWin ≤ d.now) ∧
  (let i : Die := .west
   let k : Fin 16 := 15
   let s : State := wSets [(prtQtAState, 2, 0, 15)] (fun d => { d with now := 10000000000000 })
   let d := s.get i
   d.qtState k = 2 ∧ (d.qtSlot k).start + 1000000 * d.rd prtQcfgBHold ≤ d.now) ∧
  (let a : Acc := wCore
   let k : Fin 16 := 15
   let v : Word := 0x80000000
   let s : State := wSets [(prtQtAState, 2, 0, 15)]
   let d := s.get a.die
   let x := (d.complete a.req (regAddr 19 (0x40 + 8 * k)) .okay).writeFields 19 (regChan 19 0 (reqCopy a.req) (0x40 + 8 * k)) (0x40 + 8 * k) v
   d.regStatus a.req 19 0 (0x40 + 8 * k) true = .okay ∧ v.msb = true ∧ x.qtState k ≠ 0) := by
  refine ⟨?_, ?_, ?_, ?_, ?_, ?_, ?_, ?_, ?_, ?_, ?_, ?_, ?_⟩ <;> decide

theorem witness_CanTrafficCommandsComplete :
  (let i : Die := .west
   let ch : Fin 32 := 0
   let f : BusFrame := wBus
   let stamp : Word := 0
   let s : State := wCan {} [(canFltCEn, 1, 0, 127)]
   let d := s.get i
   let x := d.cnt canCntRxOk ch
   let y := (if x.bit canCtrlListen ch then x
     else x.wr canStatRec (if 127 < x.rd canStatRec ch then 127 else x.rd canStatRec ch - 1) ch).canFault ch
   let o := y.newOrigin (0x40 + ch) 0
   let z := o.2.claimCapture ch f stamp.toNat
   let k := 127
   d.canLive ch = true ∧ d.canInject ch f = false ∧ d.canState ch ≠ 2 ∧ d.canAllows d.gen ch f.fmt = true ∧ z.fltFind ch f = some k) ∧
  (let i : Die := .west
   let ch : Fin 32 := 0
   let f : BusFrame := wBus
   let stamp : Word := 0
   let s : State := wCan {}
   let d := s.get i
   let x := d.cnt canCntRxOk ch
   let y := (if x.bit canCtrlListen ch then x
     else x.wr canStatRec (if 127 < x.rd canStatRec ch then 127 else x.rd canStatRec ch - 1) ch).canFault ch
   let o := y.newOrigin (0x40 + ch) 0
   let z := o.2.claimCapture ch f stamp.toNat
   d.canLive ch = true ∧ d.canInject ch f = false ∧ d.canState ch ≠ 2 ∧ d.canAllows d.gen ch f.fmt = true ∧ z.fltFind ch f = none) ∧
  (let i : Die := .west
   let ch : Fin 32 := 0
   let s : State := wCan {}
   let d := s.get i
   d.canLive ch = true ∧ d.canState ch ≠ 2 ∧ d.bit canCtrlListen ch = false) ∧
  (let i : Die := .west
   let ch : Fin 32 := 0
   let ws : List Word := [0, 0xC, 0, 0, 0]
   let s : State := wCan {} [(canQcfgHtxEn, 1, 0, 0), (qbkWp, 5, 0, 0)] fun d => { d with host := { d.host with qram := [(1, 0xC)] } }
   let d := s.get i
   let n := d.rd canQcfgHtx ch
   let img := bytesOf (ws.take 4) ++ bytesOf (ws.drop 5)
   let fmt := fmtOf (byteAt img 4).toNat
   d.canLive ch = true ∧ d.bit canQcfgHtxEn ch = true ∧ d.hallOn .host = true ∧ (d.canCh ch).sleepReq = false ∧ d.htxRecord n = some ws ∧ d.htxBad ch (imageDlen img) fmt = true) ∧
  (let i : Die := .west
   let ch : Fin 32 := 0
   let ws : List Word := [0, 0, 0, 0, 0]
   let s : State := wCan {} [(canQcfgHtxEn, 1, 0, 0), (qbkWp, 5, 0, 0)]
   let d := s.get i
   let n := d.rd canQcfgHtx ch
   let img := bytesOf (ws.take 4) ++ bytesOf (ws.drop 5)
   let fmt := fmtOf (byteAt img 4).toNat
   let f0 := frameOfImage img (fmt.getD .cc) (imageDlen img)
   let f := if f0.fmt = .fd then { f0 with data := padFd f0.data } else f0
   d.canLive ch = true ∧ d.bit canQcfgHtxEn ch = true ∧ d.hallOn .host = true ∧ (d.canCh ch).sleepReq = false ∧ d.htxRecord n = some ws ∧ d.htxBad ch (imageDlen img) fmt = false ∧ d.canRoom ch f = true) ∧
  (let i : Die := .west
   let ch : Fin 32 := 0
   let e : TxEntry := { wTx with wire := false }
   let s : State := wCan { q := [{ wTx with wire := false }] }
   let d := s.get i
   d.canLive ch = true ∧ d.bit canCtrlListen ch = false ∧ d.canState ch = 0 ∧ (d.canCh ch).onWire = none ∧ (d.canCh ch).sleepReq = false ∧ d.sharedCan ch = false ∧ d.canOffer ch = some e ∧ e.role = 0) ∧
  (let i : Die := .west
   let ch : Fin 32 := 0
   let e : TxEntry := wTx
   let s : State := wCan { q := [wTx] }
   let d := s.get i
   d.canLive ch = true ∧ d.canCut ch = false ∧ (d.canCh ch).onWire = some e) ∧
  (let i : Die := .west
   let ch : Fin 32 := 0
   let err : CanError := .crc
   let fld : CanField := .crc
   let e : TxEntry := { wTx with tries := 16 }
   let s : State := wCan { q := [{ wTx with tries := 16 }] }
   let d := s.get i
   let x := (d.canErrCount ch err).tecErr ch err
   d.canLive ch = true ∧ d.canMeets ch = false ∧ (d.canCh ch).onWire = some e ∧ ((err ≠ .bit ∨ fld = .arbitration)) ∧ x.retrySpent ch e = true) ∧
  (let i : Die := .west
   let ch : Fin 32 := 0
   let err : CanError := .crc
   let fld : CanField := .crc
   let e : TxEntry := wTx
   let s : State := wCan { q := [wTx] }
   let d := s.get i
   let x := (d.canErrCount ch err).tecErr ch err
   d.canLive ch = true ∧ d.canMeets ch = false ∧ (d.canCh ch).onWire = some e ∧ ((err ≠ .bit ∨ fld = .arbitration)) ∧ x.retrySpent ch e = false ∧ x.residenceOut ch e = false) ∧
  (let i : Die := .west
   let ch : Fin 32 := 0
   let e : TxEntry := { wTx with wire := false, tries := 1, firstSof := some 0 }
   let s : State := wCan { q := [{ wTx with wire := false, tries := 1, firstSof := some 0 }] } [(canRetryTime, 1, 0, 0)] fun d => { d with now := 10000 }
   let d := s.get i
   ((d.canCh ch).q.find? fun e => !e.wire && decide (0 < e.tries) && d.retryTimeOut ch e) = some e) ∧
  (let i : Die := .west
   let ch : Fin 32 := 0
   let e : TxEntry := { wTx with wire := false }
   let s : State := wCan { q := [{ wTx with wire := false }] } [(canTxtmo, 1, 0, 0)] fun d => { d with now := 10000 }
   let d := s.get i
   ((d.canCh ch).q.find? fun e => !e.wire && d.residenceOut ch e) = some e ∧ e.tries = 0) := by
  refine ⟨?_, ?_, ?_, ?_, ?_, ?_, ?_, ?_, ?_, ?_, ?_⟩ <;> decide

theorem witness_CanControlCommandsComplete :
  (let a : Acc := wCore
   let ch : Fin 32 := 0
   let k : Fin 32 := 31
   let v : Word := 0x10
   let s : State := wSets [(canCmbCtrlPend, 1, 0, 31), (canCmbCtrlDir, 1, 0, 31)]
   let d := s.get a.die
   let off := 0x1000 + 0x80 * k.val
   let x := (d.complete a.req (regAddr 2 off) .okay).writeFields 2 (regChan 2 ch (reqCopy a.req) off) off v
   d.regStatus a.req 2 ch off true = .okay ∧ v.getLsbD 4 = true ∧ x.hallOn .bus = true ∧ x.bit canCmbCtrlDir ch k = true ∧ x.bit canCmbCtrlPend ch k = true) ∧
  (let a : Acc := wCore
   let ch : Fin 32 := 0
   let k : Fin 32 := 31
   let v : Word := 0x10
   let fmt : BusFmt := .cc
   let s : State := wCan {} [(canCmbCtrlDir, 1, 0, 31)]
   let d := s.get a.die
   let off := 0x1000 + 0x80 * k.val
   let x := (d.complete a.req (regAddr 2 off) .okay).writeFields 2 (regChan 2 ch (reqCopy a.req) off) off v
   let img := x.cmbImage ch k
   d.regStatus a.req 2 ch off true = .okay ∧ v.getLsbD 4 = true ∧ x.hallOn .bus = true ∧ x.bit canCmbCtrlDir ch k = true ∧ x.bit canCmbCtrlPend ch k = false ∧ fmtOf (byteAt img 4).toNat = some fmt ∧ fmt ≠ .lin) ∧
  (let i : Die := .west
   let ch : Fin 32 := 0
   let s : State := wCan { boffAt := 0 } [(canStatState, 2, 0, 0)]
   let d := s.get i
   d.canState ch = 2 ∧ d.bit canCtrlAutorec ch = true ∧ (d.canCh ch).recovering = false ∧ (d.canCh ch).boffAt + 1000000 * d.rd canBoffHold ch ≤ d.now) ∧
  (let a : Acc := wCore
   let ch : Fin 32 := 0
   let v : Word := 0x80000000
   let s : State := wCan { boffAt := 0 } [(canStatState, 2, 0, 0)]
   let d := s.get a.die
   let x := (d.complete a.req (regAddr 2 0x124) .okay).writeFields 2 (regChan 2 ch (reqCopy a.req) 0x124) 0x124 v
   d.regStatus a.req 2 ch 0x124 true = .okay ∧ v.msb = true ∧ x.canState ch = 2) ∧
  (let i : Die := .west
   let ch : Fin 32 := 0
   let s : State := wCan { recovering := true } [(canStatState, 2, 0, 0)]
   let d := s.get i
   d.canState ch = 2 ∧ (d.canCh ch).recovering = true) ∧
  (let a : Acc := wCore
   let ch : Fin 32 := 0
   let v : Word := 1
   let s : State := wCan {}
   let d := s.get a.die
   let x := (d.complete a.req (regAddr 2 0x130) .okay).writeFields 2 (regChan 2 ch (reqCopy a.req) 0x130) 0x130 v
   d.regStatus a.req 2 ch 0x130 true = .okay ∧ v.getLsbD 0 = true ∧ x.canState ch ≠ 3) ∧
  (let i : Die := .west
   let ch : Fin 32 := 0
   let s : State := wCan { sleepReq := true }
   let d := s.get i
   (d.canCh ch).sleepReq = true ∧ (d.canCh ch).onWire = none) ∧
  (let i : Die := .west
   let ch : Fin 32 := 31
   let s : State := wSets [(canStatState, 3, 31, 0), (canSleepWake, 1, 31, 0)]
   let d := s.get i
   d.canState ch = 3 ∧ d.rd canSleepWake ch = 1) ∧
  (let i : Die := .west
   let ch : Fin 32 := 31
   let s : State := wSets [(canStatState, 3, 31, 0), (canSleepWake, 2, 31, 0), (canWfDataLo, 0x100, 31, 0)]
   let d := s.get i
   let id := (0 : BitVec 29)
   let ide := false
   let dlc := 8
   let data := [0, 1, 0, 0, 0, 0, 0, 0]
   d.canState ch = 3 ∧ d.rd canSleepWake ch = 2 ∧ d.wakeMatches ch id.toNat ide dlc data = true) ∧
  (let i : Die := .west
   let ch : Fin 32 := 0
   let s : State := wCan {} [(canTmAEn, 1, 0, 0)]
   let d := s.get i
   let ms := d.position (d.rd canTmBTb ch) / 1000000
   d.canLive ch = true ∧ d.bit canTmAEn ch = true ∧ ms % d.rd canTmBPeriod ch = 0 ∧ (d.canCh ch).lastSync ≠ ms + 1) := by
  refine ⟨?_, ?_, ?_, ?_, ?_, ?_, ?_, ?_, ?_, ?_⟩ <;> decide

theorem witness_LinCommandsComplete :
  (let a : Acc := wCore
   let ch : Fin 8 := 7
   let v : Word := 0x8000003F
   let s : State := wLin {} [(linSlotEn, 1, 7, 63)]
   let d := s.get a.die
   let x := (d.complete a.req (regAddr 3 0x104) .okay).writeFields 3 (regChan 3 ch (reqCopy a.req) 0x104) 0x104 v
   let n := v.toNat % 64
   d.regStatus a.req 3 ch 0x104 true = .okay ∧ v.msb = true ∧ x.linLive ch = true ∧ x.linMaster ch = true ∧ x.bit linSlotEn ch n = true ∧ (x.linCh ch).cur = none) ∧
  (let a : Acc := wCore
   let ch : Fin 8 := 7
   let v : Word := 0x8000003F
   let s : State := wLin { cur := some wCur } [(linSlotEn, 1, 7, 63)]
   let d := s.get a.die
   let x := (d.complete a.req (regAddr 3 0x104) .okay).writeFields 3 (regChan 3 ch (reqCopy a.req) 0x104) 0x104 v
   let n := v.toNat % 64
   d.regStatus a.req 3 ch 0x104 true = .okay ∧ v.msb = true ∧ x.linLive ch = true ∧ x.linMaster ch = true ∧ x.bit linSlotEn ch n = true ∧ (x.linCh ch).cur.isSome = true) ∧
  (let i : Die := .west
   let ch : Fin 8 := 7
   let id : BitVec 6 := 63
   let s : State := wLin {} [(linCtrlRole, 1, 7, 0), (linIdcfgDir, 2, 7, 63)]
   let d := s.get i
   d.linLive ch = true ∧ d.linMaster ch = false ∧ (d.linCh ch).cur = none ∧ d.rd linIdcfgDir ch id.toNat = 2) ∧
  (let i : Die := .west
   let ch : Fin 8 := 7
   let s : State := wLin {} [(linCtrlRole, 1, 7, 0)]
   let d := s.get i
   d.linLive ch = true ∧ d.linMaster ch = false ∧ (d.linCh ch).cur = none) ∧
  (let i : Die := .west
   let ch : Fin 8 := 7
   let data : List Byte := [1, 2, 3, 4, 5, 6, 7, 8]
   let c : LinCur := wCur
   let s : State := wLin { cur := some wCur } [(linIdcfgDir, 2, 7, 63)]
   let d := s.get i
   let n := d.linLen c.tag ch c.id
   d.linLive ch = true ∧ (d.linCh ch).cur = some c ∧ c.pub = false ∧ d.rdAs c.tag linIdcfgDir ch c.id = 2 ∧ n ≤ data.length) ∧
  (let i : Die := .west
   let ch : Fin 8 := 7
   let c : LinCur := wCur
   let s : State := wLin { cur := some wCur } [(linIdcfgDir, 2, 7, 63)]
   let d := s.get i
   d.linLive ch = true ∧ (d.linCh ch).cur = some c ∧ c.pub = false ∧ d.rdAs c.tag linIdcfgDir ch c.id = 2) ∧
  (let i : Die := .west
   let ch : Fin 8 := 7
   let c : LinCur := wCur
   let s : State := wLin { cur := some wCur } [(linIdcfgDir, 2, 7, 63)]
   let d := s.get i
   d.linLive ch = true ∧ (d.linCh ch).cur = some c ∧ c.pub = false ∧ d.rdAs c.tag linIdcfgDir ch c.id = 2) ∧
  (let a : Acc := wCore
   let ch : Fin 8 := 0
   let i : BitVec 6 := 0
   let s : State := State.reset
   let d := s.get a.die
   let off := 0x408 + 16 * i.toNat
   d.regStatus a.req 3 ch off true = .okay) ∧
  (let a : Acc := wCore
   let ch : Fin 8 := 0
   let i : BitVec 6 := 0
   let s : State := State.reset
   let d := s.get a.die
   let off := 0x408 + 16 * i.toNat
   d.regStatus a.req 3 ch off true = .okay) ∧
  (let a : Acc := wCore
   let ch : Fin 8 := 7
   let s : State := wLin {}
   let d := s.get a.die
   let v := d.linSleepWord ch 0
   let x := (d.complete a.req (regAddr 3 0x108) .okay).writeFields 3 (regChan 3 ch (reqCopy a.req) 0x108) 0x108 v
   d.regStatus a.req 3 ch 0x108 true = .okay ∧ x.linLive ch = true ∧ x.linMaster ch = true) ∧
  (let a : Acc := wCore
   let ch : Fin 8 := 7
   let s : State := wLin {}
   let d := s.get a.die
   let v := d.linSleepWord ch 1
   let x := (d.complete a.req (regAddr 3 0x108) .okay).writeFields 3 (regChan 3 ch (reqCopy a.req) 0x108) 0x108 v
   d.regStatus a.req 3 ch 0x108 true = .okay ∧ x.linUp ch = true) ∧
  (let i : Die := .west
   let ch : Fin 8 := 7
   let s : State := wLin {} [(linStatState, 2, 7, 0)]
   let d := s.get i
   d.bit linCtrlEn ch = true ∧ d.rd linStatState ch = 2 ∧ (d.linCh ch).wakeAt = none) ∧
  (let i : Die := .west
   let ch : Fin 8 := 7
   let t : Nat := 5
   let s : State := wLin { wakeAt := some 5 } [] fun d => { d with now := 5 }
   let d := s.get i
   (d.linCh ch).wakeAt = some t ∧ t ≤ d.now) ∧
  (let i : Die := .west
   let ch : Fin 8 := 7
   let s : State := wLin {} [(linCtrlRole, 1, 7, 0), (linSleepIdle, 1, 7, 0)] fun d => { d with now := 4000000000 }
   let d := s.get i
   d.linLive ch = true ∧ d.linMaster ch = false ∧ d.bit linSleepIdle ch = true ∧ (d.linCh ch).cur = none ∧ (d.linCh ch).active + 4000000000 ≤ d.now) ∧
  (let i : Die := .west
   let ch : Fin 8 := 7
   let c : LinCur := { wCur with pub := true, data := [1] }
   let s : State := wLin { cur := some { wCur with pub := true, data := [1] } }
   let d := s.get i
   d.linLive ch = true ∧ (d.linCh ch).cur = some c ∧ c.pub = true ∧ c.data ≠ []) := by
  refine ⟨?_, ?_, ?_, ?_, ?_, ?_, ?_, ?_, ?_, ?_, ?_, ?_, ?_, ?_, ?_⟩ <;> decide

theorem witness_EthernetPortCommandsComplete :
  (let i : Die := .west
   let p : Fin 29 := 1
   let f : EthFrame := { bytes := List.replicate 60 0, fcsOk := true, cut := false }
   let s : State := wPort 1 {} [(ethLinkUp, 1, 1, 0)]
   let d := s.get i
   p.val ≤ 25 ∧ d.hallOn .swc = true ∧ d.portUp p = true ∧ d.bit ethLinkAsleep p = false ∧ d.fences.contains (fenceOf 4 p) = false ∧ d.pairMode = 0 ∧ d.rd prtPortCFcsN 0 p = 0 ∧ d.sw.descUsed < 65536 ∧ 60 ≤ f.bytes.length ∧ f.bytes.length + 4 ≤ d.rd ethMaxlen p ∧ f.fcsOk = true ∧ f.cut = false) ∧
  (let i : Die := .west
   let p : Fin 29 := 28
   let t : TxCur := { desc := some 7 }
   let n : Nat := 7
   let f : SFrame := wSw
   let s : State := wPort 28 { tx := some { desc := some 7 } } [] fun d => { d with sw := { d.sw with frames := [(7, wSw)] } }
   let d := s.get i
   let x := (d.creditUpdate p).onPort p fun x =>
     { x with tx := none, idleSince := d.now, txBytes := x.txBytes + t.bytes.length + 24 }
   (d.portOf p).tx = some t ∧ d.hallOn .swc = true ∧ t.desc = some n ∧ x.frameOf n = some f) ∧
  (let i : Die := .west
   let p : Fin 26 := 25
   let s : State := wPort 25 { pauseEnd := 5 } [] fun d => { d with now := 5 }
   let d := s.get i
   d.hallOn .swc = true ∧ (d.portOf p).pauseEnd ≠ 0 ∧ (d.portOf p).pauseEnd ≤ d.now) ∧
  (let i : Die := .west
   let p : Fin 26 := 25
   let s : State := wPort 25 {} [] fun d => { d with now := 10000000 }
   let d := s.get i
   d.hallOn .swc = true ∧ (d.portOf p).winStart + 10000000 ≤ d.now) ∧
  (let i : Die := .west
   let p : Fin 26 := 25
   let s : State := wPort 25 {} [(ethPauseATxen, 1, 25, 0), (ethPauseDXoff, 1, 25, 0), (ethPauseBLow, 0, 25, 0)] fun d => { d with now := 1000000 }
   let d := s.get i
   d.hallOn .swc = true ∧ d.bit ethPauseATxen p = true ∧ d.bit ethPauseDXoff p = true ∧ d.rd ethPauseBLow p < d.rd ethPauseBHigh p ∧ d.rd ethPauseBLow p ≤ d.ingressCells p ∧ (d.portOf p).xoffAt + 1000 * d.rd ethPauseCRefresh p ≤ d.now) ∧
  (let i : Die := .west
   let p : Fin 29 := 25
   let rate : Fin 8 := 7
   let s : State := wPort 25 {} [(ethModeKind, 6, 25, 0)]
   let d := s.get i
   p.val ≤ 25 ∧ d.hallOn .swc = true ∧ d.hallOn (portHall p) = true ∧ d.bit ethLinkUp p = false ∧ d.rateFits p rate = true) ∧
  (let i : Die := .west
   let p : Fin 29 := 25
   let s : State := wPort 25 {} [(ethLinkUp, 1, 25, 0)]
   let d := s.get i
   p.val ≤ 25 ∧ d.hallOn .swc = true ∧ d.bit ethLinkUp p = true) ∧
  (let i : Die := .west
   let p : Fin 26 := 25
   let s : State := wPort 25 {} [(ethLpiEn, 1, 25, 0), (ethLinkUp, 1, 25, 0), (ethModeKind, 4, 25, 0)] fun d => { d with now := 100000 }
   let d := s.get i
   let x := d.portOf p
   d.hallOn .swc = true ∧ d.bit ethLpiEn p = true ∧ d.bit ethLinkUp p = true ∧ d.bit ethLinkLpi p = false ∧ 1 ≤ d.rd ethModeKind p ∧ d.rd ethModeKind p ≤ 4 ∧ d.gateOn p = false ∧ d.releaseArmed p = false ∧ d.queuesEmpty p = true ∧ x.tx = none ∧ x.held = none ∧ x.ctl = [] ∧ x.idleSince + 1000 * d.rd ethLpiIdle p ≤ d.now) ∧
  (let i : Die := .west
   let p : Fin 26 := 25
   let s : State := wPort 25 {} [(ethModeKind, 6, 25, 0), (ethPlcaAEn, 1, 25, 0)]
   let d := s.get i
   let ts := d.now :: (Tab.get [] d.guard.beacons p).filter fun t => decide (d.now < t + 50000000)
   d.plcaOn p = true ∧ d.rd ethPlcaAId p = 0 ∧ (d.portOf p).yield = none ∧ ts.length < 4) ∧
  (let i : Die := .west
   let p : Fin 26 := 25
   let t : Nat := 0
   let s : State := wPort 25 { yield := some 0 } [(ethModeKind, 6, 25, 0), (ethPlcaAEn, 1, 25, 0)]
   let d := s.get i
   (d.portOf p).yield = some t ∧ d.plcaOn p = true ∧ t ≤ d.now) ∧
  (let i : Die := .west
   let p : Fin 26 := 25
   let s : State := wPort 25 {} [(ethModeKind, 6, 25, 0), (ethPlcaAEn, 1, 25, 0)]
   let d := s.get i
   d.plcaOn p = true ∧ (d.portOf p).yield = none) ∧
  (let a : Acc := wCore
   let p : Fin 26 := 25
   let v : Word := 1
   let s : State := wPort 25 {} [(ethModeKind, 5, 25, 0), (ethLinkUp, 1, 25, 0)]
   let d := s.get a.die
   let x := (d.complete a.req (regAddr 4 0x3D0) .okay).writeFields 4 (regChan 4 p (reqCopy a.req) 0x3D0) 0x3D0 v
   d.regStatus a.req 4 p 0x3D0 true = .okay ∧ v.getLsbD 0 = true ∧ v.getLsbD 1 = false ∧ x.tc10Port p = true ∧ x.bit ethLinkUp p = true) ∧
  (let i : Die := .west
   let p : Fin 26 := 25
   let s : State := wPort 25 {} [(ethModeKind, 5, 25, 0), (ethLinkUp, 1, 25, 0)]
   let d := s.get i
   d.hallOn .phy = true ∧ d.hallOn .swc = true ∧ d.tc10Port p = true ∧ d.bit ethLinkUp p = true ∧ d.bit ethTc10Accept p = true ∧ d.egressIdle p = true) ∧
  (let i : Die := .west
   let p : Fin 26 := 25
   let s : State := wPort 25 { sleepWish := true } [(ethModeKind, 5, 25, 0), (ethLinkUp, 1, 25, 0)]
   let d := s.get i
   d.hallOn .phy = true ∧ d.hallOn .swc = true ∧ d.tc10Port p = true ∧ d.bit ethLinkUp p = true ∧ (d.portOf p).sleepWish = true ∧ d.egressIdle p = true) ∧
  (let i : Die := .west
   let p : Fin 26 := 25
   let s : State := wPort 25 { asleep := true }
   let d := s.get i
   (d.portOf p).asleep = true ∧ d.bit ethTc10WakeEn p = true) ∧
  (let a : Acc := wCore
   let p : Fin 26 := 25
   let v : Word := 2
   let s : State := wPort 25 {} [(ethModeKind, 5, 25, 0)]
   let d := s.get a.die
   let x := (d.complete a.req (regAddr 4 0x3D0) .okay).writeFields 4 (regChan 4 p (reqCopy a.req) 0x3D0) 0x3D0 v
   d.regStatus a.req 4 p 0x3D0 true = .okay ∧ v.getLsbD 0 = false ∧ v.getLsbD 1 = true ∧ x.tc10Port p = true) := by
  refine ⟨?_, ?_, ?_, ?_, ?_, ?_, ?_, ?_, ?_, ?_, ?_, ?_, ?_, ?_, ?_, ?_⟩ <;> decide

theorem witness_RateSteppingCommandsComplete :
  (let i : Die := .west
   let p : Fin 2 := 1
   let s : State := wPort 1 {} [(ethModeKind, 1, 1, 0), (ethLinkUp, 1, 1, 0), (ethStepAEn, 1, 1, 0)]
   let d := s.get i
   d.hallOn .swc = true ∧ d.stepPort p = true ∧ d.bit ethStepAEn p = true) ∧
  (let i : Die := .west
   let p : Fin 2 := 1
   let s : State := wPort 1 {} [(ethModeKind, 1, 1, 0), (ethLinkUp, 1, 1, 0), (ethStepCRate, 0, 1, 0)]
   let d := s.get i
   d.hallOn .swc = true ∧ d.stepPort p = true ∧ d.bit ethStepCRate p = false ∧ d.stepBarred p = false ∧ ((d.rd ethStepB p ≤ d.portQueued p ∨ d.bit ethStepAEn p = false))) ∧
  (let i : Die := .west
   let p : Fin 2 := 1
   let f : StepFrame := wStep
   let s : State := wPort 1 {} [(ethModeKind, 1, 1, 0), (ethLinkUp, 1, 1, 0)]
   let d := s.get i
   d.hallOn .swc = true ∧ d.stepPort p = true ∧ f.target.toNat = 0x19 ∧ d.rd ethStepCState p ≠ 1) ∧
  (let i : Die := .west
   let p : Fin 2 := 1
   let f : StepFrame := wStep
   let s : State := wPort 1 { token := 5 } [(ethModeKind, 1, 1, 0), (ethLinkUp, 1, 1, 0), (ethStepCState, 1, 1, 0)]
   let d := s.get i
   let x := d.portOf p
   d.hallOn .swc = true ∧ d.stepPort p = true ∧ stepTarget f.target.toNat = true ∧ d.rd ethStepCState p = 1 ∧ x.token = f.token.toNat) ∧
  (let i : Die := .west
   let p : Fin 2 := 1
   let f : StepFrame := wStep
   let s : State := wPort 1 { token := 5 } [(ethModeKind, 1, 1, 0), (ethLinkUp, 1, 1, 0), (ethStepCState, 1, 1, 0)]
   let d := s.get i
   d.hallOn .swc = true ∧ d.stepPort p = true ∧ stepTarget f.target.toNat = true ∧ d.rd ethStepCState p = 1 ∧ (d.portOf p).token = f.token.toNat) ∧
  (let i : Die := .west
   let p : Fin 2 := 1
   let t : Nat := 5
   let s : State := wPort 1 { switchAt := some 5 } [(ethStepCState, 2, 1, 0)] fun d => { d with now := 5 }
   let d := s.get i
   let x := d.portOf p
   x.switchAt = some t ∧ d.hallOn .swc = true ∧ d.rd ethStepCState p = 2 ∧ t ≤ d.now) ∧
  (let i : Die := .west
   let p : Fin 2 := 1
   let s : State := wPort 1 {} [(ethStepCState, 2, 1, 0)]
   let d := s.get i
   let x := d.portOf p
   d.hallOn .swc = true ∧ d.rd ethStepCState p = 2 ∧ x.switchAt = none ∧ x.reverted = false) ∧
  (let i : Die := .west
   let p : Fin 2 := 1
   let s : State := wPort 1 {} [(ethStepCState, 1, 1, 0)] fun d => { d with now := 1000000 }
   let d := s.get i
   let x := d.portOf p
   d.hallOn .swc = true ∧ d.rd ethStepCState p = 1 ∧ x.reqAt + 1000000 ≤ d.now) ∧
  (let i : Die := .west
   let p : Fin 2 := 1
   let s : State := wPort 1 {} [(ethStepCState, 2, 1, 0)] fun d => { d with now := 1000000 }
   let d := s.get i
   let x := d.portOf p
   d.hallOn .swc = true ∧ d.rd ethStepCState p = 2 ∧ x.switchAt = none ∧ x.reqAt + 1000000 ≤ d.now) ∧
  (let i : Die := .west
   let p : Fin 2 := 1
   let s : State := wPort 1 {} [(ethStepCState, 3, 1, 0)]
   let d := s.get i
   d.hallOn .swc = true ∧ d.rd ethStepCState p = 3 ∧ (d.portOf p).holdoff ≤ d.now) := by
  refine ⟨?_, ?_, ?_, ?_, ?_, ?_, ?_, ?_, ?_, ?_⟩ <;> decide

theorem witness_SwitchCommandsComplete :
  (let i : Die := .west
   let p : Fin 29 := 28
   let n : Nat := 7
   let rest : List Nat := []
   let s : State := wPort 28 { rx := [7] }
   let d := s.get i
   let x := d.onPort p fun x => { x with rx := rest }
   (d.portOf p).rx = n :: rest ∧ d.hallOn .swc = true ∧ x.sw.fifo.length < 512) ∧
  (let i : Die := .west
   let n : Nat := 7
   let rest : List Nat := []
   let f : SFrame := wSw
   let l : Lookup := ((((wLookup [0x80000001]).get .west).lookup wSw).1).getD { frame := wSw }
   let s : State := wLookup [0x80000001]
   let d := s.get i
   let x : DieState := { d with sw := { d.sw with fifo := rest } }
   d.hallOn .swc = true ∧ d.fences.contains 70 = false ∧ d.sw.fifo = n :: rest ∧ x.frameOf n = some f ∧ (x.lookup f).1 = some l) ∧
  (let i : Die := .west
   let n : Nat := 7
   let rest : List Nat := []
   let f : SFrame := wSw
   let s : State := wLookup []
   let d := s.get i
   let x : DieState := { d with sw := { d.sw with fifo := rest } }
   d.hallOn .swc = true ∧ d.fences.contains 70 = false ∧ d.sw.fifo = n :: rest ∧ x.frameOf n = some f ∧ (x.lookup f).1 = none) ∧
  (let i : Die := .west
   let t : Nat := 3
   let c : QCopy := { desc := 7, at_ := 0 }
   let rest : List QCopy := []
   let f : SFrame := wSw
   let s : State := wSwitch { frames := [(7, wSw)], outq := [(8 * 27 + 3, [{ desc := 7, at_ := 0 }])] } [(swcP27MapEn, 1, 0, 0)]
   let d := s.get i
   let x := d.setQueue 27 t rest
   d.hallOn .swc = true ∧ d.topClass 27 = some t ∧ d.outQueue 27 t = c :: rest ∧ x.frameOf c.desc = some f ∧ x.bitAs f.tag swcP27MapEn 0 f.esel = true) ∧
  (let i : Die := .west
   let p : Fin 26 := 25
   let m : Nat := 0
   let s : State := wSets [(swcGcAEn, 1, 0, 25), (swcGclAOp, 1, 0, 50)]
   let d := s.get i
   let x := d.gateUpdate p
   let op := x.rd swcGclAOp 0 (2 * p + x.gateBank p) (x.gateNow p).1
   d.hallOn .swc = true ∧ d.gateOn p = true ∧ x.gatePos p = some m ∧ op = 1) ∧
  (let i : Die := .west
   let p : Fin 26 := 25
   let m : Nat := 0
   let s : State := wSets [(swcGcAEn, 1, 0, 25), (swcGclAOp, 2, 0, 50)]
   let d := s.get i
   let x := d.gateUpdate p
   let op := x.rd swcGclAOp 0 (2 * p + x.gateBank p) (x.gateNow p).1
   d.hallOn .swc = true ∧ d.gateOn p = true ∧ x.gatePos p = some m ∧ op = 2) ∧
  (let i : Die := .west
   let p : Fin 26 := 25
   let m : Nat := 0
   let s : State := wSets [(swcGcAEn, 1, 0, 25)]
   let d := s.get i
   let x := d.gateUpdate p
   let op := x.rd swcGclAOp 0 (2 * p + x.gateBank p) (x.gateNow p).1
   d.hallOn .swc = true ∧ d.gateOn p = true ∧ x.gatePos p = some m ∧ op ≠ 1 ∧ op ≠ 2) ∧
  (let i : Die := .west
   let p : Fin 14 := 13
   let u : Nat := 40
   let n : Nat := 40
   let s : State := (wSets [(swcGcAEn, 1, 0, 13), (swcPrePen, 1, 0, 13), (swcPreVdis, 1, 0, 13), (swcGcB, 40, 0, 13), (swcGcbALen, 2, 0, 13), (swcGcbB, 100, 0, 13)] fun d => ((d.wr swcGclB 40 0 26 0).wr swcGclB 40 0 26 1).wr swcGclAOp 1 0 26 1)
   let d := s.get i
   d.hallOn .swc = true ∧ d.gateOn p = true ∧ d.preemptActive p = true ∧ (d.gateAhead p fun k => d.rd swcGclAOp 0 (2 * p + d.gateBank p) k = 1) = some u ∧ d.unitsNs (d.rd swcGcATb 0 p) u = some n ∧ n ≤ d.rd swcGcB 0 p) ∧
  (let i : Die := .west
   let p : Fin 14 := 13
   let s : State := wSets [(swcPreStatVstate, 1, 0, 13)] fun d => { d with now := 1000000000 }
   let d := s.get i
   let x := d.portOf p
   d.hallOn .swc = true ∧ d.rd swcPreStatVstate 0 p = 1 ∧ x.verifyAt + 1000000 * d.rd swcPreVtime 0 p ≤ d.now) ∧
  (let i : Die := .west
   let p : Fin 14 := 13
   let s : State := wSets [(swcPreStatVstate, 1, 0, 13)]
   let d := s.get i
   d.hallOn .swc = true ∧ d.rd swcPreStatVstate 0 p = 1) ∧
  (let a : Acc := wCore
   let w : Fin 128 := 0
   let s : State := State.reset
   let d := s.get a.die
   let off := 0xC000 + 4 * w.val
   d.regStatus a.req 5 0 off true = .okay) ∧
  (let a : Acc := wCore
   let m : Fin 2048 := 0
   let s : State := State.reset
   let d := s.get a.die
   let off := 0x2000C + 16 * m.val
   d.regStatus a.req 5 0 off true = .okay) ∧
  (let i : Die := .west
   let n : Fin 1024 := 1023
   let s : State := wSwitch { srf := [(1023, { first := false })] } [(swcSrfAEn, 1, 0, 1023)] fun d => { d with now := 1000000000000 }
   let d := s.get i
   let x := Tab.get {} d.sw.srf n
   d.hallOn .swc = true ∧ d.bit swcSrfAEn 0 n = true ∧ x.first = false ∧ x.seen + 1000000 * d.rd swcSrfB 0 n ≤ d.now) ∧
  (let i : Die := .west
   let p : Fin 29 := 25
   let t : Nat := 3
   let s : State := wSwitch { frames := [(7, wSw)], outq := [(8 * 25 + 3, [{ desc := 7, at_ := 0 }])] } [(ethLinkUp, 1, 25, 0)]
   let d := s.get i
   let x := (List.range 8).foldl (fun d t => d.deferHead p t) (d.gateUpdate p)
   d.hallOn .swc = true ∧ p.val ≠ 26 ∧ p.val ≠ 27 ∧ x.bit ethLinkUp p = true ∧ x.bit ethLinkAsleep p = false ∧ x.rd ethStepCState p ≠ 2 ∧ (x.portOf p).tx = none ∧ (x.portOf p).ctl = [] ∧ x.portShut p = false ∧ x.preemptActive p = false ∧ x.pickClass p (fun _ => true) = some t) := by
  refine ⟨?_, ?_, ?_, ?_, ?_, ?_, ?_, ?_, ?_, ?_, ?_, ?_, ?_, ?_⟩
  · decide
  · refine ⟨by decide, by decide, by decide, by decide +kernel⟩
  · decide
  · decide
  · decide
  · decide
  · decide
  · decide
  · decide
  · decide
  · decide
  · decide
  · decide
  · decide

theorem witness_TimeCommandsComplete :
  (let a : Acc := wCore
   let n : Fin 8 := 7
   let s : State := State.reset
   let d := s.get a.die
   let off := 0x108 + 0x40 * n.val
   d.regStatus a.req 10 0 off true = .okay ∧ d.bit timStatFollowing = false) ∧
  (let a : Acc := wCore
   let n : Fin 8 := 7
   let v : Word := 0
   let s : State := State.reset
   let d := s.get a.die
   let off := 0x10C + 0x40 * n.val
   let x := (d.complete a.req (regAddr 10 off) .okay).writeFields 10 (regChan 10 0 (reqCopy a.req) off) off v
   d.regStatus a.req 10 0 off true = .okay ∧ d.bit timStatFollowing = false ∧ x.isAngle n = false) ∧
  (let a : Acc := wCore
   let n : Fin 8 := 7
   let v : Word := 0
   let s : State := State.reset
   let d := s.get a.die
   let off := 0x118 + 0x40 * n.val
   let w := commitWord v 31
   let x := (d.complete a.req (regAddr 10 off) .okay).writeFields 10 (regChan 10 0 (reqCopy a.req) off) off w
   d.regStatus a.req 10 0 off true = .okay ∧ d.bit timStatFollowing = false ∧ x.isAngle n = false ∧ w.msb = true) ∧
  (let a : Acc := wCore
   let n : Fin 8 := 7
   let s : State := State.reset
   let d := s.get a.die
   let off := 0x120 + 0x40 * n.val
   d.regStatus a.req 10 0 off false = .okay) ∧
  (let i : Die := .west
   let n : Fin 1024 := 1023
   let next : Nat := 0
   let s : State := wSets [(timCueAAction, 6, 0, 1023)] fun d => { d with tim := { d.tim with next := [(1023, 0)] } }
   let d := s.get i
   let p := posDiff (d.position (d.rd timCueATb 0 n)) next
   Tab.get? d.tim.cueDelay n = none ∧ Tab.get? d.tim.next n = some next ∧ 0 ≤ p ∧ d.cueCompared n = true ∧ d.commitState ≠ 2 ∧ d.rd timCueD 0 n = 0 ∧ d.rd timCueAPerhi 0 n = 0 ∧ d.rd prtCuejBJit = 0 ∧ d.bit timCueAWake 0 n = false ∧ d.stw.hoCue = none ∧ d.stw.joinCue = none ∧ d.rd timCueAAction 0 n = 6) ∧
  (let i : Die := .west
   let n : Fin 1024 := 0
   let s : State := State.reset
   ((s.get i).cueFire n).stw.hoCue = (s.get i).stw.hoCue) ∧
  (let i : Die := .west
   let k : Fin 8 := 7
   let t : Nat := 0
   let s : State := wWest fun d => { d with tim := { d.tim with pulse := [(7, 0)] } }
   let d := s.get i
   Tab.get? d.tim.pulse k = some t ∧ t ≤ d.now) ∧
  (let a : Acc := wCore
   let s : State := State.reset
   let d := s.get a.die
   d.regStatus a.req 10 0 0x0C true = .okay) ∧
  (let i : Die := .west
   let s : State := wSets [(timPpsCtlInEn, 1, 0, 0)]
   let d := s.get i
   d.bit timPpsCtlInEn = true ∧ ((∀ t, d.tim.ppsLast = some t → t + 100000 ≤ d.now))) ∧
  (let i : Die := .west
   let s : State := wSets [(timPpsCtlOutEn, 1, 0, 0)] fun d => { d with tim := { d.tim with ppsSec := -1 } }
   let d := s.get i
   d.bit timPpsCtlOutEn = true ∧ d.ppsSeconds ≠ d.tim.ppsSec) ∧
  (let i : Die := .west
   let t : Nat := 0
   let s : State := wWest fun d => { d with tim := { d.tim with ppsHigh := some 0 } }
   let d := s.get i
   d.tim.ppsHigh = some t ∧ t ≤ d.now) ∧
  (let s : State := wBoth [(stwPairMode, 1, 0, 0), (stwLinkUp, 1, 0, 0)]
   s.east.pairMode ≠ 0 ∧ s.west.pairMode ≠ 0 ∧ s.east.linkUp = true ∧ s.west.linkUp = true ∧ s.east.bit timStatFollowLost = false) ∧
  (let s : State := wBoth [(timStatFollowing, 1, 0, 0)]
   s.east.bit timStatFollowing = true ∧ ((s.east.linkUp = false ∨ s.east.stw.tsAt + 4000 ≤ s.east.now))) := by
  refine ⟨?_, ?_, ?_, ?_, ?_, ?_, ?_, ?_, ?_, ?_, ?_, ?_, ?_⟩
  · decide
  · decide
  · decide
  · decide
  · decide
  · decide
  · decide
  · decide
  · exact ⟨by decide, fun t h => by cases h⟩
  · decide
  · decide
  · decide
  · decide

theorem witness_PhaseAndPtpCommandsComplete :
  (let i : Die := .west
   let k : Fin 4 := 3
   let a : Bool := true
   let b : Bool := false
   let s : State := wSets [(timPhCfgEn, 1, 0, 3)]
   let d := s.get i
   let x := d.phase k
   d.inMode k 0 = true ∧ ¬ (x.a = a ∧ x.b = b) ∧ ((x.a = a ∨ x.b = b))) ∧
  (let i : Die := .west
   let k : Fin 4 := 3
   let s : State := wSets [(timPhCfgEn, 1, 0, 3)]
   let d := s.get i
   d.inMode k 0 = true) ∧
  (let i : Die := .west
   let k : Fin 4 := 3
   let u : Bool := true
   let v : Bool := false
   let w : Bool := false
   let n : Nat := 0
   let s : State := wSets [(timPhCfgEn, 1, 0, 3), (timPhCfgMode, 1, 0, 3)]
   let d := s.get i
   let x := d.phase k
   d.inMode k 1 = true ∧ hallState u v w = some n ∧ ¬ (x.a = u ∧ x.b = v ∧ x.z = w)) ∧
  (let i : Die := .west
   let k : Fin 4 := 3
   let s : State := wSets [(timPhCfgEn, 1, 0, 3), (timPhCfgMode, 2, 0, 3)]
   let d := s.get i
   d.inMode k 2 = true) ∧
  (let i : Die := .west
   let k : Fin 4 := 3
   let s : State := wSets [(timPhCfgEn, 1, 0, 3), (timPhStatState, 2, 0, 3)] fun d => { d with now := 1000000 }
   let d := s.get i
   d.phaseEn k = true ∧ ((d.rd timPhStatState 0 k = 1 ∨ d.rd timPhStatState 0 k = 2)) ∧ (d.phase k).lastT + 1000 * d.rd timPhBwLoss 0 k ≤ d.now) ∧
  (let i : Die := .west
   let p : Fin 26 := 25
   let bytes : List Byte := wPtp 0
   let u : Nat := 3
   let s : State := wSets [(timPtpAEn, 1, 0, 3), (timPtpASlave, 25, 0, 3)]
   let d := s.get i
   d.ptpConsumer p bytes = some u ∧ ptpType bytes = 0 ∧ d.hallOn .swc = true ∧ d.ptpSlave u p = true) ∧
  (let i : Die := .west
   let p : Fin 26 := 25
   let bytes : List Byte := wPtp 8
   let u : Nat := 3
   let s : State := wSets [(timPtpAEn, 1, 0, 3), (timPtpASlave, 25, 0, 3)]
   let d := s.get i
   d.ptpConsumer p bytes = some u ∧ ptpType bytes = 8 ∧ d.hallOn .swc = true ∧ d.ptpSlave u p = true) ∧
  (let i : Die := .west
   let u : Fin 4 := 3
   let s : State := wSets [(timPtpAEn, 1, 0, 3), (timPtpARole, 2, 0, 3)] fun d => d.onBase 0 fun b => { b with sec := 1 }
   let d := s.get i
   let n := d.position (d.rd timPtpATb 0 u) / d.ptpInterval u
   d.hallOn .swc = true ∧ d.ptpEn u = true ∧ d.rd timPtpARole 0 u = 2 ∧ (d.ptpUnit u).lastGm < n) ∧
  (let i : Die := .west
   let u : Fin 4 := 3
   let seq : Nat := 5
   let s : State := wWest fun d => d.onPtp 3 fun x => { x with gmSeq := some 5 }
   let d := s.get i
   d.hallOn .swc = true ∧ (d.ptpUnit u).gmSeq = some seq) ∧
  (let a : Acc := wCore
   let u : Fin 4 := 3
   let s : State := State.reset
   let d := s.get a.die
   let off := 0x614 + 0x40 * u.val
   d.regStatus a.req 10 0 off true = .okay) := by
  refine ⟨?_, ?_, ?_, ?_, ?_, ?_, ?_, ?_, ?_, ?_⟩ <;> decide

theorem witness_TableCommandsComplete :
  (let i : Die := .west
   let fid : Nat := 5
   let mac : List Byte := [2, 0, 0, 0, 0, 1]
   let port : Nat := 3
   let t : Nat := 0
   let rest : List LItem := []
   let slot : Nat := 8 * bucketOfKey (macLo [2, 0, 0, 0, 0, 1], macHi [2, 0, 0, 0, 0, 1] + 5 * 65536)
   let evict : Bool := false
   let s : State := wTbl { lq := [.learn 5 [2, 0, 0, 0, 0, 1] 3 0] }
   let d := s.get i
   let x := ({ d with tbl := { d.tbl with lq := rest } } : DieState).flushEnter
   let k := (macLo mac, macHi mac + fid * 65536)
   let y := x.ueReads 0 (bucketSlots (bucketOfKey k))
   d.tablesOn = true ∧ d.tbl.lq = .learn fid mac port t :: rest ∧ x.fdbFind fid mac = none ∧ y.fdbPlace (bucketOfKey k) = some (slot, evict)) ∧
  (let i : Die := .west
   let slot : Nat := 5
   let q : Nat := 3
   let t : Nat := 0
   let rest : List LItem := []
   let s : State := wTbl { lq := [.move 5 3 0] }
   let d := s.get i
   d.tablesOn = true ∧ d.tbl.lq = .move slot q t :: rest) ∧
  (let i : Die := .west
   let p : Option Nat := none
   let f : Option Nat := none
   let rest : List LItem := []
   let s : State := wTbl { lq := [.flush none none] }
   let d := s.get i
   d.tablesOn = true ∧ d.tbl.lq = .flush p f :: rest) ∧
  (let a : Acc := wCore
   let v : Word := 0x80000000
   let s : State := State.reset
   let d := s.get a.die
   let x := (d.complete a.req (regAddr 6 0x01C) .okay).writeFields 6 (regChan 6 0 (reqCopy a.req) 0x01C) 0x01C v
   d.regStatus a.req 6 0 0x01C true = .okay ∧ v.msb = true ∧ x.bit fwtFlushBusy = false) ∧
  (let a : Acc := wCore
   let v : Word := 0x80000008
   let s : State := wTbl { ent := [(8, [0, 0x90000000, 0])] }
   let d := s.get a.die
   let x := (d.complete a.req (regAddr 6 0x020) .okay).writeFields 6 (regChan 6 0 (reqCopy a.req) 0x020) 0x020 v
   let n := v.toNat % 65536
   let e := x.entry 0 n
   d.regStatus a.req 6 0 0x020 true = .okay ∧ v.msb = true ∧ fdbValid e = true ∧ fdbLocked e = true ∧ x.entryBad 0 n = false) ∧
  (let i : Die := .west
   let s : State := wSets [] fun d => d.onBase 0 fun b => { b with sec := 100000 }
   let d := s.get i
   let k := d.learnTime / (d.rd fwtAgeTick * 1000000)
   d.tablesOn = true ∧ k ≠ d.tbl.lastTick) ∧
  (let a : Acc := wCore
   let v : Word := 0x80000001
   let s : State := State.reset
   let d := s.get a.die
   let c := reqCopy a.req
   let x (op : Nat) := (d.complete a.req (regAddr 6 0x200) .okay).writeFields 6 (regChan 6 0 c 0x200) 0x200 (editWord v op)
   let e (y : DieState) : Edit := { tbl := y.rd fwtEditCtlTbl c, op := y.rd fwtEditCtlOp c, idx := y.rd fwtEditIdx c,
                                    data := (List.range 8).map fun k => BitVec.ofNat 32 (y.rd fwtEditData c k) }
   d.regStatus a.req 6 0 0x200 true = .okay ∧ v.msb = true ∧ (x 0).editCheck (e (x 0)) = 1) ∧
  (let a : Acc := wCore
   let v : Word := 0x80000001
   let s : State := State.reset
   let d := s.get a.die
   let c := reqCopy a.req
   let x (op : Nat) := (d.complete a.req (regAddr 6 0x200) .okay).writeFields 6 (regChan 6 0 c 0x200) 0x200 (editWord v op)
   let e (y : DieState) : Edit := { tbl := y.rd fwtEditCtlTbl c, op := y.rd fwtEditCtlOp c, idx := y.rd fwtEditIdx c,
                                    data := (List.range 8).map fun k => BitVec.ofNat 32 (y.rd fwtEditData c k) }
   d.regStatus a.req 6 0 0x200 true = .okay ∧ v.msb = true ∧ (x 1).editCheck (e (x 1)) = 1) ∧
  (let a : Acc := wCore
   let v : Word := 0x80000000
   let s : State := State.reset
   let d := s.get a.die
   let c := reqCopy a.req
   let x (op : Nat) := (d.complete a.req (regAddr 6 0x200) .okay).writeFields 6 (regChan 6 0 c 0x200) 0x200 (editWord v op)
   let e (y : DieState) : Edit := { tbl := y.rd fwtEditCtlTbl c, op := y.rd fwtEditCtlOp c, idx := y.rd fwtEditIdx c,
                                    data := (List.range 8).map fun k => BitVec.ofNat 32 (y.rd fwtEditData c k) }
   d.regStatus a.req 6 0 0x200 true = .okay ∧ v.msb = true ∧ (x 2).editCheck (e (x 2)) = 1) ∧
  (let a : Acc := wCore
   let v : Word := 0x80000000
   let s : State := wTbl { ent := [(8 * bucketOfKey (0, 0), [0, 0x30000000, 0])] }
   let d := s.get a.die
   let c := reqCopy a.req
   let x (op : Nat) := (d.complete a.req (regAddr 6 0x200) .okay).writeFields 6 (regChan 6 0 c 0x200) 0x200 (editWord v op)
   let e (y : DieState) : Edit := { tbl := y.rd fwtEditCtlTbl c, op := y.rd fwtEditCtlOp c, idx := y.rd fwtEditIdx c,
                                    data := (List.range 8).map fun k => BitVec.ofNat 32 (y.rd fwtEditData c k) }
   d.regStatus a.req 6 0 0x200 true = .okay ∧ v.msb = true ∧ (x 3).editCheck (e (x 3)) = 1) ∧
  (let i : Die := .west
   let s : State := wSets [(fwtProofCtlMode, 1, 0, 0)]
   let d := s.get i
   let t := nextTable (d.rd fwtProofCtlTables) 0
   d.tablesOn = true ∧ d.tbl.sweeping = false ∧ d.rd fwtProofCtlMode ≠ 0 ∧ t ≠ 8 ∧ d.tbl.swNext ≤ d.now ∧ d.tbl.repair = []) ∧
  (let i : Die := .west
   let s : State := wTbl { sweeping := true } [(fwtProofCtlMode, 1, 0, 0)]
   let d := s.get i
   let t := d.tbl.swTable
   d.tablesOn = true ∧ d.tbl.sweeping = true ∧ t < 8 ∧ d.proofPaused = false ∧ d.tbl.repair = [] ∧ d.rd fwtProofCtlMode ≠ 0) ∧
  (let i : Die := .west
   let s : State := wTbl { sweeping := true, swTable := 8 } [(fwtProofCtlMode, 1, 0, 0)]
   let d := s.get i
   d.tablesOn = true ∧ d.tbl.sweeping = true ∧ d.tbl.swTable = 8) ∧
  (let i : Die := .west
   let s : State := wTbl { ent := [(65537, [1])], repair := [65537] } [(fwtProofCtlMode, 2, 0, 0)]
   let d := s.get i
   let p := d.tbl.repair.foldl (fun (q : Nat × DieState) k =>
     let r := q.2.proofFix k
     (if r.1 then q.1 + 1 else q.1, r.2)) (0, d)
   d.tablesOn = true ∧ d.tbl.repair ≠ [] ∧ d.proofPaused = false ∧ d.rd fwtProofCtlMode = 2 ∧ p.1 ≠ 0) := by
  refine ⟨?_, ?_, ?_, ?_, ?_, ?_, ?_, ?_, ?_, ?_, ?_, ?_, ?_, ?_⟩
  · exact ⟨by decide, by decide, by decide +kernel, by decide +kernel⟩
  · decide
  · decide
  · decide
  · decide
  · decide
  · decide
  · decide
  · decide
  · exact ⟨by decide, by decide, by decide +kernel⟩
  · decide
  · decide
  · decide
  · exact ⟨by decide, by decide, by decide, by decide, by decide +kernel⟩

theorem witness_CipherCommandsComplete :
  (let a : Acc := wCore
   let v : Word := 0
   let s : State := wSec { jobs := List.replicate 256 (wJob 0) }
   let d := s.get a.die
   let c := reqCopy a.req
   let w := commitWord v 31
   let x := (d.complete a.req (regAddr 11 0x60) .okay).writeFields 11 (regChan 11 0 c 0x60) 0x60 w
   let desc := (List.range 8).map fun k => BitVec.ofNat 32 (x.rd cipHjob c k)
   d.regStatus a.req 11 0 0x60 true = .okay ∧ x.cipIssue (reqId a.req) (x.secure a.req) none desc = none) ∧
  (let i : Die := .west
   let j : CJob := wJob 7
   let l : Nat := 0
   let s : State := wSec { jobs := [wJob 7] } [(cipLaneUp, 15, 0, 0)]
   let d := s.get i
   let x := cipDesc j.desc
   let y := d.onJob j.num fun j => { j with lane := l }
   (d.sec.jobs.find? fun j => decide (j.lane = 7) && !j.ended) = some j ∧ d.hallOn .engA = true ∧ d.rd cipLaneUp ≠ 0 ∧ (List.range 4).find? d.laneFree = some l ∧ x.good = true ∧ y.jobOpen j.secure x = true ∧ x.op.usage = none) ∧
  (let i : Die := .west
   let j : CJob := wJob 7 14
   let l : Nat := 0
   let u : Usage := .mac
   let s : State := wSec { jobs := [wJob 7 14] } [(cipLaneUp, 15, 0, 0)]
   let d := s.get i
   let x := cipDesc j.desc
   let y := d.onJob j.num fun j => { j with lane := l }
   (d.sec.jobs.find? fun j => decide (j.lane = 7) && !j.ended) = some j ∧ d.hallOn .engA = true ∧ d.rd cipLaneUp ≠ 0 ∧ (List.range 4).find? d.laneFree = some l ∧ x.good = true ∧ y.jobOpen j.secure x = true ∧ x.op.usage = some u) ∧
  (let i : Die := .west
   let job : Byte := 3
   let j : CJob := wJob 3
   let s : State := wSec { jobs := [wJob 3] }
   let d := s.get i
   let x := cipDesc j.desc
   (d.sec.jobs.find? fun j => decide (j.num = job.toNat) && !j.ended && decide (j.lane < 4)) = some j ∧ d.hallOn .engA = true ∧ d.jobOpen j.secure x = true) ∧
  (let i : Die := .west
   let l : Fin 4 := 3
   let s : State := wSets [(cipLaneUp, 15, 0, 0)]
   let d := s.get i
   (d.rd cipLaneUp).testBit l = true ∧ (d.sec.jobs.find? fun j => !j.ended && decide (j.lane = l.val)) = none) ∧
  (let i : Die := .west
   let l : Fin 4 := 3
   let s : State := wSets [(cipLaneTesting, 8, 0, 0)]
   let d := s.get i
   (d.rd cipLaneTesting).testBit l = true) ∧
  (let i : Die := .west
   let p : Fin 26 := 25
   let t : Nat := 0
   let s : State := wSec { testEnd := [(25, 0)] }
   let d := s.get i
   Tab.get? d.sec.testEnd p = some t ∧ t ≤ d.now) ∧
  (let a : Acc := wCore
   let k : Byte := 255
   let s : State := State.reset
   let d := s.get a.die
   let off := 0x100C + 32 * k.toNat
   d.regStatus a.req 11 0 off true = .okay) := by
  refine ⟨?_, ?_, ?_, ?_, ?_, ?_, ?_, ?_⟩
  · exact ⟨by decide, by decide +kernel⟩
  · decide
  · decide
  · decide
  · decide
  · decide
  · decide
  · decide

theorem witness_DarkroomCommandsComplete :
  (let a : Acc := wCore
   let v : Word := 0
   let s : State := State.reset
   let d := s.get a.die
   let x (op : Nat) := (d.complete a.req (regAddr 12 4) .okay).writeFields 12 (regChan 12 0 (reqCopy a.req) 4) 4 (drkWord v op)
   d.regStatus a.req 12 0 4 true = .okay ∧ (x 1).bit drkCmdStatBusy = false ∧ (x 1).rd drkCmdOp = 1) ∧
  (let a : Acc := wCore
   let v : Word := 0
   let s : State := State.reset
   let d := s.get a.die
   let x (op : Nat) := (d.complete a.req (regAddr 12 4) .okay).writeFields 12 (regChan 12 0 (reqCopy a.req) 4) 4 (drkWord v op)
   d.regStatus a.req 12 0 4 true = .okay ∧ (x 2).bit drkCmdStatBusy = false ∧ (x 2).rd drkCmdOp = 2) ∧
  (let a : Acc := wCore
   let v : Word := 0
   let s : State := State.reset
   let d := s.get a.die
   let x (op : Nat) := (d.complete a.req (regAddr 12 4) .okay).writeFields 12 (regChan 12 0 (reqCopy a.req) 4) 4 (drkWord v op)
   d.regStatus a.req 12 0 4 true = .okay ∧ (x 3).bit drkCmdStatBusy = false ∧ (x 3).rd drkCmdOp = 3) ∧
  (let a : Acc := wCore
   let v : Word := 0
   let s : State := State.reset
   let d := s.get a.die
   let x (op : Nat) := (d.complete a.req (regAddr 12 4) .okay).writeFields 12 (regChan 12 0 (reqCopy a.req) 4) 4 (drkWord v op)
   d.regStatus a.req 12 0 4 true = .okay ∧ (x 4).bit drkCmdStatBusy = false ∧ (x 4).rd drkCmdOp = 4) ∧
  (let a : Acc := wCore
   let v : Word := 0
   let s : State := State.reset
   let d := s.get a.die
   let x (op : Nat) := (d.complete a.req (regAddr 12 4) .okay).writeFields 12 (regChan 12 0 (reqCopy a.req) 4) 4 (drkWord v op)
   d.regStatus a.req 12 0 4 true = .okay ∧ (x 5).bit drkCmdStatBusy = false ∧ (x 5).rd drkCmdOp = 5) ∧
  (let a : Acc := wCore
   let v : Word := 0
   let s : State := State.reset
   let d := s.get a.die
   let x (op : Nat) := (d.complete a.req (regAddr 12 4) .okay).writeFields 12 (regChan 12 0 (reqCopy a.req) 4) 4 (drkWord v op)
   d.regStatus a.req 12 0 4 true = .okay ∧ (x 6).bit drkCmdStatBusy = false ∧ (x 6).rd drkCmdOp = 6) ∧
  (let a : Acc := wCore
   let v : Word := 0
   let s : State := State.reset
   let d := s.get a.die
   let x (op : Nat) := (d.complete a.req (regAddr 12 4) .okay).writeFields 12 (regChan 12 0 (reqCopy a.req) 4) 4 (drkWord v op)
   d.regStatus a.req 12 0 4 true = .okay ∧ (x 7).bit drkCmdStatBusy = false ∧ (x 7).rd drkCmdOp = 7) ∧
  (let i : Die := .west
   let op : Nat := 2
   let k : Nat := 255
   let kek : Nat := 0
   let s : State := wSec { cmd := some (2, 255, 0), seeded := true }
   (s.get i).sec.cmd = some (op, k, kek) ∧ ((op = 2 → (s.get i).sec.seeded = true)) ∧ (s.get i).hallOn .drk = true) ∧
  (let i : Die := .west
   let k : Byte := 255
   let res : Nat := 5
   let t : Nat := 0
   let s : State := wSec { slots := [(255, { write := some (5, 0) })] } [(nwlLinkUp, 1, 0, 0)]
   let d := s.get i
   let x := d.slot k.toNat
   x.write = some (res, t) ∧ d.bit nwlLinkUp = true) ∧
  (let i : Die := .west
   let k : Byte := 255
   let res : Nat := 5
   let t : Nat := 0
   let s : State := wSec { slots := [(255, { write := some (5, 0) })] } [] fun d => { d with now := 10000000 }
   let d := s.get i
   (d.slot k.toNat).write = some (res, t) ∧ t + 10000000 ≤ d.now) ∧
  (let a : Acc := wCore
   let k : Fin 8 := 7
   let s : State := State.reset
   let d := s.get a.die
   let off := 0x90 + 4 * k.val
   d.regStatus a.req 12 0 off false = .okay) ∧
  (let a : Acc := wCore
   let v : Word := 0
   let bs : List Byte := [1]
   let l : Nat := 2
   let t : Nat := 0
   let s : State := wSec { chal := some ([1], 2, 0) }
   let d := s.get a.die
   let x := (d.complete a.req (regAddr 12 0x80) .okay).writeFields 12 (regChan 12 0 (reqCopy a.req) 0x80) 0x80 (commitWord v 31)
   d.regStatus a.req 12 0 0x80 true = .okay ∧ x.sec.chal = some (bs, l, t) ∧ x.now ≤ t + 60000000000) ∧
  (let a : Acc := wCore
   let s : State := State.reset
   let d := s.get a.die
   d.regStatus a.req 12 0 0x80 true = .okay) ∧
  (let i : Die := .west
   let bs : List Byte := [1]
   let l : Nat := 2
   let t : Nat := 0
   let s : State := wSec { chal := some ([1], 2, 0) } [] fun d => { d with now := 60000000000 }
   let d := s.get i
   d.sec.chal = some (bs, l, t) ∧ t + 60000000000 ≤ d.now) := by
  refine ⟨?_, ?_, ?_, ?_, ?_, ?_, ?_, ?_, ?_, ?_, ?_, ?_, ?_, ?_⟩ <;> decide

theorem witness_StairwellCommandsComplete :
  (let i : Die := .west
   let f : Flit := { vc := 0, seq := 0, crcOk := true }
   let m : VMsg := .heartbeat 0 0
   let rest : List VMsg := []
   let s : State := (wLink {}).on .east fun d => d.sendVc 0 (.heartbeat 0 0)
   let d := s.get i
   let y := s.get i.other
   d.linkUp = true ∧ y.linkUp = true ∧ y.rd prtStwAEvery = 0 ∧ f.seq.toNat = d.stw.rxSeq ∧ y.stw.replay = [] ∧ y.stw.out.get f.vc = m :: rest ∧ (d.stw.landing.get f.vc).length < 32 ∧ f.crcOk = true) ∧
  (let i : Die := .west
   let seq : BitVec 8 := 7
   let s : State := wLink { replay := [(0, .heartbeat 0 0)], txSeq := 7 }
   let d := s.get i
   d.linkUp = true ∧ d.stw.replay ≠ [] ∧ d.stw.retryNow = false ∧ seq.toNat = d.stw.txSeq) ∧
  (let i : Die := .west
   let s : State := wLink { retries := 64 }
   let d := s.get i
   d.linkUp = true ∧ 64 ≤ d.stw.retries) ∧
  (let i : Die := .west
   let t : Nat := 0
   let s : State := wLink { failAt := some 0 } [] fun d => { d with now := 1000000000 }
   let d := s.get i
   d.linkUp = true ∧ d.stw.retries < 64 ∧ d.stw.failAt = some t ∧ t + 1000 * d.rd stwRetry ≤ d.now) ∧
  (let i : Die := .west
   let s : State := wSets [(stwLinkCtlAuto, 1, 0, 0)] fun d => { d with now := 1000000 }
   let d := s.get i
   d.hallOn .stw = true ∧ d.bit stwLinkCtlAuto = true ∧ d.linkUp = false ∧ d.stw.downAt + 1000000 ≤ d.now) ∧
  (let a : Acc := wCore
   let s : State := State.reset
   let d := s.get a.die
   d.regStatus a.req 15 0 0x24 true = .okay) ∧
  (let lanes : Byte := 1
   let s : State := State.reset
   s.west.hallOn .stw = true ∧ s.east.hallOn .stw = true ∧ s.west.linkUp = false ∧ s.east.linkUp = false ∧ lanes ≠ 0) ∧
  (let i : Die := .west
   let tag : Nat := 7
   let r : Resp := { status := .okay, value := 5 }
   let rest : List VMsg := []
   let s : State := wLink (wLand 2 (.resp 7 { status := .okay, value := 5 }))
   let d := s.get i
   d.stw.landing.get (2 : Fin 4) = .resp tag r :: rest) ∧
  (let i : Die := .west
   let v : Fin 4 := 1
   let m : VMsg := .req 0 true false 0x10000000 4 [] false 0
   let s : State := wLink (wLand 1 (.req 0 true false 0x10000000 4 [] false 0))
   let d := s.get i
   d.hallOn .stw = true ∧ d.linkUp = true ∧ s.nextReq i = some (v, m)) ∧
  (let a : Acc := wCore
   let addr : Nat := 0x1010000000
   let size : Nat := 8
   let s : State := wLink {}
   s.bridgeStatus a addr size = .okay) ∧
  (let a : Acc := wCore
   let addr : Nat := 0x1010000000
   let size : Nat := 8
   let s : State := wLink {}
   s.bridgeStatus a addr size = .okay) ∧
  (let a : Acc := wCore
   let addr : Nat := 0x1010000000
   let size : Nat := 8
   let s : State := (wLink {}).on .east fun d => { d with stw := { d.stw with resv := [(0, (0, 0))] } }
   let t := (bridgeTarget a).1
   let o := (bridgeTarget a).2
   let x := s.get t
   let off := windowAddr addr - 0x10000000
   s.bridgeStatus a addr size = .okay ∧ x.scWins o off = true) ∧
  (let a : Acc := wCore
   let addr : Nat := 0x1010000000
   let size : Nat := 8
   let s : State := wLink {}
   let t := (bridgeTarget a).1
   let o := (bridgeTarget a).2
   let x := s.get t
   let off := windowAddr addr - 0x10000000
   s.bridgeStatus a addr size = .okay ∧ x.scWins o off = false) ∧
  (let i : Die := .west
   let o : Fin 32 := 31
   let l : Nat := 0
   let t : Nat := 0
   let s : State := wLink { resv := [(31, (0, 0))] } [] fun d => { d with now := 2000 }
   let d := s.get i
   Tab.get? d.stw.resv o = some (l, t) ∧ t + 2000 ≤ d.now) ∧
  (let i : Die := .west
   let s : State := wLink {} [] fun d => { d with now := 1000000000 }
   let d := s.get i
   d.linkUp = true ∧ d.stw.hbSent + 1000 * d.rd stwHbPeriod ≤ d.now) ∧
  (let i : Die := .west
   let m : Nat := 1
   let r : Nat := 2
   let rest : List VMsg := []
   let s : State := wLink (wLand 0 (.heartbeat 1 2))
   (s.get i).stw.landing.get (0 : Fin 4) = .heartbeat m r :: rest) ∧
  (let i : Die := .west
   let s : State := wLink {} [] fun d => { d with now := 1000000000 }
   let d := s.get i
   let y := ({ d with stw := { d.stw with hbSeen := d.now, hbMiss := d.stw.hbMiss + 1 } } : DieState).cnt stwCntHbMissed
   d.stw.hbSeen + 1000 * d.rd stwHbPeriod ≤ d.now ∧ d.hallOn .stw = true ∧ (d.partnerGone = true ∨ y.partnerGone = false)) ∧
  (let i : Die := .west
   let s : State := wLink { hbMiss := 2, failAt := some 0 } [] fun d => { d with now := 1000000000 }
   let d := s.get i
   let y := ({ d with stw := { d.stw with hbSeen := d.now, hbMiss := d.stw.hbMiss + 1 } } : DieState).cnt stwCntHbMissed
   d.stw.hbSeen + 1000 * d.rd stwHbPeriod ≤ d.now ∧ d.hallOn .stw = true ∧ d.partnerGone = false ∧ y.partnerGone = true ∧ y.linkUp = true ∧ y.stw.failAt.isSome = true) ∧
  (let i : Die := .west
   let s : State := wLink { hbMiss := 2 } [(stwLinkUp, 0, 0, 0)] fun d => { d with now := 1000000000 }
   let d := s.get i
   let y := ({ d with stw := { d.stw with hbSeen := d.now, hbMiss := d.stw.hbMiss + 1 } } : DieState).cnt stwCntHbMissed
   d.stw.hbSeen + 1000 * d.rd stwHbPeriod ≤ d.now ∧ d.hallOn .stw = true ∧ d.partnerGone = false ∧ y.partnerGone = true ∧ y.linkUp = false) := by
  refine ⟨?_, ?_, ?_, ?_, ?_, ?_, ?_, ?_, ?_, ?_, ?_, ?_, ?_, ?_, ?_, ?_, ?_, ?_, ?_⟩ <;> decide

theorem witness_PairModeCommandsComplete :
  (let i : Die := .west
   let f : SFrame := wSw
   let rest : List VMsg := []
   let s : State := wLink (wLand 3 (.replica true wSw))
   let d := s.get i
   d.stw.landing.get (3 : Fin 4) = .replica true f :: rest ∧ d.takesReplicas = true ∧ d.hallOn .swc = true) ∧
  (let i : Die := .west
   let f : SFrame := wSw
   let rest : List VMsg := []
   let s : State := wLink (wLand 3 (.replica false wSw))
   let d := s.get i
   d.stw.landing.get (3 : Fin 4) = .replica false f :: rest ∧ d.takesReplicas = true) ∧
  (let i : Die := .west
   let it : LItem := .flush none none
   let rest : List VMsg := []
   let s : State := wLink (wLand 3 (.learn (.flush none none)))
   let d := s.get i
   d.stw.landing.get (3 : Fin 4) = .learn it :: rest ∧ d.takesReplicas = true ∧ d.hallOn .swc = true) ∧
  (let i : Die := .west
   let it : LItem := .flush none none
   let rest : List VMsg := []
   let s : State := (wLink { out := (Vector.replicate 4 []).set (3 : Fin 4) [.learn (.flush none none)] }).on .east fun d => { d with stw := { d.stw with landing := (Vector.replicate 4 []).set (3 : Fin 4) (List.replicate 32 (.heartbeat 0 0)) } }
   let d := s.get i
   d.stw.out.get (3 : Fin 4) = .learn it :: rest ∧ 32 ≤ ((s.get i.other).stw.landing.get (3 : Fin 4)).length) ∧
  (let i : Die := .west
   let ch : Nat := 5
   let origin : Nat := 9
   let status : Nat := 0
   let e : TxEntry := { wTx with wire := false, origin := 9 }
   let rest : List VMsg := []
   let s : State := wLink (wLand 0 (.notice false 5 9 0)) [] fun d => d.onCan 5 fun c => { c with q := [{ wTx with wire := false, origin := 9 }] }
   let x := (s.get i).popLanding 0
   (s.get i).stw.landing.get (0 : Fin 4) = .notice false ch origin status :: rest ∧ ((x.canCh ch).q.find? fun e => decide (e.origin = origin)) = some e) ∧
  (let a : Acc := wCore
   let v : Word := 1023
   let s : State := wSets [(stwPairMode, 1, 0, 0)]
   let d := s.get a.die
   let x := (d.complete a.req (regAddr 15 0x10) .okay).writeFields 15 (regChan 15 0 (reqCopy a.req) 0x10) 0x10 (commitWord v 31)
   d.regStatus a.req 15 0 0x10 true = .okay ∧ x.pairMode = 1) ∧
  (let u : BoundaryUnit := .can 23
   let n : Nat := 87
   let t : Nat := 0
   let s : State := (wLink {}).on .east fun d => { d with stw := { d.stw with hoAt := some 0 } }
   let old : Die := s.newel.active.other
   sharedNum u = some n ∧ (s.get old).stw.hoAt = some t ∧ (s.get old).unitIdle n = true ∧ ((s.noticeWaits old n = false ∨ t + 5000 ≤ (s.get old).now))) ∧
  (let a : Acc := { die := .east, req := .core 0 true }
   let s : State := (wBoth [(stwPairMode, 1, 0, 0), (stwLinkUp, 1, 0, 0)]).on .west fun d => d.wr stwPairStatRole 4
   let d := s.get a.die
   d.regStatus a.req 15 0 0x14 true = .okay ∧ a.die = .east ∧ s.east.linkUp = true ∧ s.east.pairMode ≠ 0 ∧ s.west.role = 4) ∧
  (let a : Acc := wCore
   let v : Word := 5
   let s : State := wSets [(stwPairMode, 2, 0, 0)]
   let d := s.get a.die
   let x := (d.complete a.req (regAddr 15 0x14) .okay).writeFields 15 (regChan 15 0 (reqCopy a.req) 0x14) 0x14 (commitWord v 31)
   d.regStatus a.req 15 0 0x14 true = .okay ∧ x.pairMode ≠ 0) ∧
  (let i : Die := .west
   let s : State := (wLink { joining := true } [(stwPairStatRole, 4, 0, 0)]).on .east fun d => { d with stw := { d.stw with joining := true } }
   let x := s.get i
   let y := s.get i.other
   x.role = 4 ∧ y.role ≠ 4 ∧ x.stw.joining = true ∧ y.stw.joining = true ∧ x.linkUp = true) ∧
  (let i : Die := .west
   let o : Nat := 1
   let p : Nat := 2
   let t : Nat := 3
   let len : Nat := 60
   let crc : Word := 5
   let st : Nat := 0
   let rest : List VMsg := []
   let s : State := wLink (wLand 3 (.digest 1 2 3 60 5 0))
   let d := s.get i
   d.stw.landing.get (3 : Fin 4) = .digest o p t len crc st :: rest) ∧
  (let i : Die := .west
   let tag : DWord := 1
   let egress : Byte := 2
   let it : VoteItem := { origin := 1, egress := 2, tc := 0, len := 60, crc := 5, until_ := 0 }
   let s : State := wLink { stage := [{ origin := 1, egress := 2, tc := 0, len := 60, crc := 5, until_ := 0 }] }
   let d := s.get i
   (d.stw.stage.find? fun it => decide (it.origin = tag.toNat) && decide (it.egress = egress.toNat) && !it.matched && decide (it.until_ ≤ d.now)) = some it) ∧
  (let egress : Byte := 0x5F
   0x40 ≤ egress.toNat ∧ egress.toNat < 0x60) := by
  refine ⟨?_, ?_, ?_, ?_, ?_, ?_, ?_, ?_, ?_, ?_, ?_, ?_, ?_⟩ <;> decide

theorem witness_NewelRegisterCommandsComplete :
  (let a : Acc := wCore
   let s : State := State.reset
   let d := s.get a.die
   d.regStatus a.req 16 0 0x10 true = .okay) ∧
  (let a : Acc := wCore
   let s : State := State.reset
   let d := s.get a.die
   d.regStatus a.req 16 0 0x14 true = .okay) ∧
  (let a : Acc := wCore
   let s : State := State.reset
   let d := s.get a.die
   d.regStatus a.req 16 0 0x18 true = .okay) ∧
  (let a : Acc := wCore
   let s : State := State.reset
   let d := s.get a.die
   d.regStatus a.req 16 0 0x1C true = .okay) ∧
  (let a : Acc := wCore
   let s : State := State.reset
   let d := s.get a.die
   d.regStatus a.req 16 0 0x24 true = .okay) ∧
  (let a : Acc := wCore
   let v : Word := 0
   let s : State := State.reset
   let d := s.get a.die
   let x (off : Nat) (w : Word) := (d.complete a.req (regAddr 16 off) .okay).writeFields 16 (regChan 16 0 (reqCopy a.req) off) off w
   d.regStatus a.req 16 0 0x38 true = .okay ∧ (((x 0x38 v).rd prtWdLeft = 0 ∨ (x 0x38 v).rd prtWdKind = 0))) ∧
  (let a : Acc := wCore
   let v : Word := 0
   let s : State := wSets [(nwlLinkUp, 1, 0, 0)]
   let d := s.get a.die
   let x (off : Nat) (w : Word) := (d.complete a.req (regAddr 16 off) .okay).writeFields 16 (regChan 16 0 (reqCopy a.req) off) off w
   d.regStatus a.req 16 0 0x74 true = .okay ∧ (x 0x74 (commitWord v 0)).bit nwlLinkUp = true) ∧
  (let a : Acc := wCore
   let v : Word := 0
   let s : State := wSets [(nwlLinkUp, 1, 0, 0)]
   let d := s.get a.die
   let x (off : Nat) (w : Word) := (d.complete a.req (regAddr 16 off) .okay).writeFields 16 (regChan 16 0 (reqCopy a.req) off) off w
   d.regStatus a.req 16 0 0x74 true = .okay ∧ (x 0x74 (commitWord v 1)).bit nwlLinkUp = true) ∧
  (let a : Acc := wCore
   let v : Word := 0
   let s : State := State.reset
   let d := s.get a.die
   d.regStatus a.req 15 0 8 true = .okay ∧ v.toNat % 4 ≠ 3) := by
  refine ⟨?_, ?_, ?_, ?_, ?_, ?_, ?_, ?_, ?_⟩ <;> decide

theorem witness_NewelFramesComplete :
  (let i : Die := .west
   let q : Fin 16 := 1
   let s : State := State.reset
   let x := s.newel.hear i
   let addr := (0x10 : BitVec 16)
   let v := 0xFFF000
   s.linkAlive i = true ∧ (x.linkOf i).expect = q ∧ x.register i (4 * (addr.toNat / 2)) = some v) ∧
  (let i : Die := .east
   let q : Fin 16 := 1
   let s : State := wLoad {} [(0x138, 1)]
   let x := s.newel.hear i
   let ch : Fin 32 := 23
   let on : Bool := true
   s.linkAlive i = true ∧ (x.linkOf i).expect = q ∧ x.cmdNak i ch = none ∧ x.enabled ch = true ∧ ((on = true → (x.chan ch).latched = false))) ∧
  (let i : Die := .east
   let q : Fin 16 := 1
   let s : State := State.reset
   let x := s.newel.hear i
   let ch : Fin 32 := 23
   s.linkAlive i = true ∧ (x.linkOf i).expect = q ∧ x.chNak i ch = none) ∧
  (let i : Die := .west
   let q : Fin 16 := 1
   let s : State := wNewel fun w => { w with slOn := true }
   let x := s.newel.hear i
   s.linkAlive i = true ∧ (x.linkOf i).expect = q ∧ x.slOn = true ∧ x.slCause = 0 ∧ x.cmdMode ≠ 2) ∧
  (let i : Die := .west
   let q : Fin 16 := 1
   let s : State := State.reset
   let x := s.newel.hear i
   let mode := (2 : BitVec 2)
   s.linkAlive i = true ∧ (x.linkOf i).expect = q ∧ mode ≠ 3 ∧ x.armed = none) ∧
  (let i : Die := .west
   let q : Fin 16 := 1
   let s : State := State.reset
   let x := s.newel.hear i
   let page := (255 : BitVec 12)
   s.linkAlive i = true ∧ (x.linkOf i).expect = q ∧ x.eeJob = none ∧ userPage page.toNat = true) ∧
  (let i : Die := .west
   let q : Fin 16 := 1
   let s : State := wNewel fun w => w.onSupply .east fun x => { x with off := true }
   let x := s.newel.hear i
   s.linkAlive i = true ∧ (x.linkOf i).expect = q ∧ (x.supplyOf i.other).off = true) ∧
  (let i : Die := .west
   let s : State := State.reset
   s.linkAlive i = true) ∧
  (let i : Die := .west
   let s : State := State.reset
   s.linkAlive i = true) := by
  refine ⟨?_, ?_, ?_, ?_, ?_, ?_, ?_, ?_, ?_⟩ <;> decide

theorem witness_NewelLinkCommandsComplete :
  (let i : Die := .west
   let seq : Fin 16 := 15
   let c : NlCmd := { op := 4, arg := 5, seq := 15 }
   let rest : List NlCmd := []
   let s : State := wNl { op := 4, arg := 5, seq := 15 }
   let d := s.get i
   d.nl.sent = c :: rest ∧ c.seq = seq ∧ d.bit nwlLinkUp = true) ∧
  (let i : Die := .west
   let seq : Fin 16 := 0
   let c : NlCmd := { op := 9, arg := 6, seq := 0 }
   let rest : List NlCmd := []
   let s : State := wNl { op := 9, arg := 6, seq := 0 } [(nwlLinkUp, 0, 0, 0)]
   (s.get i).nl.sent = c :: rest ∧ c.seq = seq ∧ (s.get i).bit nwlLinkUp = false) ∧
  (let i : Die := .west
   let seq : Fin 16 := 15
   let c : NlCmd := { op := 3, arg := 5, seq := 15 }
   let rest : List NlCmd := []
   let s : State := wNl { op := 3, arg := 5, seq := 15 }
   let d := s.get i
   d.nl.sent = c :: rest ∧ c.seq = seq ∧ c.op = 3 ∧ d.bit nwlLinkUp = true) ∧
  (let i : Die := .west
   let seq : Fin 16 := 15
   let c : NlCmd := { op := 4, arg := 5, seq := 15 }
   let rest : List NlCmd := []
   let s : State := wNl { op := 4, arg := 5, seq := 15 }
   let d := s.get i
   d.nl.sent = c :: rest ∧ c.seq = seq ∧ d.bit nwlLinkUp = true) ∧
  (let i : Die := .west
   let arg : BitVec 16 := 0x0205
   let e : Nat × Nat × Nat := (0x1002, 5, 9)
   let s : State := wNewel fun w => w.onLink .west fun l => { l with events := [(0x1002, 5, 9)] }
   let code := arg.toNat / 256
   let unit := arg.toNat % 256
   code ≠ 0 ∧ code ≤ 13 ∧ (s.get i).pow.alive = true ∧ ((s.newel.linkOf i).events.find? fun e => decide (e.1 % 256 = code) && decide (e.2.1 = unit)) = some e) ∧
  (let i : Die := .west
   let arg : BitVec 16 := 0x0D05
   let s : State := State.reset
   let d := s.get i
   let code := arg.toNat / 256
   let unit := arg.toNat % 256
   code ≠ 0 ∧ code ≤ 13 ∧ d.pow.alive = true ∧ ((s.newel.linkOf i).events.find? fun e => decide (e.1 % 256 = code) && decide (e.2.1 = unit)) = none) ∧
  (let i : Die := .west
   let c : NlCmd := { op := 4, arg := 5 }
   let rest : List NlCmd := []
   let s : State := wNl { op := 4, arg := 5 } [] fun d => { d with now := 2720, nl := { d.nl with resends := 3 } }
   let d := s.get i
   d.nl.sent = c :: rest ∧ d.bit nwlLinkUp = true ∧ c.at_ + 2720 ≤ d.now ∧ 3 ≤ d.nl.resends) ∧
  (let i : Die := .west
   let c : NlCmd := { op := 4, arg := 5 }
   let rest : List NlCmd := []
   let s : State := wNl { op := 4, arg := 5 } [] fun d => { d with now := 2720 }
   let d := s.get i
   d.nl.sent = c :: rest ∧ d.bit nwlLinkUp = true ∧ c.at_ + 2720 ≤ d.now ∧ d.nl.resends < 3) ∧
  (let i : Die := .west
   let s : State := wSets [(nwlLinkUp, 1, 0, 0)]
   (s.get i).bit nwlLinkUp = true) ∧
  (let i : Die := .west
   let s : State := wWest fun d => { d with now := 100000 }
   let d := s.get i
   d.pow.alive = true ∧ d.bit nwlLinkUp = false ∧ d.nl.resyncAt + 100000 ≤ d.now) ∧
  (let i : Die := .west
   let s : State := wSets [(nwlLinkUp, 1, 0, 0)] fun d => { d with now := 1000000 }
   let d := s.get i
   d.bit nwlLinkUp = true ∧ d.nl.pollAt + 1000000 ≤ d.now) ∧
  (let i : Die := .west
   let s : State := wNewel fun w => { w with now := 4000 }
   (s.newel.linkOf i).seen + 4000 ≤ s.newel.now) ∧
  (let i : Die := .west
   let s : State := wNewel fun w => { w with now := 250000000 }
   (s.newel.linkOf i).seen + 250000000 ≤ s.newel.now ∧ (s.newel.linkOf i).stopped = false) ∧
  (let e : Die := .east
   let m : Nat := 5
   let t : Nat := 0
   let s : State := wNewel fun w => { w with now := 1000001, ownReq := some (.east, 5, 0) }
   s.newel.ownReq = some (e, m, t) ∧ t + 1000000 < s.newel.now) ∧
  (let m : Nat := 1
   let t : Nat := 0
   let s : State := wNewel fun w => { w with now := 1000001, arm := w.arm.set (0 : Fin 2) (some (1, 0)) }
   s.newel.armed = none ∧ s.newel.arm.get (0 : Fin 2) = some (m, t) ∧ t + 1000000 < s.newel.now) ∧
  (let t : Nat := 0
   let s : State := wNewel fun w => { w with now := 1000000000, armed := some 0 }
   s.newel.armed = some t ∧ t + 1000000000 ≤ s.newel.now) ∧
  (let i : Die := .west
   let cause : Nat := 1
   let t : Nat := 0
   let s : State := (wWest fun d => { d with stw := { d.stw with failover := some (1, 0) } }).onNewel fun w => { w with now := 4000 }
   let d := s.get i
   d.stw.failover = some (cause, t) ∧ s.lossConfirmed i.other = true) := by
  refine ⟨?_, ?_, ?_, ?_, ?_, ?_, ?_, ?_, ?_, ?_, ?_, ?_, ?_, ?_, ?_, ?_, ?_⟩ <;> decide

theorem witness_NewelEventCommandsComplete :
  (let n : Fin 24 := 23
   let s : State := wLoad { on := true, winEnd := 5, budget := 1 }
   let w := s.newel
   (w.chan n).on = true ∧ w.rev = false ∧ w.retryOpen n = true) ∧
  (let n : Fin 24 := 23
   let s : State := wLoad { on := true }
   let w := s.newel
   (w.chan n).on = true ∧ w.rev = false ∧ w.retryOpen n = false) ∧
  (let n : Fin 24 := 23
   let s : State := wLoad {} [(0x13C, 0x6400)]
   let w := s.newel
   let c := w.chan n
   let e := wireStep c.e (c.sense * senseLsb n) (w.par nwlChCInom n / 10) (w.par nwlChCTau n)
   w.par nwlChCInom n ≠ 0 ∧ e < 1) ∧
  (let n : Fin 24 := 23
   let s : State := wLoad { e := 3 } [(0x13C, 0x6400)]
   let w := s.newel
   let c := w.chan n
   let e := wireStep c.e (c.sense * senseLsb n) (w.par nwlChCInom n / 10) (w.par nwlChCTau n)
   w.par nwlChCInom n ≠ 0 ∧ ¬ e < 1 ∧ c.wire = false) ∧
  (let n : Fin 24 := 23
   let s : State := wLoad { on := true }
   let w := s.newel
   (w.chan n).on = true ∧ (w.chan n).openOn = false) ∧
  (let n : Fin 24 := 23
   let t : Nat := 0
   let s : State := wLoad { tripAt := some 0, winEnd := 2000000000, budget := 1 } [(0x138, 1)] fun w => { w with now := 1000000000 }
   let w := s.newel
   let c := w.chan n
   c.tripAt = some t ∧ t + 250000 * w.par nwlChBRetryGap n ≤ w.now ∧ c.therm = false ∧ c.wire = false ∧ w.retryOpen n = true ∧ w.enabled n = true ∧ w.low = false) ∧
  (let n : Fin 24 := 23
   let s : State := State.reset
   let w := s.newel
   (w.chan n).winEnd ≤ w.now) ∧
  (let n : Fin 24 := 23
   let s : State := wLoad { on := true }
   s.newel.sampled n = true) ∧
  (let n : Fin 24 := 23
   let t : Nat := 0
   let s : State := wLoad { split := some 0 } [] fun w => { w with mode := 2, now := 10000000 }
   let w := s.newel
   (w.chan n).split = some t ∧ w.cmdMode = 2 ∧ (w.chan n).splitRaised = false ∧ t + 10000000 ≤ w.now) ∧
  (let v : BitVec 16 := 599
   let s : State := State.reset
   v.toNat < 600 ∧ s.newel.low = false) ∧
  (let v : BitVec 16 := 701
   let s : State := wNewel fun w => { w with low := true }
   700 < v.toNat ∧ s.newel.low = true) ∧
  (let s : State := wNewel fun w => { w with rev := true }
   s.newel.rev = true) ∧
  (let t : Nat := 0
   let s : State := wNewel fun w => { w with wdAuto := some 0, now := 1000000000 }
   s.newel.wdAuto = some t ∧ t + 1000000000 ≤ s.newel.now) ∧
  (let i : Die := .west
   let s : State := wNewel fun w => { w with now := 1000000000000, wd := w.wd.set (0 : Fin 2) { state := 1 } }
   let w := s.newel
   (w.wdOf i).state ≠ 0 ∧ (w.linkOf i).stopped = false ∧ w.wdPeriod i < w.now - (w.wdOf i).start) ∧
  (let s : State := wNewel fun w => { w with mode := 2 }
   s.newel.cmdMode = 2) ∧
  (let k : Fin 8 := 7
   let rising : Bool := true
   let s : State := wNewel fun w => { w with cfg := [(0x28, 0x4000)] }
   let w : NewelState := { s.newel with wk := s.newel.wk / (2 * 2 ^ k.val) * (2 * 2 ^ k.val) + (if rising then 2 ^ k.val else 0) + s.newel.wk % 2 ^ k.val }
   let hit := (w.par nwlWkCfgEdge / 4 ^ k.val % 4).testBit (if rising then 0 else 1)
   hit = true) ∧
  (let k : Fin 8 := 7
   let rising : Bool := true
   let s : State := State.reset
   let w : NewelState := { s.newel with wk := s.newel.wk / (2 * 2 ^ k.val) * (2 * 2 ^ k.val) + (if rising then 2 ^ k.val else 0) + s.newel.wk % 2 ^ k.val }
   let hit := (w.par nwlWkCfgEdge / 4 ^ k.val % 4).testBit (if rising then 0 else 1)
   hit = false) ∧
  (let i : Die := .east
   let p : Nat := 17
   let bs : List Byte := [1]
   let s : State := wNewel fun w => { w with eeJob := some (.east, 17, [1]) }
   s.newel.eeJob = some (i, p, bs)) := by
  refine ⟨?_, ?_, ?_, ?_, ?_, ?_, ?_, ?_, ?_, ?_, ?_, ?_, ?_, ?_, ?_, ?_, ?_, ?_⟩
  · decide
  · decide
  · exact ⟨by decide, by decide +kernel⟩
  · exact ⟨by decide, by decide +kernel, by decide⟩
  · decide
  · decide
  · decide
  · decide
  · decide
  · decide
  · decide
  · decide
  · decide
  · decide
  · decide
  · decide
  · decide
  · decide

theorem witness_HostAndQueueCommandsComplete :
  (let a : Acc := wCore
   let s : State := State.reset
   let d := s.get a.die
   d.regStatus a.req 0 0 0x50 true = .okay) ∧
  (let a : Acc := wCore
   let s : State := State.reset
   let d := s.get a.die
   d.regStatus a.req 0 0 0x88 true = .okay) ∧
  (let i : Die := .west
   let c : Fin 4 := 3
   let s : State := wSets [(sysMtimecmpLo, 0, 0, 3), (sysMtimecmpHi, 0, 0, 3)] fun d => { d with pow := { d.pow with stopped := [1] } }
   let d := s.get i
   d.timerPending c = true ∧ d.inDoze = true) ∧
  (let i : Die := .west
   let s : State := State.reset
   let d := s.get i
   let x := d.cnt evtUe 0 1
   d.hallOn .host = true ∧ x.host.fenced = false) ∧
  (let a : Acc := wCore
   let n : Fin 64 := 63
   let s : State := State.reset
   let d := s.get a.die
   d.regStatus a.req 14 n 0x130 false = .okay ∧ d.qbUnread n = 0) ∧
  (let a : Acc := wCore
   let n : Fin 64 := 63
   let s : State := wSets [(qbkWp, 1, 63, 0)]
   let d := s.get a.die
   d.regStatus a.req 14 n 0x130 false = .okay ∧ d.qbUnread n ≠ 0) ∧
  (let a : Acc := wCore
   let n : Fin 64 := 63
   let s : State := State.reset
   let d := s.get a.die
   d.regStatus a.req 14 n 0x134 true = .okay) ∧
  (let a : Acc := wCore
   let n : Fin 64 := 0
   let v : Word := 0
   let s : State := State.reset
   let d := s.get a.die
   let w := commitWord v 31
   d.regStatus a.req 14 n 0x180 true = .okay ∧ w.msb = true) ∧
  (let i : Die := .west
   let n : Fin 64 := 63
   let t : Nat := 0
   let s : State := wHost { stale := [(63, 0)] } [(qbkWp, 1, 63, 0), (qbkCfgD, 1, 63, 0)] fun d => { d with now := 1000 }
   let d := s.get i
   Tab.get? d.host.stale n = some t ∧ d.hallOn .host = true ∧ d.rd qbkCfgD n ≠ 0 ∧ t + 1000 * d.rd qbkCfgD n ≤ d.now ∧ d.qbUnread n ≠ 0) := by
  refine ⟨?_, ?_, ?_, ?_, ?_, ?_, ?_, ?_, ?_⟩ <;> decide

theorem witness_MailboxCommandsComplete :
  (let a : Acc := wCore
   let m : Fin 16 := 15
   let e : Nat := 0
   let s : State := wSets [(mbxCfgAEn, 1, 15, 0)]
   let d := s.get a.die
   d.mbEnd m (reqId a.req) = some e ∧ d.regStatus a.req 13 m 0x110 true = .okay) ∧
  (let a : Acc := wCore
   let m : Fin 16 := 15
   let e : Nat := 0
   let s : State := wSets [(mbxCfgAEn, 1, 15, 0)]
   let d := s.get a.die
   d.mbEnd m (reqId a.req) = some e ∧ d.regStatus a.req 13 m 0x118 true = .okay) ∧
  (let a : Acc := wCore
   let m : Fin 16 := 15
   let e : Nat := 0
   let s : State := wSets [(mbxCfgAEn, 1, 15, 0)]
   let d := s.get a.die
   d.mbEnd m (reqId a.req) = some e ∧ d.regStatus a.req 13 m 0x124 true = .okay) ∧
  (let a : Acc := wCore
   let m : Fin 16 := 15
   let e : Nat := 0
   let s : State := wSets [(mbxCfgAEn, 1, 15, 0)]
   let d := s.get a.die
   d.mbEnd m (reqId a.req) = some e ∧ d.regStatus a.req 13 m 0x114 false = .okay) ∧
  (let a : Acc := wCore
   let m : Fin 16 := 15
   let e : Nat := 0
   let s : State := wSets [(mbxCfgAEn, 1, 15, 0)]
   let d := s.get a.die
   d.mbEnd m (reqId a.req) = some e ∧ d.regStatus a.req 13 m 0x11C false = .okay) ∧
  (let i : Die := .west
   let m : Fin 16 := 15
   let ba : Bool := true
   let t : Nat := 0
   let s : State := wHost { drain := [(31, 0)], mbx := [(31, [5])] } [(mbxCfgB, 1, 15, 0)] fun d => { d with now := 1000 }
   let d := s.get i
   let e := if ba then 1 else 0
   let k := 2 * m.val + e
   Tab.get? d.host.drain k = some t ∧ d.hallOn .host = true ∧ d.rd mbxCfgB m ≠ 0 ∧ t + 1000 * d.rd mbxCfgB m ≤ d.now ∧ d.mbWords m e ≠ []) ∧
  (let a : Acc := wCore
   let cl : Fin 4 := 3
   let v : Word := 0
   let s : State := wSets [(mbxDbeEn, 1, 0, 3)]
   let d := s.get a.die
   let off := 0x10 + 4 * cl.val
   let x := (d.complete a.req (regAddr 13 off) .okay).writeFields 13 (regChan 13 0 (reqCopy a.req) off) off v
   d.regStatus a.req 13 0 off true = .okay ∧ x.bit mbxDbeEn 0 cl = true) := by
  refine ⟨?_, ?_, ?_, ?_, ?_, ?_, ?_⟩ <;> decide

theorem witness_PcieCommandsComplete :
  (let i : Die := .west
   let speed : Fin 8 := 4
   let width : Fin 4 := 2
   let s : State := State.reset
   let d := s.get i
   d.hallOn .host = true ∧ d.bit pciLinkUp = false ∧ 1 ≤ speed.val ∧ speed.val ≤ 4 ∧ 1 ≤ width.val ∧ width.val ≤ 2) ∧
  (let i : Die := .west
   let s : State := wSets [(pciLinkUp, 1, 0, 0)]
   let d := s.get i
   d.bit pciLinkUp = true) ∧
  (let i : Die := .west
   let s : State := State.reset
   let d := s.get i
   d.hallOn .host = true) ∧
  (let i : Die := .west
   let s : State := wSets [(pciLinkUp, 1, 0, 0)]
   (s.get i).bit pciLinkUp = true ∧ (s.get i).inDoze = false) ∧
  (let i : Die := .west
   let c : Fin 8 := 7
   let s : State := wHost { qram := [(1, 4), (2, 0x10000000)] } [(pciLinkUp, 1, 0, 0), (pciDmaAEn, 1, 0, 7), (qbkWp, 8, 0, 0), (sysSecCfgPci, 1, 0, 0)]
   let d := s.get i
   let q := d.rd pciDmaASq 0 c
   let ws := (List.range 8).map fun k => d.qbWord q k
   let x := d.qbTake q 8
   let y := ({ x with pci := { x.pci with dma := Tab.put {} x.pci.dma c { cur := some ws, since := x.now } } } : DieState).wr pciDmaBBusy 1 0 c
   d.hallOn .host = true ∧ d.bit pciDmaAEn 0 c = true ∧ (d.dmaCh c).cur = none ∧ 8 ≤ d.qbUnread q ∧ dmaBad ws = false ∧ y.dmaLocal ws = true ∧ y.bit pciLinkUp = true) ∧
  (let i : Die := .west
   let c : Fin 8 := 7
   let s : State := wHost {} [(pciLinkUp, 1, 0, 0), (pciDmaAEn, 1, 0, 7), (qbkWp, 8, 0, 0)]
   let d := s.get i
   let q := d.rd pciDmaASq 0 c
   let ws := (List.range 8).map fun k => d.qbWord q k
   d.hallOn .host = true ∧ d.bit pciDmaAEn 0 c = true ∧ (d.dmaCh c).cur = none ∧ 8 ≤ d.qbUnread q ∧ dmaBad ws = true) ∧
  (let i : Die := .west
   let c : Fin 8 := 7
   let s : State := wHost { qram := [(1, 4)] } [(pciLinkUp, 1, 0, 0), (pciDmaAEn, 1, 0, 7), (qbkWp, 8, 0, 0)]
   let d := s.get i
   let q := d.rd pciDmaASq 0 c
   let ws := (List.range 8).map fun k => d.qbWord q k
   let x := d.qbTake q 8
   let y := ({ x with pci := { x.pci with dma := Tab.put {} x.pci.dma c { cur := some ws, since := x.now } } } : DieState).wr pciDmaBBusy 1 0 c
   d.hallOn .host = true ∧ d.bit pciDmaAEn 0 c = true ∧ (d.dmaCh c).cur = none ∧ 8 ≤ d.qbUnread q ∧ dmaBad ws = false ∧ y.dmaLocal ws = false) ∧
  (let i : Die := .west
   let c : Fin 8 := 7
   let ws : List Word := [0, 4, 0x10000000, 0, 0, 0, 0, 0]
   let s : State := wSets [(sysSecCfgPci, 1, 0, 0)] fun d => { d with pci := { d.pci with dma := [(7, { cur := some [0, 4, 0x10000000, 0, 0, 0, 0, 0] })] } }
   let d := s.get i
   (d.dmaCh c).cur = some ws ∧ d.dmaLocal ws = true) ∧
  (let i : Die := .west
   let c : Fin 8 := 7
   let ws : List Word := [0, 4, 0x10000000, 0, 0, 0, 0, 0]
   let s : State := wWest fun d => { d with now := 1000000000, pci := { d.pci with dma := [(7, { cur := some [0, 4, 0x10000000, 0, 0, 0, 0, 0] })] } }
   let d := s.get i
   (d.dmaCh c).cur = some ws ∧ (ws.getD 0 0).getLsbD 0 = false ∧ (d.dmaCh c).since + 1000 * d.rd pciCplTmo ≤ d.now) ∧
  (let a : Acc := wCore
   let s : State := State.reset
   let d := s.get a.die
   d.regStatus a.req 17 0 0x220 true = .okay) ∧
  (let a : Acc := wCore
   let s : State := State.reset
   let d := s.get a.die
   d.regStatus a.req 17 0 0x228 true = .okay) ∧
  (let i : Die := .west
   let s : State := wSets [(pciLinkUp, 1, 0, 0), (pciVnicEn, 1, 0, 0), (pciVnicOwner, 1, 0, 0), (pciTxTail, 1, 0, 0)]
   let d := s.get i
   d.hallOn .host = true ∧ d.hallOn .swc = true ∧ d.portUp 26 = true ∧ d.rd pciTxHead ≠ d.rd pciTxTail % 2 ^ d.rd pciRingsTxlog2 ∧ d.vnicOuter = true) ∧
  (let i : Die := .west
   let s : State := wHost { sram := [(3, 0x10)] } [(pciVnicEn, 1, 0, 0), (pciTxTail, 1, 0, 0), (pciTxbLo, 0x10000000, 0, 0)]
   let d := s.get i
   let at_ := ringAddr (d.rd pciTxbLo) (d.rd pciTxbHi) (d.rd pciTxHead)
   let buf := d.ringWord at_ 0 + 2 ^ 32 * d.ringWord at_ 1
   let len := d.ringWord at_ 2 % 2 ^ 14
   d.hallOn .host = true ∧ d.hallOn .swc = true ∧ d.portUp 26 = true ∧ d.rd pciTxHead ≠ d.rd pciTxTail % 2 ^ d.rd pciRingsTxlog2 ∧ d.vnicOuter = false ∧ inSram at_ 16 = true ∧ inSram buf len = true) ∧
  (let i : Die := .west
   let t : Nat := 3
   let s : State := wSwitch { frames := [(7, wSw)], outq := [(8 * 26 + 3, [{ desc := 7, at_ := 0 }])] } [(pciVnicEn, 1, 0, 0), (pciRxTail, 1, 0, 0)]
   let d := s.get i
   d.hallOn .host = true ∧ d.hallOn .swc = true ∧ d.portUp 26 = true ∧ d.portShut 26 = false ∧ d.rd pciRxHead ≠ d.rd pciRxTail % 2 ^ d.rd pciRingsRxlog2 ∧ d.pickClass 26 (fun _ => true) = some t) ∧
  (let i : Die := .west
   let s : State := wWest fun d => { d with now := 1000000000, pci := { d.pci with rxCount := 1 } }
   let d := s.get i
   d.pci.rxCount ≠ 0 ∧ d.pci.rxFirst + 1000 * d.rd pciIntBUsec ≤ d.now) := by
  refine ⟨?_, ?_, ?_, ?_, ?_, ?_, ?_, ?_, ?_, ?_, ?_, ?_, ?_, ?_, ?_⟩ <;> decide

theorem witness_PowerCommandsComplete :
  (let a : Acc := wCore
   let v : Word := 0xFFFFFFFF
   let s : State := State.reset
   let d := s.get a.die
   let w := v ||| 3
   d.regStatus a.req 1 0 8 true = .okay ∧ w.getLsbD 9 = true) ∧
  (let i : Die := .west
   let h : Fin 10 := 9
   let s : State := wWest fun d => { d with pow := { d.pow with rising := [9] } }
   let d := s.get i
   d.pow.rising.contains h.val = true) ∧
  (let a : Acc := wCore
   let v : Word := 0x1FF
   let s : State := State.reset
   let d := s.get a.die
   d.regStatus a.req 1 0 0x10 true = .okay ∧ v.getLsbD 9 = false) ∧
  (let a : Acc := wCore
   let v : Word := 0
   let s : State := State.reset
   let d := s.get a.die
   let x := (d.complete a.req (regAddr 1 4) .okay).writeFields 1 (regChan 1 0 (reqCopy a.req) 4) 4 (pwrReqWord v 1)
   d.regStatus a.req 1 0 4 true = .okay ∧ x.rd pwrStateCur = 0 ∧ x.dozeBar = none) ∧
  (let i : Die := .west
   let s : State := wSet pwrStateCur 1
   let d := s.get i
   d.rd pwrStateCur = 1 ∧ d.bus.waiting.isEmpty = true ∧ d.pow.wakeHit = false) ∧
  (let i : Die := .west
   let s : State := wWest fun d => { d with pow := { d.pow with stopped := [1] } }
   let d := s.get i
   d.inDoze = true) ∧
  (let a : Acc := wCore
   let v : Word := 0
   let s : State := wSet pwrWakeEn 4
   let d := s.get a.die
   let x := (d.complete a.req (regAddr 1 4) .okay).writeFields 1 (regChan 1 0 (reqCopy a.req) 4) 4 (pwrReqWord v 2)
   d.regStatus a.req 1 0 4 true = .okay ∧ x.rd pwrStateCur = 0 ∧ x.rd pwrWakeEn ≠ 0 ∧ x.pairMode = 0 ∧ (s.set a.die x).loadHeld a.die = false) ∧
  (let i : Die := .west
   let s : State := wWest fun d => { (d.wr pwrStateCur 2) with now := 1000000000 }
   let d := s.get i
   d.rd pwrStateCur = 2 ∧ d.pow.pendAt + 1000000000 ≤ d.now) ∧
  (let i : Die := .west
   let s : State := wSet pwrStateCur 3
   let d := s.get i
   d.rd pwrStateCur = 3 ∧ d.pairMode = 0 ∧ (s.get i.other).linkUp = false) ∧
  (let src : Fin 7 := 3
   (src = 0 ∨ src = 1 ∨ src = 3)) := by
  refine ⟨?_, ?_, ?_, ?_, ?_, ?_, ?_, ?_, ?_, ?_⟩ <;> decide

theorem witness_SupplyAndResetCommandsComplete :
  (let v : BitVec 16 := 451
   let s : State := wNewel fun w => { w with offline := true }
   s.newel.offline = true ∧ 450 < v.toNat) ∧
  (let i : Die := .west
   let g : Fin 3 := 2
   let s : State := wNewel fun w => w.onSupply .west fun p => { p with on := 3, good := 2 }
   s.newel.offline = false ∧ (s.newel.supplyOf i).good = g.val ∧ s.groupsOn i = g.val + 1) ∧
  (let i : Die := .west
   let g : Fin 3 := 2
   let s : State := State.reset
   let now := s.newel.now
   let fails := now :: (s.newel.supplyOf i).fails.filter fun t => decide (now < t + 1000000000)
   s.newel.offline = false ∧ g.val < s.groupsOn i ∧ fails.length < 3) ∧
  (let i : Die := .west
   let g : Fin 3 := 0
   let s : State := wNewel fun w => w.onSupply .west fun p => { p with fails := [0, 0] }
   let now := s.newel.now
   let fails := now :: (s.newel.supplyOf i).fails.filter fun t => decide (now < t + 1000000000)
   let u := ((s.on i DieState.dark).on i.other DieState.partnerMute).onNewel fun w => w.onSupply i fun _ => { on := 0, good := 0, fails := fails, off := true, retryAt := none, why := 2 }
   s.newel.offline = false ∧ g.val < s.groupsOn i ∧ 3 ≤ fails.length ∧ (u.get i.other).pow.alive = true) ∧
  (let i : Die := .west
   let t : Nat := 0
   let s : State := wNewel fun w => w.onSupply .west fun p => { p with retryAt := some 0 }
   (s.newel.supplyOf i).retryAt = some t ∧ t ≤ s.newel.now ∧ s.newel.offline = false) ∧
  (let s : State := State.reset
   s.newel.offline = false) ∧
  (let i : Die := .west
   let s : State := State.reset
   (s.get i).pow.alive = true) ∧
  (let a : Acc := wCore
   let v : Word := 0x8000D1E0
   let s : State := State.reset
   let d := s.get a.die
   d.regStatus a.req 1 0 0x24 true = .okay ∧ v.toNat % 65536 = 0xD1E0 ∧ v.msb = true) ∧
  (let a : Acc := wCore
   let v : Word := 0
   let s : State := State.reset
   let d := s.get a.die
   d.regStatus a.req 1 0 0x24 true = .okay ∧ v.toNat % 65536 ≠ 0xD1E0) := by
  refine ⟨?_, ?_, ?_, ?_, ?_, ?_, ?_, ?_, ?_⟩ <;> decide

theorem witness_BootCommandsComplete :
  (let i : Die := .west
   let s : State := State.reset
   let d := s.get i
   d.pow.alive = true ∧ d.rd pwrBootStage = 0) ∧
  (let i : Die := .west
   let s : State := wSet pwrBootStage 1
   let d := s.get i
   d.rd pwrBootStage = 1 ∧ d.currentCopy = none) ∧
  (let i : Die := .west
   let s : State := wBoot fun d => { d.wr pwrBootStage 1 with pow := { d.pow with tried := true } }
   let d := s.get i
   d.rd pwrBootStage = 1 ∧ d.currentCopy ≠ none ∧ d.pow.tried = true) ∧
  (let i : Die := .west
   let s : State := wBoot fun d => d.wr pwrBootStage 1
   let d := s.get i
   d.rd pwrBootStage = 1 ∧ d.currentCopy ≠ none ∧ d.pow.tried = false) ∧
  (let i : Die := .west
   let s : State := wSet pwrBootStage 2
   let d := s.get i
   d.rd pwrBootStage = 2) ∧
  (let i : Die := .west
   let s : State := wSet pwrBootStage 3
   let d := s.get i
   d.rd pwrBootStage = 3) := by
  refine ⟨?_, ?_, ?_, ?_, ?_, ?_⟩
  · decide
  · have e : ((wSet pwrBootStage 1).get .west).currentCopy = none := by
      unfold DieState.currentCopy DieState.recordCopy
      rw [show ((wSet pwrBootStage 1).get .west).upd.flash = [] from rfl, Memory.bytes_nil, Memory.bytes_nil]
      decide +kernel
    exact ⟨by decide, e⟩
  · exact ⟨by rfl, by rw [wBoot_current _ (by intro d; rfl)]; simp, by rfl⟩
  · exact ⟨by rfl, by rw [wBoot_current _ (by intro d; rfl)]; simp, by rfl⟩
  · decide
  · decide

theorem witness_UpdateCommandsComplete :
  (let a : Acc := wCore
   let v : Word := 0
   let s : State := State.reset
   let d := s.get a.die
   let x (op : Nat) := (d.complete a.req (regAddr 18 4) .okay).writeFields 18 (regChan 18 0 (reqCopy a.req) 4) 4 (updWord v op)
   d.regStatus a.req 18 0 4 true = .okay ∧ (x 1).bit updStatBusy = false) ∧
  (let a : Acc := wCore
   let v : Word := 0
   let s : State := State.reset
   let d := s.get a.die
   let x (op : Nat) := (d.complete a.req (regAddr 18 4) .okay).writeFields 18 (regChan 18 0 (reqCopy a.req) 4) 4 (updWord v op)
   d.regStatus a.req 18 0 4 true = .okay ∧ (x 3).bit updStatBusy = false) ∧
  (let a : Acc := wCore
   let v : Word := 0
   let s : State := State.reset
   let d := s.get a.die
   let x (op : Nat) := (d.complete a.req (regAddr 18 4) .okay).writeFields 18 (regChan 18 0 (reqCopy a.req) 4) 4 (updWord v op)
   d.regStatus a.req 18 0 4 true = .okay ∧ (x 4).bit updStatBusy = false) ∧
  (let a : Acc := wCore
   let v : Word := 0
   let s : State := State.reset
   let d := s.get a.die
   let x (op : Nat) := (d.complete a.req (regAddr 18 4) .okay).writeFields 18 (regChan 18 0 (reqCopy a.req) 4) 4 (updWord v op)
   d.regStatus a.req 18 0 4 true = .okay ∧ (x 6).bit updStatBusy = false) ∧
  (let a : Acc := wCore
   let v : Word := 0
   let s : State := State.reset
   let d := s.get a.die
   let x (op : Nat) := (d.complete a.req (regAddr 18 4) .okay).writeFields 18 (regChan 18 0 (reqCopy a.req) 4) 4 (updWord v op)
   d.regStatus a.req 18 0 4 true = .okay ∧ (x 7).bit updStatBusy = false) ∧
  (let a : Acc := wCore
   let v : Word := 0
   let s : State := State.reset
   let d := s.get a.die
   let x (op : Nat) := (d.complete a.req (regAddr 18 4) .okay).writeFields 18 (regChan 18 0 (reqCopy a.req) 4) 4 (updWord v op)
   d.regStatus a.req 18 0 4 true = .okay ∧ (x 8).bit updStatBusy = false) ∧
  (let a : Acc := wCore
   let v : Word := 0x80010000
   let p : Nat := 0x00100000
   let s : State := wSets [(updStatState, 1, 0, 0), (updSrc, 0x4000000, 0, 0)]
   let d := s.get a.die
   let x := (d.complete a.req (regAddr 18 0x10) .okay).writeFields 18 (regChan 18 0 (reqCopy a.req) 0x10) 0x10 (commitWord v 31)
   d.regStatus a.req 18 0 0x10 true = .okay ∧ x.bit updStatBusy = false ∧ x.progPlace (x.rd updProgTarget) (x.rd updProgUnit) = .ok p) ∧
  (let i : Die := .west
   let p : Nat := 0x01000000
   let u : Nat := 0
   let s : State := wWest fun d => { d with upd := { d.upd with op := some (16, 0x01000000, 0) } }
   let d := s.get i
   d.upd.op = some (16, p, u)) ∧
  (let a : Acc := wCore
   let v : Word := 0
   let s : State := wSets [(updStatState, 1, 0, 0), (updNext, 2, 0, 0)]
   let d := s.get a.die
   let x := (d.complete a.req (regAddr 18 4) .okay).writeFields 18 (regChan 18 0 (reqCopy a.req) 4) 4 (updWord v 2)
   d.regStatus a.req 18 0 4 true = .okay ∧ x.bit updStatBusy = false ∧ x.rd updStatState = 1 ∧ (x.sessionLen + 8192) / 4096 ≤ x.rd updNext) ∧
  (let i : Die := .west
   let p : Nat := 0
   let u : Nat := 0
   let s : State := wWest fun d => { d with upd := { d.upd with op := some (2, 0, 0) } }
   let d := s.get i
   d.upd.op = some (2, p, u)) ∧
  (let a : Acc := wCore
   let v : Word := 0
   let s : State := State.reset
   let d := s.get a.die
   let x := (d.complete a.req (regAddr 18 4) .okay).writeFields 18 (regChan 18 0 (reqCopy a.req) 4) 4 (updWord v 5)
   d.regStatus a.req 18 0 4 true = .okay ∧ x.bit updStatBusy = false) ∧
  (let i : Die := .west
   let p : Nat := 0x10000000
   let q : Nat := 0
   let s : State := wWest fun d => { d with upd := { d.upd with op := some (1, 0x10000000, 0) } }
   let d := s.get i
   d.upd.op = some (1, p, q) ∧ inSram p 4096 = true) ∧
  (let i : Die := .west
   let p : Nat := 0
   let q : Nat := 0
   let s : State := wWest fun d => { d with upd := { d.upd with op := some (3, 0, 0) } }
   let d := s.get i
   d.upd.op = some (3, p, q)) ∧
  (let i : Die := .west
   let p : Nat := 0
   let q : Nat := 0
   let s : State := wWest fun d => { d with upd := { d.upd with op := some (4, 0, 0) } }
   let d := s.get i
   d.upd.op = some (4, p, q)) ∧
  (let i : Die := .west
   let p : Nat := 0
   let q : Nat := 0
   let s : State := wWest fun d => { d with upd := { d.upd with op := some (6, 0, 0) } }
   let d := s.get i
   d.upd.op = some (6, p, q)) ∧
  (let i : Die := .west
   let p : Nat := 0x103FF000
   let q : Nat := 0
   let s : State := wWest fun d => { d with upd := { d.upd with op := some (7, 0x103FF000, 0) } }
   let d := s.get i
   d.upd.op = some (7, p, q) ∧ inSram p 4096 = true) ∧
  (let i : Die := .west
   let p : Nat := 0x103FF000
   let q : Nat := 0
   let s : State := wWest fun d => { d with upd := { d.upd with op := some (8, 0x103FF000, 0) } }
   let d := s.get i
   d.upd.op = some (8, p, q) ∧ inSram p 4096 = true) ∧
  (let i : Die := .west
   let r : BootRec := recordOf wRecord
   let t : Nat := 0
   let s : State := wBoot fun d => { d with now := 1000000000, upd := { d.upd with trialAt := some 0 } }
   let d := s.get i
   d.bootRec = some r ∧ d.upd.trialAt = some t ∧ d.pow.alive = true ∧ d.upd.op = none ∧ r.trial = 1 ∧ r.trialS ≠ 0 ∧ t + 1000000000 * r.trialS ≤ d.now) := by
  refine ⟨?_, ?_, ?_, ?_, ?_, ?_, ?_, ?_, ?_, ?_, ?_, ?_, ?_, ?_, ?_, ?_, ?_, ?_⟩
  · decide
  · decide
  · decide
  · decide
  · decide
  · decide
  · exact ⟨by decide, by decide, by decide +kernel⟩
  · decide
  · decide
  · decide
  · decide
  · decide
  · decide
  · decide
  · decide
  · decide
  · decide
  · refine ⟨?_, by rfl, by rfl, by rfl, by decide +kernel, by decide +kernel, by decide +kernel⟩
    unfold DieState.bootRec
    rw [wBoot_current _ (by intro d; rfl), Option.map_some, (wBoot_copy _ (wBoot_flash _ (by intro d; rfl))).2]

theorem witness_GuardCommandsComplete :
  (let u : UnitRef := { cls := 2, idx := 31 }
   u.cls.val ≠ 15) ∧
  (let i : Die := .west
   let u : UnitRef := { cls := 15, idx := 0 }
   let s : State := State.reset
   let x := (s.get i).unitError 15 u.idx
   u.cls.val = 15 ∧ x.fences.contains 79 = true) ∧
  (let a : Acc := wCore
   let s : State := State.reset
   let d := s.get a.die
   d.regStatus a.req 20 0 0x14 true = .okay ∧ d.bit evtLogCfgEn = false) ∧
  (let a : Acc := wCore
   let v : Word := 0x5A5A
   let s : State := State.reset
   let d := s.get a.die
   d.regStatus a.req 19 0 4 true = .okay ∧ v.toNat % 65536 = 0x5A5A) ∧
  (let a : Acc := wCore
   let v : Word := 0xA5A5
   let s : State := wWest fun d => { d with guard := { d.guard with half := some (unlockId wCore.req) } }
   let d := s.get a.die
   let x := (d.complete a.req (regAddr 19 4) .okay).writeFields 19 (regChan 19 0 (reqCopy a.req) 4) 4 v
   d.regStatus a.req 19 0 4 true = .okay ∧ v.toNat % 65536 = 0xA5A5 ∧ x.guard.half = some (unlockId a.req) ∧ x.bit prtStatOpen = false) ∧
  (let a : Acc := wCore
   let v : Word := 0
   let s : State := wSet prtStatOpen 1
   let d := s.get a.die
   let x := (d.complete a.req (regAddr 19 0xC) .okay).writeFields 19 (regChan 19 0 (reqCopy a.req) 0xC) 0xC (commitWord v 31)
   d.regStatus a.req 19 0 0xC true = .okay ∧ x.bit prtStatOpen = true) ∧
  (let a : Acc := wCore
   let c : Fin 32 := 31
   let v : Word := 0
   let s : State := wSet prtStatOpen 1
   let d := s.get a.die
   let x := (d.complete a.req (regAddr 19 (0x400 + 16 * c)) .okay).writeFields 19 (regChan 19 0 (reqCopy a.req) (0x400 + 16 * c)) (0x400 + 16 * c) (commitWord v 12)
   d.regStatus a.req 19 0 (0x400 + 16 * c) true = .okay ∧ x.bit prtStatOpen = true) ∧
  (let a : Acc := wCore
   let v : Word := 0
   let s : State := wSet prtStatOpen 1
   let d := s.get a.die
   let x := (d.complete a.req (regAddr 19 0x640) .okay).writeFields 19 (regChan 19 0 (reqCopy a.req) 0x640) 0x640 v
   d.regStatus a.req 19 0 0x640 true = .okay ∧ x.bit prtStatOpen = true) ∧
  (let i : Die := .west
   let p : Fin 29 := 28
   let s : State := wSet prtPortBBpOn 1 0 28
   let d := s.get i
   d.rd prtPortBBpOn 0 p ≠ 0) := by
  refine ⟨?_, ?_, ?_, ?_, ?_, ?_, ?_, ?_, ?_⟩ <;> decide

end Sys2Proof.Tests
end

section
/-! Mailboxes (13 R355, R356): what each operation of a direction does to the words that wait there, and the order in which
they are read. -/

namespace Sys2Proof.Machine

/-! ### Registers whose write has no field to store -/

/-- A field that is read-only, write-only or read-to-clear stores nothing under a write of its register. -/
theorem DieState.writeField_of_not_stored (d : DieState) {f : Fld} (ch i j : Nat) (v : Word)
    (h : f.acs = .ro ∨ f.acs = .wo ∨ f.acs = .rc) : d.writeField f ch i j v = d := by
  unfold DieState.writeField
  rcases h with h | h | h <;> simp [h]

/-- A write of a register with no stored field leaves the die as it was, outside PRT, whose writes go by the unlock keys (17 R439). -/
theorem DieState.writeFields_of_not_stored (d : DieState) {blk off : Nat} (ch : Nat) (v : Word) (hblk : blk ≠ 19)
    (h : ∀ p ∈ fieldsAt blk off, p.1.acs = .ro ∨ p.1.acs = .wo ∨ p.1.acs = .rc) : d.writeFields blk ch off v = d := by
  have hfold : (fieldsAt blk off).foldl (fun d p => d.writeField p.1 ch p.2.1 p.2.2 v) d = d :=
    List.foldlRecOn (motive := (· = d)) _ _ rfl fun _ hx p hp =>
      (DieState.writeField_of_not_stored _ ch _ _ v (h p hp)).trans hx
  have hrws : (fieldsAt blk off).any (fun p => decide (p.1.acs = .rws)) = false := by
    refine List.any_eq_false.mpr fun p hp => ?_
    rcases h p hp with e | e | e <;> simp [e]
  simp [DieState.writeFields, DieState.prtShut, hblk, hfold, hrws]

/-- MBX.TX stores nothing: its word goes to the direction (13 Table 13.7). -/
theorem DieState.writeFields_mbxTx (d : DieState) (ch : Nat) (v : Word) : d.writeFields 13 ch 0x110 v = d :=
  DieState.writeFields_of_not_stored d ch v (by decide) (by decide)

/-! ### The words of a direction -/

@[simp] theorem DieState.mbWords_complete_okay (d : DieState) (q : Requester) (a v m e : Nat) :
    (d.complete q a .okay v).mbWords m e = d.mbWords m e := rfl

@[simp] theorem DieState.setMb_bus (d : DieState) (m e : Nat) (ws : List Word) (b : Bool) : (d.setMb m e ws b).bus = d.bus := rfl

theorem DieState.mbWords_setMb_same (d : DieState) (m e : Nat) (ws : List Word) (b : Bool) (h : Tab.sorted 0 d.host.mbx = true) :
    (d.setMb m e ws b).mbWords m e = ws := Tab.get_put_same_of_sorted _ _ h

theorem DieState.mbx_setMb_other (d : DieState) (m e : Nat) (ws : List Word) (b : Bool) (h : Tab.sorted 0 d.host.mbx = true)
    {k : Nat} (hk : k ≠ 2 * m + e) : Tab.get [] (d.setMb m e ws b).host.mbx k = Tab.get [] d.host.mbx k :=
  Tab.get_put_other_of_sorted _ h hk

theorem DieState.sorted_setMb (d : DieState) (m e : Nat) (ws : List Word) (b : Bool) (h : Tab.sorted 0 d.host.mbx = true) :
    Tab.sorted 0 (d.setMb m e ws b).host.mbx = true := Tab.sorted_put _ _ h

/-- A direction with room takes a word behind those that wait. -/
theorem DieState.mbSend_room (d : DieState) {m e : Nat} (v : Word) (h : (d.mbWords m e).length < 8) :
    d.mbSend m e [v] = (true, d.setMb m e (d.mbWords m e ++ [v]) (d.mbWords m e).isEmpty) :=
  if_neg (by simp only [List.length_singleton]; omega)

/-- A full direction takes no word. -/
theorem DieState.mbSend_full (d : DieState) {m e : Nat} (v : Word) (h : 8 ≤ (d.mbWords m e).length) :
    d.mbSend m e [v] = (false, d) :=
  if_pos (by simp only [List.length_singleton]; omega)

/-- An end takes the oldest word of its inbound direction. -/
theorem DieState.mbTake_cons (d : DieState) {m e : Nat} {v : Word} {rest : List Word} (h : d.mbWords m (1 - e) = v :: rest) :
    d.mbTake m e 1 = some ([v], d.setMb m (1 - e) rest true) := by
  simp [DieState.mbTake, h]

/-- Nothing is taken from an empty direction. -/
theorem DieState.mbTake_nil (d : DieState) {m e : Nat} (h : d.mbWords m (1 - e) = []) : d.mbTake m e 1 = none := by
  simp [DieState.mbTake, h]

/-! ### The registers TX and RX -/

theorem exec_mbTx (a : Acc) (m : Fin 16) (v : Word) (s : State) : exec (.mbTx a m v) s = execMbTx a m v s := rfl

theorem exec_mbRx (a : Acc) (m : Fin 16) (s : State) : exec (.mbRx a m) s = execMbRx a m s := rfl

/-- A command on one die is known by what it makes of that die's present state. -/
theorem State.doOn_eq_next {s : State} {i : Die} {f g : DieState → DieState} (h : f (s.get i) = g (s.get i)) :
    s.doOn i f = .next (s.on i g) := by
  simp only [State.doOn, State.on, h]

/-- A write of MBX.TX by an end, into a direction with room. -/
theorem exec_mbTx_room (a : Acc) (m : Fin 16) {e : Nat} (v : Word) (s : State)
    (hst : (s.get a.die).regStatus a.req 13 m 0x110 true = .okay) (he : (s.get a.die).mbEnd m (reqId a.req) = some e)
    (hroom : ((s.get a.die).mbWords m e).length < 8) :
    exec (.mbTx a m v) s = .next (s.on a.die fun d => (d.complete a.req (regAddr 13 0x110) .okay).setMb m e
      (d.mbWords m e ++ [v]) (d.mbWords m e).isEmpty) := by
  refine (exec_mbTx a m v s).trans (State.doOn_eq_next ?_)
  have hroom' : (((s.get a.die).complete a.req (regAddr 13 0x110) .okay).mbWords m e).length < 8 := hroom
  simp only [DieState.mbWrite, he, Option.isNone_some, Option.getD_some]
  rw [DieState.writeReg_okay _ _ _ _ _ _ _ hst, DieState.writeFields_mbxTx, DieState.mbSend_room _ v hroom']
  simp

/-- A read of MBX.RX by an end whose inbound direction has words. -/
theorem exec_mbRx_cons (a : Acc) (m : Fin 16) {e : Nat} {v : Word} {rest : List Word} (s : State)
    (hst : (s.get a.die).regStatus a.req 13 m 0x114 false = .okay) (he : (s.get a.die).mbEnd m (reqId a.req) = some e)
    (hws : (s.get a.die).mbWords m (1 - e) = v :: rest) :
    exec (.mbRx a m) s = .next (s.on a.die fun d =>
      (d.complete a.req (regAddr 13 0x114) .okay v.toNat).setMb m (1 - e) rest true) := by
  refine (exec_mbRx a m s).trans (State.doOn_eq_next ?_)
  simp only [DieState.mbRead, hst, he, hws, List.headD_cons]
  rw [DieState.mbTake_cons _ ((DieState.mbWords_complete_okay ..).trans hws)]

/-! ### Runs of writes and reads -/

/-- The words read, then those left, are the words that waited, then those that entered. By induction on the accesses: a word that
enters moves behind the waiting words, a word that is read moves from their front to the words read, and a refused access moves
none. -/
theorem DieState.mbRun_conserves (m e : Nat) (he : e ≤ 1) (cs : List (Option Word)) (d : DieState)
    (hs : Tab.sorted 0 d.host.mbx = true) :
    (d.mbRun m e cs).2.2 ++ (d.mbRun m e cs).1.mbWords m e = d.mbWords m e ++ (d.mbRun m e cs).2.1 := by
  have hend : 1 - (1 - e) = e := by omega
  induction cs generalizing d with
  | nil => simp [DieState.mbRun]
  | cons c cs ih =>
    cases c with
    | some v =>
      rcases lt_or_ge (d.mbWords m e).length 8 with hlen | hlen
      · have := ih _ (d.sorted_setMb m e (d.mbWords m e ++ [v]) (d.mbWords m e).isEmpty hs)
        rw [DieState.mbWords_setMb_same _ _ _ _ _ hs] at this
        simpa [DieState.mbRun, DieState.mbSend_room d v hlen] using this
      · simpa [DieState.mbRun, DieState.mbSend_full d v hlen] using ih d hs
    | none =>
      cases hws : d.mbWords m e with
      | nil =>
        have htake : d.mbTake m (1 - e) 1 = none := DieState.mbTake_nil d (by rw [hend, hws])
        simpa [DieState.mbRun, htake, hws] using ih d hs
      | cons v rest =>
        have htake : d.mbTake m (1 - e) 1 = some ([v], d.setMb m e rest true) := by
          rw [DieState.mbTake_cons d (by rw [hend, hws]), hend]
        have := ih _ (d.sorted_setMb m e rest true hs)
        rw [DieState.mbWords_setMb_same _ _ _ _ _ hs] at this
        simpa [DieState.mbRun, htake] using this

/-- Settles O8: a write and a read by the equations of TX and RX, runs by the conservation of words. -/
theorem mailboxWordsKeepTheirOrder : Obligations.MailboxWordsKeepTheirOrder := by
  refine ⟨fun a m e v s hs hst he hroom => ⟨_, exec_mbTx_room a m v s hst he hroom, ?_, fun k hk => ?_⟩,
    fun a m e v rest s hs hst he hws => ⟨_, exec_mbRx_cons a m s hst he hws, ?_, ?_, fun k hk => ?_⟩,
    fun d m e cs he hs => DieState.mbRun_conserves m e he cs d hs⟩
  all_goals rw [State.get_on_same]
  · exact DieState.mbWords_setMb_same _ _ _ _ _ hs
  · exact DieState.mbx_setMb_other _ _ _ _ _ hs hk
  · rfl
  · exact DieState.mbWords_setMb_same _ _ _ _ _ hs
  · exact DieState.mbx_setMb_other _ _ _ _ _ hs hk

end Sys2Proof.Machine
end

section
/-! Select registers (02 R41, R42) and hardware semaphores (02 R45 to R47): where the copies of a select register stand, what a
write of one and a reset of its hall do to the selections, and what the semaphore commands answer. -/

namespace Sys2Proof.Machine

/-! ### Accesses with a meaning of their own -/

/-- An access that begins with OKAY completes, then the register acts. -/
theorem DieState.actReg_okay (d : DieState) (q : Requester) (blk ch off : Nat) (write : Bool) (v : Nat) (act : DieState → DieState)
    (h : d.regStatus q blk ch off write = .okay) :
    d.actReg q blk ch off write v act = act (d.complete q (regAddr blk off) .okay v) := by
  simp [DieState.actReg, h]

/-! ### Requesters and windowed blocks -/

/-- A local requester's copy has its ID as number; the copies from 32 on are those of the remote die, whose ID is 17. -/
theorem reqId_eq (r : Requester) : reqId r = if 32 ≤ reqCopy r then 17 else reqCopy r := by
  cases r with
  | core c _ => exact (if_neg (by simp only [reqCopy, reqId]; omega)).symm
  | remote o _ => exact (if_pos (Nat.le_add_right 32 o)).symm
  | pcie => rfl
  | darkroom => rfl
  | debug => rfl

/-- The copies from 32 on are in the order of the originating IDs. -/
theorem reqOrigin_eq (r : Requester) : reqOrigin r = reqCopy r - 32 := by
  cases r <;> simp only [reqOrigin, reqCopy, reqId] <;> omega

/-- The number of a copy tells whose it is. -/
theorem reqId_reqOrigin_of_reqCopy {p q : Requester} (h : reqCopy p = reqCopy q) : reqId p = reqId q ∧ reqOrigin p = reqOrigin q :=
  ⟨by rw [reqId_eq, h, ← reqId_eq], by rw [reqOrigin_eq, h, ← reqOrigin_eq]⟩

@[simp] theorem winOf_winCls (b : WinBlock) : winOf (winCls b) = some b := by cases b <;> rfl

theorem winCls_inj {b k : WinBlock} (h : winCls b = winCls k) : b = k := by
  simpa using congrArg winOf h

theorem winCls_lt (b : WinBlock) : winCls b < 32 := by cases b <;> decide

theorem winCls_ne_zero (b : WinBlock) : winCls b ≠ 0 := by cases b <;> decide

theorem hallOfBlock_winCls_ne_stw (b : WinBlock) : hallOfBlock (winCls b) ≠ .stw := by cases b <;> decide

theorem winIndex_width (b : WinBlock) : (winFields b).1.width = 8 := by cases b <;> rfl

theorem winIndex_reset (b : WinBlock) : (winFields b).1.reset = 0 := by cases b <;> rfl

/-- INDEX stands in the lowest bits of the block's first register. -/
theorem winIndex_key (b : WinBlock) (c : Nat) : (winFields b).1.key c 0 0 = (c * 32 + winCls b) * 33554432 := by
  cases b <;> simp [Fld.key, winFields, winCls, canSelIndex, linSelIndex, ethSelIndex, fkeSelIndex, mbxSelIndex, qbkSelIndex, Nat.mul_assoc]

/-- ERR stands in the highest bit of the same register. -/
theorem winErr_key (b : WinBlock) (c : Nat) : (winFields b).2.key c 0 0 = (c * 32 + winCls b) * 33554432 + 31 := by
  cases b <;> simp [Fld.key, winFields, winCls, canSelErr, linSelErr, ethSelErr, fkeSelErr, mbxSelErr, qbkSelErr, Nat.mul_assoc]

/-- INDEX and ERR are two fields, in whichever copies and blocks. -/
theorem winIndex_key_ne_winErr_key (b k : WinBlock) (c c' : Nat) : (winFields k).1.key c' 0 0 ≠ (winFields b).2.key c 0 0 := by
  rw [winIndex_key, winErr_key]
  omega

/-- The INDEX of another copy or of another block is another field. -/
theorem winIndex_key_ne {b k : WinBlock} {c c' : Nat} (h : c' ≠ c ∨ k ≠ b) :
    (winFields k).1.key c' 0 0 ≠ (winFields b).1.key c 0 0 := by
  rw [winIndex_key, winIndex_key]
  intro e
  have hb := winCls_lt b
  have hk := winCls_lt k
  have hc : c' = c := by omega
  have hcls : winCls k = winCls b := by omega
  exact h.elim (· hc) (· (winCls_inj hcls))

/-! ### The selection and writes of a select register -/

theorem DieState.selected_winCls (d : DieState) (q : Requester) (k : WinBlock) :
    d.selected q (winCls k) = d.rd (winFields k).1 (reqCopy q) := by
  simp [DieState.selected]

/-- ERR of any copy selects nothing. -/
theorem DieState.selected_wr_winErr (d : DieState) (b k : WinBlock) (q : Requester) (v c : Nat) (h : Tab.sorted 0 d.regs = true) :
    (d.wr (winFields b).2 v c).selected q (winCls k) = d.selected q (winCls k) := by
  simp only [DieState.selected_winCls]
  exact d.rd_wr_other _ _ _ _ _ _ _ _ _ h (winIndex_key_ne_winErr_key b k c _)

/-- A value within the range is selected for the writer. -/
theorem DieState.selected_select_same (d : DieState) (r : Requester) (b : WinBlock) (v : Word) (h : Tab.sorted 0 d.regs = true) :
    (d.select b (reqCopy r) v).selected r (winCls b) =
      if v.toNat % 256 < winCount b then v.toNat % 256 else d.selected r (winCls b) := by
  simp only [DieState.select]
  split
  · rw [DieState.selected_wr_winErr _ _ _ _ _ _ (d.sorted_wr _ _ _ _ _ h), DieState.selected_winCls, d.rd_wr_same _ _ _ _ _ h,
      winIndex_width]
    exact Nat.mod_mod _ _
  · exact d.selected_wr_winErr _ _ _ _ _ h

/-- No other copy and no other block changes its selection. -/
theorem DieState.selected_select_other (d : DieState) {q : Requester} {b k : WinBlock} {c : Nat} (v : Word)
    (h : Tab.sorted 0 d.regs = true) (hne : reqCopy q ≠ c ∨ k ≠ b) :
    (d.select b c v).selected q (winCls k) = d.selected q (winCls k) := by
  simp only [DieState.select]
  split
  · rw [DieState.selected_wr_winErr _ _ _ _ _ _ (d.sorted_wr _ _ _ _ _ h)]
    simp only [DieState.selected_winCls]
    exact d.rd_wr_other _ _ _ _ _ _ _ _ _ h (winIndex_key_ne hne)
  · exact d.selected_wr_winErr _ _ _ _ _ h

/-- SEL_WRITE by a requester whose access begins with OKAY. -/
theorem exec_selWrite_okay (a : Acc) (b : WinBlock) (v : Word) (s : State)
    (h : (s.get a.die).regStatus a.req (winCls b) 0 0 true = .okay) :
    exec (.selWrite a b v) s =
      .next (s.on a.die fun d => (d.complete a.req (regAddr (winCls b) 0) .okay).select b (reqCopy a.req) v) :=
  State.doOn_eq_next (DieState.actReg_okay _ _ _ _ _ _ _ _ h)

/-! ### The reset of a hall -/

/-- A key that no entry of a table has is not listed. -/
theorem Tab.get?_eq_none_of_forall_ne {α : Type} {t : Tab α} {k : Nat} (h : ∀ e ∈ t, e.1 ≠ k) : t.get? k = none := by
  induction t with
  | nil => rfl
  | cons e r ih =>
    have hne : k ≠ e.1 := (h e List.mem_cons_self).symm
    simp [Tab.get?, hne, ih fun x hx => h x (List.mem_cons_of_mem _ hx)]

/-- Entries put into a table one by one leave every other key alone. -/
theorem Tab.get?_foldl_insert_other {α : Type} {es t : Tab α} {k : Nat} (h : ∀ e ∈ es, e.1 ≠ k) :
    (es.foldl (fun t e => Tab.insert t e.1 e.2) t).get? k = t.get? k :=
  List.foldlRecOn (motive := fun x : Tab α => x.get? k = t.get? k) es _ rfl fun x hx e he =>
    (Tab.get?_insert_other x e.2 (h e he).symm).trans hx

/-- A field of a cleared hall holds its reset value, where the reset lists no value of its own for it. -/
theorem DieState.rd_regsClear (d : DieState) {h : Hall} {f : Fld} {ch i j : Nat} (hh : keyHall (f.key ch i j) = h)
    (hr : ∀ e ∈ resetRegs (decide (d.die = .east)), e.1 ≠ f.key ch i j) : (d.regsClear h).rd f ch i j = f.reset := by
  have hbase : ∀ e ∈ (resetRegs (decide (d.die = .east))).filter fun e : Nat × Nat => decide (keyHall e.1 = h),
      e.1 ≠ f.key ch i j := fun e he => hr e (List.mem_of_mem_filter he)
  have hkeep : ∀ e ∈ d.regs.filter fun e : Nat × Nat => decide (keyHall e.1 ≠ h), e.1 ≠ f.key ch i j := by
    intro e he heq
    exact of_decide_eq_true (List.mem_filter.mp he).2 (heq ▸ hh)
  unfold DieState.rd DieState.regsClear Tab.get
  rw [Tab.get?_foldl_insert_other hbase, Tab.get?_eq_none_of_forall_ne hkeep]
  rfl

/-- Outside the Stairwell hall, a reset leaves in the register file what the clearing of the hall's registers leaves. -/
theorem DieState.rd_hallClear (d : DieState) {h : Hall} (f : Fld) (ch i j : Nat) (hs : h ≠ .stw) :
    (d.hallClear h).rd f ch i j = ((d.unitsClear h).regsClear h).rd f ch i j := by
  simp only [DieState.hallClear, if_neg hs, DieState.rd]

/-- Of the registers at the start of a block, the reset lists a field of SYS (IDENT) at most. -/
theorem keyBlk_eq_zero_of_mem_resetRegs (east : Bool) : ∀ e ∈ resetRegs east, keyOff e.1 = 0 → keyBlk e.1 = 0 := by
  cases east <;> decide

theorem keyOff_winIndex (b : WinBlock) (c : Nat) : keyOff ((winFields b).1.key c 0 0) = 0 := by
  rw [winIndex_key, keyOff]
  omega

theorem keyBlk_winIndex (b : WinBlock) (c : Nat) : keyBlk ((winFields b).1.key c 0 0) = winCls b := by
  have := winCls_lt b
  rw [winIndex_key, keyBlk]
  omega

/-- The reset lists no INDEX. -/
theorem ne_winIndex_key_of_mem_resetRegs (b : WinBlock) (c : Nat) (east : Bool) :
    ∀ e ∈ resetRegs east, e.1 ≠ (winFields b).1.key c 0 0 := by
  intro e he heq
  have h0 := keyBlk_eq_zero_of_mem_resetRegs east e he (by rw [heq, keyOff_winIndex])
  rw [heq, keyBlk_winIndex] at h0
  exact winCls_ne_zero b h0

/-- Every copy of a select register stands in its block's hall. -/
theorem keyHall_winIndex (b : WinBlock) (c : Nat) : keyHall ((winFields b).1.key c 0 0) = hallOfBlock (winCls b) := by
  simp [keyHall, hallOfReg, keyOff_winIndex, keyBlk_winIndex]

/-- The copies of a block select channel 0 after a reset of its hall. -/
theorem DieState.selected_hallClear (d : DieState) (b : WinBlock) (q : Requester) :
    (d.hallClear (hallOfBlock (winCls b))).selected q (winCls b) = 0 := by
  rw [DieState.selected_winCls, DieState.rd_hallClear _ _ _ _ _ (hallOfBlock_winCls_ne_stw b),
    DieState.rd_regsClear _ (keyHall_winIndex b _) (ne_winIndex_key_of_mem_resetRegs b _ _), winIndex_reset]

/-- Settles O7: the copies are told apart by their numbers, a write by the fields INDEX and ERR, a reset by the hall of INDEX. -/
theorem selectCopiesAreSeparate : Obligations.SelectCopiesAreSeparate := by
  refine ⟨fun _ _ => reqId_reqOrigin_of_reqCopy, fun a b v s hs hst => ?_, DieState.selected_hallClear⟩
  refine ⟨_, exec_selWrite_okay a b v s hst, ?_, fun q k hne => ?_, State.get_on_other _ _ _⟩
  all_goals rw [State.get_on_same]
  · exact DieState.selected_select_same _ _ _ _ hs
  · exact DieState.selected_select_other _ _ hs hne

/-! ### Semaphores -/

/-- A read of SEM_n that begins with OKAY returns the owner + 1, or 0 with the grant. -/
theorem exec_semClaim_okay (a : Acc) (n : Fin 64) (s : State)
    (h : (s.get a.die).regStatus a.req 0 0 (0x100 + 4 * n) false = .okay) :
    exec (.semClaim a n) s = .next (s.on a.die fun d =>
      let x := d.complete a.req (regAddr 0 (0x100 + 4 * n)) .okay (d.sem n)
      if d.sem n = 0 then x.semGrant a.req n else x) :=
  State.doOn_eq_next (DieState.readReg_okay _ _ _ _ _ _ _ h)

/-- A write of SEM_n that begins with OKAY frees the semaphore if it is a write of 0 by the owner, else it is a bad release. -/
theorem exec_semRelease_okay (a : Acc) (n : Fin 64) (v : Word) (s : State)
    (h : (s.get a.die).regStatus a.req 0 0 (0x100 + 4 * n) true = .okay) :
    exec (.semRelease a n v) s = .next (s.on a.die fun d =>
      let x := d.complete a.req (regAddr 0 (0x100 + 4 * n)) .okay
      if v = 0 ∧ d.ownsSem a.req n = true then x.semFree n
      else x.raise 0x0021 (n + v.toNat % 2 ^ 24 * 256) 0 (reqId a.req) (d.secure a.req)) :=
  State.doOn_eq_next (DieState.actReg_okay _ _ _ _ _ _ _ _ h)

/-- A write of SEM_FORCE that begins with OKAY forces the semaphore it names. -/
theorem exec_semForce_okay (a : Acc) (n : Fin 64) (s : State) (h : (s.get a.die).regStatus a.req 0 0 0xFC true = .okay) :
    exec (.semForce a n) s = .next (s.on a.die fun d =>
      ((d.complete a.req (regAddr 0 0xFC) .okay).writeFields 0 0 0xFC (BitVec.ofNat 32 n)).semForced n) :=
  State.doOn_eq_next (DieState.writeReg_okay _ _ _ _ _ _ _ h)

/-- The owner is told by its ID and its originating ID. -/
theorem DieState.ownsSem_iff (d : DieState) (r : Requester) (n : Nat) :
    d.ownsSem r n = true ↔ d.sem n = reqId r + 1 ∧ d.rd sysSemPeekOrigin 0 n = reqOrigin r := by
  simp [DieState.ownsSem]

/-- A held semaphore that is forced becomes free, with SEM_FORCED naming its owner. -/
theorem DieState.semForced_held (d : DieState) {n : Nat} (h : d.sem n ≠ 0) :
    d.semForced n = (d.semFree n).raise 0x0020 (n + (d.sem n - 1) * 256 + d.rd sysSemPeekOrigin 0 n * 65536) := if_neg h

/-- Settles O18: the read by the grant, the write by the owner's two numbers, the forced release by the semaphore being held. -/
theorem semaphoreCommandsComplete : Obligations.SemaphoreCommandsComplete := by
  refine ⟨fun a n s hst => ⟨fun hfree => ?_, fun hheld => ?_⟩, fun a n v s hst => ⟨fun hv hid horg => ?_, fun hbad => ?_⟩,
    fun a n s hst hheld => ?_⟩
  · simp only [exec_semClaim_okay a n s hst, State.on, hfree, if_true]
    rfl
  · simp only [exec_semClaim_okay a n s hst, State.on, hheld, if_false]
  · have hown : (s.get a.die).ownsSem a.req n = true := (DieState.ownsSem_iff ..).mpr ⟨hid, horg⟩
    rw [exec_semRelease_okay a n v s hst, State.on, if_pos ⟨hv, hown⟩]
    rfl
  · rw [← DieState.ownsSem_iff] at hbad
    rw [exec_semRelease_okay a n v s hst, State.on, if_neg hbad]
  · rw [exec_semForce_okay a n s hst, State.on, DieState.semForced_held _ hheld]
    rfl

end Sys2Proof.Machine
end

section
/-! The stamp rule of the Gallery (05 R117): what of an applied write leaves the Gallery as it was, what it puts into the slots it
names, and what a refused one leaves. -/

namespace Sys2Proof.Machine

/-! ### What leaves the Gallery as it was -/

theorem DieState.gal_eq_of_core_eq {d e : DieState} (h : d.core = e.core) : d.gal = e.gal :=
  congrArg (fun c => c.2.2.2.2.2.2.2.2.1) h

theorem DieState.galSlot_eq_of_gal_eq {d e : DieState} (h : d.gal = e.gal) (k : Nat) : d.galSlot k = e.galSlot k := by
  rw [DieState.galSlot, DieState.galSlot, h]

@[simp] theorem DieState.raise_gal (d : DieState) (code info unit id : Nat) (sec : Bool) (hi : Nat) :
    (d.raise code info unit id sec hi).gal = d.gal := DieState.gal_eq_of_core_eq (DieState.core_raise ..)

@[simp] theorem DieState.raiseHeld_gal (d : DieState) (code scope lim info unit : Nat) :
    (d.raiseHeld code scope lim info unit).gal = d.gal := DieState.gal_eq_of_core_eq (DieState.core_raiseHeld ..)

@[simp] theorem DieState.engineEvent_gal (d : DieState) (cl : Nat) (e : EngEvent) : (d.engineEvent cl e).gal = d.gal :=
  DieState.gal_eq_of_core_eq (DieState.core_engineEvent ..)

/-- Steps that each leave the Gallery as it was do so one after another. -/
theorem DieState.foldl_gal {α : Type} {f : DieState → α → DieState} (h : ∀ d a, (f d a).gal = d.gal) (l : List α)
    (d : DieState) : (l.foldl f d).gal = d.gal :=
  List.foldlRecOn (motive := fun x => x.gal = d.gal) l f rfl fun x hx a _ => (h x a).trans hx

/-! The outcome of a host put -/

@[simp] theorem DieState.complete_gal (d : DieState) (q : Requester) (a v : Nat) (st : Status) :
    (d.complete q a st v).gal = d.gal := by
  simp only [DieState.complete]
  split <;> simp

@[simp] theorem DieState.lateCapture_gal (d : DieState) (p : PendAcc) : (d.lateCapture p).gal = d.gal := by
  simp only [DieState.lateCapture]
  split <;> simp

@[simp] theorem DieState.answerAcc_gal (d : DieState) (tag : Nat) (st : Status) (v : Nat) : (d.answerAcc tag st v).gal = d.gal := by
  simp only [DieState.answerAcc]
  split
  · rfl
  · split <;> simp

@[simp] theorem DieState.hostOutcome_gal (d : DieState) (r : GalReq) (res : PutRes) : (d.hostOutcome r res).gal = d.gal := by
  simp only [DieState.hostOutcome]
  split
  · rfl
  · split
    · simp
    · split <;> simp

/-! The watches of a slot -/

@[simp] theorem DieState.watchOne_gal (d : DieState) (n h : Nat) (old new : Slot) (update : Bool) (origin : Nat) :
    (d.watchOne n h old new update origin).gal = d.gal := by
  simp only [DieState.watchOne]
  split <;> split <;> simp

@[simp] theorem DieState.watchSlot_gal (d : DieState) (h : Nat) (old new : Slot) (update : Bool) (origin : Nat) :
    (d.watchSlot h old new update origin).gal = d.gal :=
  DieState.foldl_gal (fun _ _ => DieState.watchOne_gal ..) _ d

/-! The phase inputs in MSG mode (10 R263) -/

@[simp] theorem DieState.onPhase_gal (d : DieState) (k : Nat) (g : Phase → Phase) : (d.onPhase k g).gal = d.gal := rfl

@[simp] theorem DieState.follow_gal (d : DieState) (k : Nat) (x y : Phase) (n : Nat) : (d.follow k x y n).gal = d.gal := by
  simp only [DieState.follow]
  split <;> simp

@[simp] theorem DieState.setPhase_gal (d : DieState) (k : Nat) (y : Phase) : (d.setPhase k y).gal = d.gal :=
  (DieState.foldl_gal (fun _ _ => DieState.follow_gal ..) _ _).trans (DieState.onPhase_gal ..)

@[simp] theorem DieState.noteBw_gal (d : DieState) (k : Nat) (bw : Rat) : (d.noteBw k bw).gal = d.gal := by
  simp only [DieState.noteBw]
  split <;> simp

@[simp] theorem DieState.acquire_gal (d : DieState) (k m te : Nat) : (d.acquire k m te).gal = d.gal := by
  simp only [DieState.acquire, DieState.wr_gal, DieState.setPhase_gal]

@[simp] theorem DieState.acquireRate_gal (d : DieState) (k m te : Nat) : (d.acquireRate k m te).gal = d.gal := by
  simp only [DieState.acquireRate, DieState.setPhase_gal]
  split <;> simp

@[simp] theorem DieState.track_gal (d : DieState) (k m te : Nat) : (d.track k m te).gal = d.gal := by
  simp only [DieState.track, DieState.noteBw_gal, DieState.setPhase_gal]

@[simp] theorem DieState.measure_gal (d : DieState) (k m te : Nat) : (d.measure k m te).gal = d.gal := by
  unfold DieState.measure
  split
  · simp
  · split
    · split <;> simp
    · simp

@[simp] theorem DieState.phaseUpdate_gal (d : DieState) (h value stamp : Nat) : (d.phaseUpdate h value stamp).gal = d.gal :=
  DieState.foldl_gal (fun x _ => by split <;> simp) _ d

/-! What follows an update -/

@[simp] theorem DieState.galUpdated_gal (d : DieState) (h : Nat) (old : Slot) (origin : Nat) :
    (d.galUpdated h old origin).gal = d.gal := by
  simp only [DieState.galUpdated, DieState.phaseUpdate_gal, DieState.watchSlot_gal]

@[simp] theorem DieState.galReturn_gal (d : DieState) (r : GalReq) (rd : Nat) (old : Word) (ok : Option Bool) :
    (d.galReturn r rd old ok).gal = d.gal := by
  simp only [DieState.galReturn]
  split <;> simp

/-! ### Updates of slots -/

/-- A slot after an update (R117): SEQ counts, SUBH and PROFILE stay. -/
def Slot.updated (x : Slot) (v stamp : Word) (status source : Nat) : Slot :=
  { x with value := v, stamp := stamp, seq := (x.seq + 1) % 65536, status := status, source := source }

theorem Slot.passes_iff (x : Slot) (stamp : Word) : x.passes stamp = true ↔ x.status = 0 ∨ 0 ≤ (stamp - x.stamp).toInt := by
  simp [Slot.passes]

theorem DieState.slots_galUpdate (d : DieState) (h : Nat) (v stamp : Word) (status source : Nat) :
    (d.galUpdate h v stamp status source).gal.slots =
      Tab.put {} d.gal.slots h ((d.galSlot h).updated v stamp status source) := rfl

section
variable {d : DieState} {stamp : Word} {status source : Nat} (hs : Tab.sorted 0 d.gal.slots = true)
include hs

theorem DieState.sorted_galUpdate (h : Nat) (v : Word) :
    Tab.sorted 0 (d.galUpdate h v stamp status source).gal.slots = true := Tab.sorted_put _ _ hs

theorem DieState.galSlot_galUpdate_same (h : Nat) (v : Word) :
    (d.galUpdate h v stamp status source).galSlot h = (d.galSlot h).updated v stamp status source :=
  Tab.get_put_same_of_sorted _ _ hs

theorem DieState.galSlot_galUpdate_other {h k : Nat} (v : Word) (hk : k ≠ h) :
    (d.galUpdate h v stamp status source).galSlot k = d.galSlot k :=
  Tab.get_put_other_of_sorted _ hs hk

end

/-- Slots take updates one after another, as those of a put or group do. -/
def DieState.galUpdates (d : DieState) (l : List (Nat × Word)) (stamp : Word) (status source : Nat) : DieState :=
  l.foldl (fun d p => d.galUpdate p.1 p.2 stamp status source) d

/-- A slot that is not listed stays as it was. -/
theorem DieState.galSlot_galUpdates_other {d : DieState} {l : List (Nat × Word)} {stamp : Word} {status source h : Nat}
    (hs : Tab.sorted 0 d.gal.slots = true) (hh : h ∉ l.map Prod.fst) :
    (d.galUpdates l stamp status source).galSlot h = d.galSlot h := by
  induction l generalizing d with
  | nil => rfl
  | cons p l ih =>
    obtain ⟨hp, hl⟩ : h ≠ p.1 ∧ h ∉ l.map Prod.fst := by simpa using hh
    exact (ih (DieState.sorted_galUpdate hs p.1 p.2) hl).trans (DieState.galSlot_galUpdate_other hs p.2 hp)

/-- Where the listed slots differ from one another, each takes its value. -/
theorem DieState.galSlot_galUpdates_mem {d : DieState} {l : List (Nat × Word)} {stamp : Word} {status source h : Nat} {v : Word}
    (hs : Tab.sorted 0 d.gal.slots = true) (hnd : (l.map Prod.fst).Nodup) (hm : (h, v) ∈ l) :
    (d.galUpdates l stamp status source).galSlot h = (d.galSlot h).updated v stamp status source := by
  induction l generalizing d with
  | nil => simp at hm
  | cons p l ih =>
    obtain ⟨hp, hnd⟩ := List.nodup_cons.mp hnd
    have hs' := DieState.sorted_galUpdate (stamp := stamp) (status := status) (source := source) hs p.1 p.2
    rcases List.mem_cons.mp hm with rfl | hm
    · exact (DieState.galSlot_galUpdates_other hs' hp).trans (DieState.galSlot_galUpdate_same hs h v)
    · have hne : h ≠ p.1 := fun e => hp (e ▸ List.mem_map_of_mem (f := Prod.fst) hm)
      exact (ih hs' hnd hm).trans
        (congrArg (Slot.updated · v stamp status source) (DieState.galSlot_galUpdate_other hs p.2 hne))

/-! ### Puts and groups -/

theorem GalReq.handles_of_put {r : GalReq} {vals : List Word} {stamp : Word} {status : Nat} (h : r.op = .put vals stamp status) :
    r.handles = (List.range vals.length).map (r.handle + ·) := by
  simp [GalReq.handles, h]

/-- The slots of a put or group differ from one another. -/
theorem GalReq.nodup_handles (r : GalReq) : r.handles.Nodup := by
  unfold GalReq.handles
  split
  · exact List.nodup_range.map fun _ _ h => Nat.add_left_cancel h
  · exact List.nodup_singleton _
  · exact List.nodup_singleton _

/-- A put or group pairs each of its slots with one value. -/
theorem GalReq.map_fst_zip_handles {r : GalReq} {vals : List Word} {stamp : Word} {status : Nat}
    (h : r.op = .put vals stamp status) : (r.handles.zip vals).map Prod.fst = r.handles :=
  List.map_fst_zip (by simp [GalReq.handles_of_put h])

/-- The k-th value of a put or group is for the k-th slot from its first. -/
theorem GalReq.mem_zip_handles {r : GalReq} {vals : List Word} {stamp v : Word} {status k : Nat}
    (h : r.op = .put vals stamp status) (hv : vals[k]? = some v) : (r.handle + k, v) ∈ r.handles.zip vals := by
  obtain ⟨hk, -⟩ := List.getElem?_eq_some_iff.mp hv
  refine List.mem_of_getElem? (i := k) (List.getElem?_zip_eq_some.mpr ⟨?_, hv⟩)
  simp [GalReq.handles_of_put h, hk]

/-- A put or group all of whose slots pass leaves in the Gallery what its updates leave. -/
theorem DieState.galPut_gal_of_passes (d : DieState) (r : GalReq) (vals : List Word) (stamp : Word) (status : Nat)
    (h : ∀ k ∈ r.handles, (d.galSlot k).passes stamp = true) :
    (d.galPut r vals stamp status).gal = (d.galUpdates (r.handles.zip vals) stamp status r.source).gal := by
  have hnone : (r.handles.find? fun k => !(d.galSlot k).passes stamp) = none := by simpa using h
  simp only [DieState.galPut, hnone, DieState.hostOutcome_gal]
  exact DieState.foldl_gal (fun _ _ => DieState.galUpdated_gal ..) _ _

/-! ### The write at the head of the pipeline -/

/-- The oldest write of the pipeline leaves it and is applied or refused. -/
theorem exec_galleryWriteApply_cons {i : Die} {r : GalReq} {rest : List GalReq} {s : State} (ho : (s.get i).galOpen = true)
    (hp : (s.get i).gal.pipe = r :: rest) :
    exec (.galleryWriteApply i) s =
      .next (s.on i fun d => ({ d with gal := { d.gal with pipe := rest } } : DieState).galApplyReq r) :=
  State.doOn_eq_next (by simp [DieState.galApply, ho, hp])

theorem DieState.galApplyReq_put {d : DieState} {r : GalReq} {vals : List Word} {stamp : Word} {status : Nat}
    (h : r.op = .put vals stamp status) : d.galApplyReq r = d.galPut r vals stamp status := by
  simp only [DieState.galApplyReq, h]

/-- An add, or a compare-and-swap that finds its old value, leaves in the Gallery the update that keeps STAMP. -/
theorem DieState.galApplyReq_gal_of_atomic {d : DieState} {r : GalReq} {rd : Nat} {a : Word}
    (h : r.op = .add rd a ∨ r.op = .cas rd (d.galSlot r.handle).value ((d.galSlot r.handle).value + a)) :
    (d.galApplyReq r).gal =
      (d.galUpdate r.handle ((d.galSlot r.handle).value + a) (d.galSlot r.handle).stamp 1 r.source).gal := by
  rcases h with h | h <;> simp [DieState.galApplyReq, h, DieState.galAtomic]

/-- Settles O9: a refusal by the first slot that does not pass, an applied put or group by the updates of its slots, which differ
from one another, an atomic by its one update, with the stamp that the slot has. -/
theorem galleryStampRule : Obligations.GalleryStampRule := by
  refine ⟨Slot.passes_iff, ?refused, ?applied, ?atomic⟩
  case refused =>
    intro i r rest vals stamp status h s d x y z ho hp hop hfind
    have hfind' : (r.handles.find? fun h => !(x.galSlot h).passes stamp) = some h := hfind
    have happly : x.galApplyReq r = z := by
      simp only [DieState.galApplyReq_put hop, DieState.galPut, hfind', z, y]
    have hgal : z.gal = x.gal := by simp [z, y]
    refine ⟨?_, by rw [hgal], by rw [hgal]⟩
    rw [exec_galleryWriteApply_cons ho hp, State.on, happly]
  case applied =>
    intro i r rest vals stamp status s d hs ho hp hop hpass
    have hgal := DieState.galPut_gal_of_passes { d with gal := { d.gal with pipe := rest } } r vals stamp status hpass
    have hslot := DieState.galSlot_eq_of_gal_eq hgal
    refine ⟨_, exec_galleryWriteApply_cons ho hp, ?_⟩
    rw [State.get_on_same, DieState.galApplyReq_put hop]
    refine ⟨fun k v hv => (hslot _).trans ?_, fun h hh => (hslot h).trans ?_⟩
    · have hnd : ((r.handles.zip vals).map Prod.fst).Nodup := (GalReq.map_fst_zip_handles hop).symm ▸ r.nodup_handles
      exact DieState.galSlot_galUpdates_mem hs hnd (GalReq.mem_zip_handles hop hv)
    · exact DieState.galSlot_galUpdates_other hs (by rwa [GalReq.map_fst_zip_handles hop])
  case atomic =>
    intro i r rest rd a s d x hs ho hp hop
    have hgal := DieState.galApplyReq_gal_of_atomic (d := { d with gal := { d.gal with pipe := rest } }) hop
    have hslot := DieState.galSlot_eq_of_gal_eq hgal
    refine ⟨_, exec_galleryWriteApply_cons ho hp, ?_⟩
    rw [State.get_on_same]
    exact ⟨(hslot _).trans (DieState.galSlot_galUpdate_same hs _ _), fun h hh =>
      (hslot h).trans (DieState.galSlot_galUpdate_other hs _ hh)⟩

end Sys2Proof.Machine
end

section
/-! The words of the Forrek instructions (04 R85 to R108): what each field of a word reads, for each format of Table 4.3, and that
reading the word of an instruction gives that instruction. -/

namespace Sys2Proof

/-! ### Format RR -/

section
variable {op rd ra rb rc k fn : Nat}

theorem fmtRr_op (h1 : rd < 16) (h2 : ra < 16) (h3 : rb < 16) (h4 : rc < 16) (h5 : k < 32) (h6 : fn < 32) :
    fmtRr op rd ra rb rc k fn / 2 ^ 26 = op := by
  unfold fmtRr
  omega

theorem fmtRr_lt (h0 : op < 64) (h1 : rd < 16) (h2 : ra < 16) (h3 : rb < 16) (h4 : rc < 16) (h5 : k < 32) (h6 : fn < 32) :
    fmtRr op rd ra rb rc k fn < 2 ^ 32 := by
  unfold fmtRr
  omega

theorem regField_fmtRr_rd (h2 : ra < 16) (h3 : rb < 16) (h4 : rc < 16) (h5 : k < 32) (h6 : fn < 32) :
    regField (fmtRr op rd ra rb rc k fn) 22 = Fin.ofNat 16 rd := by
  apply Fin.ext
  simp only [regField, fmtRr, Fin.val_ofNat]
  omega

theorem regField_fmtRr_ra (h3 : rb < 16) (h4 : rc < 16) (h5 : k < 32) (h6 : fn < 32) :
    regField (fmtRr op rd ra rb rc k fn) 18 = Fin.ofNat 16 ra := by
  apply Fin.ext
  simp only [regField, fmtRr, Fin.val_ofNat]
  omega

theorem regField_fmtRr_rb (h4 : rc < 16) (h5 : k < 32) (h6 : fn < 32) :
    regField (fmtRr op rd ra rb rc k fn) 14 = Fin.ofNat 16 rb := by
  apply Fin.ext
  simp only [regField, fmtRr, Fin.val_ofNat]
  omega

theorem regField_fmtRr_rc (h5 : k < 32) (h6 : fn < 32) : regField (fmtRr op rd ra rb rc k fn) 10 = Fin.ofNat 16 rc := by
  apply Fin.ext
  simp only [regField, fmtRr, Fin.val_ofNat]
  omega

theorem ofNat_fmtRr_k (h6 : fn < 32) : Fin.ofNat 32 (fmtRr op rd ra rb rc k fn / 2 ^ 5) = Fin.ofNat 32 k := by
  apply Fin.ext
  simp only [fmtRr, Fin.val_ofNat]
  omega

theorem fmtRr_mod_fn (h6 : fn < 32) : fmtRr op rd ra rb rc k fn % 32 = fn := by
  unfold fmtRr
  omega

end

/-! ### Formats RI and F -/

section
variable {op rd ra sub imm : Nat}

theorem fmtRi_op (h1 : rd < 16) (h2 : ra < 16) (h3 : sub < 4) (h4 : imm < 65536) : fmtRi op rd ra sub imm / 2 ^ 26 = op := by
  unfold fmtRi
  omega

theorem fmtRi_lt (h0 : op < 64) (h1 : rd < 16) (h2 : ra < 16) (h3 : sub < 4) (h4 : imm < 65536) :
    fmtRi op rd ra sub imm < 2 ^ 32 := by
  unfold fmtRi
  omega

theorem regField_fmtRi_rd (h2 : ra < 16) (h3 : sub < 4) (h4 : imm < 65536) :
    regField (fmtRi op rd ra sub imm) 22 = Fin.ofNat 16 rd := by
  apply Fin.ext
  simp only [regField, fmtRi, Fin.val_ofNat]
  omega

theorem regField_fmtRi_ra (h3 : sub < 4) (h4 : imm < 65536) : regField (fmtRi op rd ra sub imm) 18 = Fin.ofNat 16 ra := by
  apply Fin.ext
  simp only [regField, fmtRi, Fin.val_ofNat]
  omega

theorem fmtRi_sub (h3 : sub < 4) (h4 : imm < 65536) : fmtRi op rd ra sub imm / 2 ^ 16 % 4 = sub := by
  unfold fmtRi
  omega

/-- The low bits of a word are those of IMM. -/
theorem fmtRi_mod {m : Nat} (hm : m ∣ 65536) : fmtRi op rd ra sub imm % m = imm % m := by
  obtain ⟨q, hq⟩ := hm
  have h : fmtRi op rd ra sub imm = imm + m * (q * (op * 1024 + rd * 64 + ra * 4 + sub)) := by
    rw [← Nat.mul_assoc, ← hq]
    unfold fmtRi
    omega
  rw [h, Nat.add_mul_mod_self_left]

theorem ofNat_fmtRi {n : Nat} (hn : n ≤ 16) : BitVec.ofNat n (fmtRi op rd ra sub imm) = BitVec.ofNat n imm := by
  apply BitVec.eq_of_toNat_eq
  simpa only [BitVec.toNat_ofNat] using fmtRi_mod (pow_dvd_pow 2 hn)

theorem fin_ofNat_fmtRi_32 : Fin.ofNat 32 (fmtRi op rd ra sub imm) = Fin.ofNat 32 imm := Fin.ext (fmtRi_mod (by decide))

theorem fin_ofNat_fmtRi_8 : Fin.ofNat 8 (fmtRi op rd ra sub imm) = Fin.ofNat 8 imm := Fin.ext (fmtRi_mod (by decide))

theorem fmtRi_mod_two : fmtRi op rd ra sub imm % 2 = imm % 2 := fmtRi_mod (by decide)

/-- RP and FR of a CRC instruction read back as they were put. -/
theorem readCrc_fmtRi_crcImm (s : CrcSrc) (n1 : BitVec 11) : readCrc (fmtRi op rd ra sub (crcImm s n1)) = s := by
  cases s with
  | cur =>
    have h : fmtRi op rd ra sub (crcImm .cur n1) / 2 ^ 11 % 2 = 1 := by
      simp only [fmtRi, crcImm]
      omega
    exact if_pos h
  | mem r =>
    have h : fmtRi op rd ra sub (crcImm (.mem r) n1) / 2 ^ 11 % 2 ≠ 1 := by
      simp only [fmtRi, crcImm]
      omega
    have hr : regField (fmtRi op rd ra sub (crcImm (.mem r) n1)) 12 = r := by
      apply Fin.ext
      simp only [regField, fmtRi, crcImm, Fin.val_ofNat]
      omega
    rw [readCrc, if_neg h, hr]

theorem crcImm_lt (s : CrcSrc) (n1 : BitVec 11) : crcImm s n1 < 65536 := by
  cases s <;> simp only [crcImm] <;> omega

theorem ofNat_crcImm (s : CrcSrc) (n1 : BitVec 11) : BitVec.ofNat 11 (crcImm s n1) = n1 := by
  apply BitVec.eq_of_toNat_eq
  cases s <;> simp only [crcImm, BitVec.toNat_ofNat] <;> omega

end

section
variable {op rv w1 pos : Nat} (s : FieldSrc) (o : BitOrder)

theorem fmtF_op (h1 : rv < 16) (h2 : w1 < 32) (h3 : pos < 2048) : fmtF op rv s o w1 pos / 2 ^ 26 = op := by
  cases s <;> cases o <;> simp only [fmtF, FieldSrc.bits, BitOrder.bits] <;> omega

theorem fmtF_lt (h0 : op < 64) (h1 : rv < 16) (h2 : w1 < 32) (h3 : pos < 2048) : fmtF op rv s o w1 pos < 2 ^ 32 := by
  cases s <;> cases o <;> simp only [fmtF, FieldSrc.bits, BitOrder.bits] <;> omega

theorem regField_fmtF_rv (h2 : w1 < 32) (h3 : pos < 2048) : regField (fmtF op rv s o w1 pos) 22 = Fin.ofNat 16 rv := by
  apply Fin.ext
  cases s <;> cases o <;> simp only [regField, fmtF, FieldSrc.bits, BitOrder.bits, Fin.val_ofNat] <;> omega

theorem readSrc_fmtF (h2 : w1 < 32) (h3 : pos < 2048) : readSrc (fmtF op rv s o w1 pos) = s := by
  cases s with
  | cur =>
    have h : fmtF op rv .cur o w1 pos / 2 ^ 17 % 2 = 1 := by
      cases o <;> simp only [fmtF, FieldSrc.bits, BitOrder.bits] <;> omega
    exact if_pos h
  | reg r =>
    have h : fmtF op rv (.reg r) o w1 pos / 2 ^ 17 % 2 ≠ 1 := by
      cases o <;> simp only [fmtF, FieldSrc.bits, BitOrder.bits] <;> omega
    have hr : regField (fmtF op rv (.reg r) o w1 pos) 18 = r := by
      apply Fin.ext
      cases o <;> simp only [regField, fmtF, FieldSrc.bits, BitOrder.bits, Fin.val_ofNat] <;> omega
    rw [readSrc, if_neg h, hr]

theorem readOrder_fmtF (h2 : w1 < 32) (h3 : pos < 2048) : readOrder (fmtF op rv s o w1 pos) = o := by
  cases o with
  | le =>
    have h : fmtF op rv s .le w1 pos / 2 ^ 16 % 2 ≠ 1 := by
      cases s <;> simp only [fmtF, FieldSrc.bits, BitOrder.bits] <;> omega
    exact if_neg h
  | be =>
    have h : fmtF op rv s .be w1 pos / 2 ^ 16 % 2 = 1 := by
      cases s <;> simp only [fmtF, FieldSrc.bits, BitOrder.bits] <;> omega
    exact if_pos h

theorem ofNat_fmtF_pos : BitVec.ofNat 11 (fmtF op rv s o w1 pos) = BitVec.ofNat 11 pos := by
  apply BitVec.eq_of_toNat_eq
  cases s <;> cases o <;> simp only [fmtF, FieldSrc.bits, BitOrder.bits, BitVec.toNat_ofNat] <;> omega

theorem ofNat_fmtF_w1 (h3 : pos < 2048) : Fin.ofNat 32 (fmtF op rv s o w1 pos / 2 ^ 11) = Fin.ofNat 32 w1 := by
  apply Fin.ext
  cases s <;> cases o <;> simp only [fmtF, FieldSrc.bits, BitOrder.bits, Fin.val_ofNat] <;> omega

end

/-! ### Formats B and J -/

section
variable {ra rb cc off jk tgt : Nat}

theorem fmtB_op (h1 : ra < 16) (h2 : rb < 16) (h3 : cc < 8) (h4 : off < 32768) : fmtB ra rb cc off / 2 ^ 26 = 0x28 := by
  unfold fmtB
  omega

theorem fmtB_lt (h1 : ra < 16) (h2 : rb < 16) (h3 : cc < 8) (h4 : off < 32768) : fmtB ra rb cc off < 2 ^ 32 := by
  unfold fmtB
  omega

theorem regField_fmtB_ra (h2 : rb < 16) (h3 : cc < 8) (h4 : off < 32768) : regField (fmtB ra rb cc off) 22 = Fin.ofNat 16 ra := by
  apply Fin.ext
  simp only [regField, fmtB, Fin.val_ofNat]
  omega

theorem regField_fmtB_rb (h3 : cc < 8) (h4 : off < 32768) : regField (fmtB ra rb cc off) 18 = Fin.ofNat 16 rb := by
  apply Fin.ext
  simp only [regField, fmtB, Fin.val_ofNat]
  omega

theorem fmtB_cc (h3 : cc < 8) (h4 : off < 32768) : fmtB ra rb cc off / 2 ^ 15 % 8 = cc := by
  unfold fmtB
  omega

theorem ofNat_fmtB_off : BitVec.ofNat 15 (fmtB ra rb cc off) = BitVec.ofNat 15 off := by
  apply BitVec.eq_of_toNat_eq
  simp only [fmtB, BitVec.toNat_ofNat]
  omega

theorem fmtJ_op (h1 : ra < 16) (h2 : jk < 4) (h3 : tgt < 32768) : fmtJ ra jk tgt / 2 ^ 26 = 0x29 := by
  unfold fmtJ
  omega

theorem fmtJ_lt (h1 : ra < 16) (h2 : jk < 4) (h3 : tgt < 32768) : fmtJ ra jk tgt < 2 ^ 32 := by
  unfold fmtJ
  omega

theorem regField_fmtJ_ra (h2 : jk < 4) (h3 : tgt < 32768) : regField (fmtJ ra jk tgt) 22 = Fin.ofNat 16 ra := by
  apply Fin.ext
  simp only [regField, fmtJ, Fin.val_ofNat]
  omega

theorem fmtJ_jk (h2 : jk < 4) (h3 : tgt < 32768) : fmtJ ra jk tgt / 2 ^ 20 % 4 = jk := by
  unfold fmtJ
  omega

theorem ofNat_fmtJ_tgt : BitVec.ofNat 15 (fmtJ ra jk tgt) = BitVec.ofNat 15 tgt := by
  apply BitVec.eq_of_toNat_eq
  simp only [fmtJ, BitVec.toNat_ofNat]
  omega

end

/-! ### Reading the word of an instruction -/

/-- The word of an instruction of a context fits in 32 bits and reads as that instruction. -/
def ReadsBack (c : Ctx) (i : Instr) : Prop := ∀ w, forrekWord i = some w → w < 2 ^ 32 ∧ forrekRead c w = some i

theorem fin_ofNat_tag (k : Fin 4) : Fin.ofNat 4 (Fin.ofNat 32 k.val).val = k := by
  apply Fin.ext
  simp only [Fin.val_ofNat]
  omega

theorem fin_ofNat_index (k : Fin 8) : Fin.ofNat 8 (Fin.ofNat 32 k.val).val = k := by
  apply Fin.ext
  simp only [Fin.val_ofNat]
  omega

section
variable {c : Ctx} (ra rb rc : GReg)

theorem readsBack_alu :
    (∀ c rd ra rb, ReadsBack c (.add c rd ra rb)) ∧ (∀ c rd ra rb, ReadsBack c (.sub c rd ra rb)) ∧
    (∀ c rd ra rb, ReadsBack c (.and c rd ra rb)) ∧ (∀ c rd ra rb, ReadsBack c (.or c rd ra rb)) ∧
    (∀ c rd ra rb, ReadsBack c (.xor c rd ra rb)) ∧ (∀ c rd ra rb, ReadsBack c (.shl c rd ra rb)) ∧
    (∀ c rd ra rb, ReadsBack c (.shr c rd ra rb)) ∧ (∀ c rd ra rb, ReadsBack c (.sar c rd ra rb)) ∧
    (∀ c rd ra rb, ReadsBack c (.rol c rd ra rb)) ∧ (∀ c rd ra rb, ReadsBack c (.mul c rd ra rb)) ∧
    (∀ c rd ra rb, ReadsBack c (.mulh c rd ra rb)) ∧ (∀ c rd ra rb, ReadsBack c (.mulhu c rd ra rb)) ∧
    (∀ c rd ra rb, ReadsBack c (.muls c rd ra rb)) ∧ (∀ c rd ra rb, ReadsBack c (.adds c rd ra rb)) ∧
    (∀ c rd ra rb, ReadsBack c (.subs c rd ra rb)) ∧ (∀ c rd ra rb, ReadsBack c (.addsu c rd ra rb)) ∧
    (∀ c rd ra rb, ReadsBack c (.subsu c rd ra rb)) ∧ (∀ c rd ra rb, ReadsBack c (.min c rd ra rb)) ∧
    (∀ c rd ra rb, ReadsBack c (.max c rd ra rb)) ∧ (∀ c rd ra rb, ReadsBack c (.minu c rd ra rb)) ∧
    (∀ c rd ra rb, ReadsBack c (.maxu c rd ra rb)) ∧ (∀ c rd ra rb, ReadsBack c (.slt c rd ra rb)) ∧
    (∀ c rd ra rb, ReadsBack c (.sltu c rd ra rb)) ∧ (∀ c rd ra k, ReadsBack c (.sat c rd ra k)) ∧
    (∀ c rd ra k, ReadsBack c (.satu c rd ra k)) ∧ (∀ c rd ra, ReadsBack c (.bswap c rd ra)) ∧
    (∀ c rd ra rb, ReadsBack c (.addsh c rd ra rb)) ∧ (∀ c rd ra rb, ReadsBack c (.subsh c rd ra rb)) ∧
    (∀ c rd ra rb, ReadsBack c (.minh c rd ra rb)) ∧ (∀ c rd ra rb, ReadsBack c (.maxh c rd ra rb)) ∧
    (∀ c rd ra rb, ReadsBack c (.packh c rd ra rb)) := by
  and_intros
  all_goals
    intros
    rintro _ ⟨⟩
    refine ⟨fmtRr_lt (by decide) (by omega) (by omega) (by omega) (by decide) (by omega) (by decide), ?_⟩
    simp (disch := omega) only [forrekRead, readAlu, fmtRr_op, fmtRr_mod_fn, regField_fmtRr_rd, regField_fmtRr_ra,
      regField_fmtRr_rb, ofNat_fmtRr_k, Fin.ofNat_val_eq_self, if_true]

theorem readsBack_rr :
    (∀ c rd ra rb rc k, ReadsBack c (.scl c rd ra rb rc k)) ∧ (∀ c rd ra rb rc k, ReadsBack c (.sclu c rd ra rb rc k)) ∧
    (∀ c rd ra rb, ReadsBack c (.gadd c rd ra rb)) ∧ (∀ c rd ra rb rc, ReadsBack c (.gcas c rd ra rb rc)) ∧
    (∀ c rd tag, ReadsBack c (.lwait c rd tag)) ∧ (∀ c ra rb j, ReadsBack c (.qput c ra rb j)) ∧
    (∀ c rd ra j, ReadsBack c (.qget c rd ra j)) ∧ (∀ c rd ra j, ReadsBack c (.mbget c rd ra j)) := by
  and_intros
  all_goals
    intros
    rintro _ ⟨⟩
    refine ⟨fmtRr_lt (by decide) (by omega) (by omega) (by omega) (by omega) (by omega) (by decide), ?_⟩
    simp (disch := omega) only [forrekRead, readRr, fmtRr_op, fmtRr_mod_fn, regField_fmtRr_rd, regField_fmtRr_ra, regField_fmtRr_rb,
      regField_fmtRr_rc, ofNat_fmtRr_k, fin_ofNat_tag, fin_ofNat_index, Fin.ofNat_val_eq_self, reduceIte, Nat.reduceEqDiff, or_true, or_false]

theorem readsBack_gput : ReadsBack c (.gput c ra rb rc) := by
  rintro _ ⟨⟩
  refine ⟨fmtRr_lt (by decide) (by omega) (by omega) (by omega) (by omega) (by omega) (by decide), ?_⟩
  simp (disch := omega) only [forrekRead, readRr, fmtRr_op, fmtRr_mod_fn, regField_fmtRr_ra, regField_fmtRr_rb, regField_fmtRr_rc,
    ofNat_fmtRr_k, Fin.ofNat_val_eq_self, reduceIte, Nat.reduceEqDiff, or_true, or_false]
  rfl

theorem readsBack_gputn (k : Fin 32) (hk : k.val ≠ 0) : ReadsBack c (.gputn c ra rb rc k) := by
  rintro _ ⟨⟩
  refine ⟨fmtRr_lt (by decide) (by omega) (by omega) (by omega) (by omega) (by omega) (by decide), ?_⟩
  simp (disch := omega) only [forrekRead, readRr, fmtRr_op, fmtRr_mod_fn, regField_fmtRr_ra, regField_fmtRr_rb, regField_fmtRr_rc,
    ofNat_fmtRr_k, hk, Fin.ofNat_val_eq_self, reduceIte, Nat.reduceEqDiff, or_true, or_false]

theorem readsBack_lkp (table : Fin 8) (tag : Fin 4) : ReadsBack c (.lkp c ra table tag) := by
  rintro _ ⟨⟩
  refine ⟨fmtRr_lt (by decide) (by omega) (by omega) (by omega) (by omega) (by omega) (by decide), ?_⟩
  have htable : Fin.ofNat 8 ((Fin.ofNat 32 (4 * table.val + tag.val)).val / 4) = table := by
    apply Fin.ext
    simp only [Fin.val_ofNat]
    omega
  have htag : Fin.ofNat 4 (Fin.ofNat 32 (4 * table.val + tag.val)).val = tag := by
    apply Fin.ext
    simp only [Fin.val_ofNat]
    omega
  simp (disch := omega) only [forrekRead, readRr, fmtRr_op, fmtRr_mod_fn, regField_fmtRr_ra, ofNat_fmtRr_k, htable, htag,
    Fin.ofNat_val_eq_self, reduceIte, Nat.reduceEqDiff, or_true, or_false]

theorem readsBack_mbput (j : Fin 8) (db : Bool) : ReadsBack c (.mbput c ra rb j db) := by
  rintro _ ⟨⟩
  have hlt : j.val + (if db then 8 else 0) < 32 := by
    split <;> omega
  refine ⟨fmtRr_lt (by decide) (by omega) (by omega) (by omega) (by omega) hlt (by decide), ?_⟩
  have hj : Fin.ofNat 8 (Fin.ofNat 32 (j.val + if db then 8 else 0)).val = j := by
    apply Fin.ext
    simp only [Fin.val_ofNat]
    split <;> omega
  have hdb : decide ((Fin.ofNat 32 (j.val + if db then 8 else 0)).val / 8 % 2 = 1) = db := by
    cases db <;> simp only [Fin.val_ofNat, reduceIte, Bool.false_eq_true, decide_eq_true_eq, decide_eq_false_iff_not] <;> omega
  simp (disch := omega) only [forrekRead, readRr, fmtRr_op, fmtRr_mod_fn, regField_fmtRr_ra, regField_fmtRr_rb, ofNat_fmtRr_k, hj,
    hdb, Fin.ofNat_val_eq_self, reduceIte, Nat.reduceEqDiff, or_true]

theorem readsBack_imm :
    (∀ c rd ra imm, ReadsBack c (.addi c rd ra imm)) ∧ (∀ c rd ra imm, ReadsBack c (.andi c rd ra imm)) ∧
    (∀ c rd ra imm, ReadsBack c (.ori c rd ra imm)) ∧ (∀ c rd ra imm, ReadsBack c (.xori c rd ra imm)) ∧
    (∀ c rd imm, ReadsBack c (.lui c rd imm)) ∧ (∀ c rd ra n, ReadsBack c (.shli c rd ra n)) ∧
    (∀ c rd ra n, ReadsBack c (.shri c rd ra n)) ∧ (∀ c rd ra n, ReadsBack c (.sari c rd ra n)) ∧
    (∀ c rd ra n, ReadsBack c (.roli c rd ra n)) ∧ (∀ c rd ra imm, ReadsBack c (.slti c rd ra imm)) ∧
    (∀ c rd ra imm, ReadsBack c (.sltiu c rd ra imm)) := by
  and_intros
  all_goals
    intros
    rintro _ ⟨⟩
    refine ⟨fmtRi_lt (by decide) (by omega) (by omega) (by decide) (by omega), ?_⟩
    simp (disch := omega) only [forrekRead, readRi, fmtRi_op, fmtRi_sub, regField_fmtRi_rd, regField_fmtRi_ra, ofNat_fmtRi,
      fin_ofNat_fmtRi_32, BitVec.ofNat_toNat, BitVec.setWidth_eq, Nat.reduceLT, Fin.ofNat_val_eq_self, reduceIte, Nat.reduceEqDiff, or_false]

theorem readsBack_mem :
    (∀ c rd ra imm, ReadsBack c (.ldb c rd ra imm)) ∧ (∀ c rd ra imm, ReadsBack c (.ldh c rd ra imm)) ∧
    (∀ c rd ra imm, ReadsBack c (.ldw c rd ra imm)) ∧ (∀ c rd ra imm, ReadsBack c (.ldbs c rd ra imm)) ∧
    (∀ c rd ra imm, ReadsBack c (.ldhs c rd ra imm)) ∧ (∀ c rs ra imm, ReadsBack c (.stb c rs ra imm)) ∧
    (∀ c rs ra imm, ReadsBack c (.sth c rs ra imm)) ∧ (∀ c rs ra imm, ReadsBack c (.stw c rs ra imm)) := by
  and_intros
  all_goals
    intros
    rintro _ ⟨⟩
    refine ⟨fmtRi_lt (by decide) (by omega) (by omega) (by decide) (by omega), ?_⟩
    simp (disch := omega) only [forrekRead, readRi, fmtRi_op, fmtRi_sub, regField_fmtRi_rd, regField_fmtRi_ra, ofNat_fmtRi,
      BitVec.ofNat_toNat, BitVec.setWidth_eq, Nat.reduceLT, Fin.ofNat_val_eq_self, reduceIte, Nat.reduceEqDiff, or_false]

theorem readsBack_frm :
    (∀ c imm, ReadsBack c (.cset c imm)) ∧ (∀ c imm, ReadsBack c (.cadd c imm)) ∧ (∀ c ra imm, ReadsBack c (.csetr c ra imm)) ∧
    (∀ c rd, ReadsBack c (.flen c rd)) ∧ (∀ c rd ra len, ReadsBack c (.fnew c rd ra len)) ∧
    (∀ c rd len, ReadsBack c (.fnewz c rd len)) ∧ (∀ c rd ra, ReadsBack c (.fswp c rd ra)) ∧ (∀ c ra, ReadsBack c (.emit c ra)) ∧
    (∀ c, ReadsBack c (.ffree c)) ∧ (∀ c ra, ReadsBack c (.fsetlen c ra)) := by
  and_intros
  all_goals
    intros
    rintro _ ⟨⟩
    refine ⟨fmtRi_lt (by decide) (by omega) (by omega) (by decide) (by omega), ?_⟩
    simp (disch := omega) only [forrekRead, readRi, fmtRi_op, fmtRi_sub, regField_fmtRi_rd, regField_fmtRi_ra, ofNat_fmtRi,
      BitVec.ofNat_toNat, BitVec.setWidth_eq, Nat.reduceLT, Fin.ofNat_val_eq_self, reduceIte, Nat.reduceEqDiff, or_false]


theorem readsBack_crc :
    (∀ c rd ra src n1, ReadsBack c (.crc8 c rd ra src n1)) ∧ (∀ c rd ra src n1, ReadsBack c (.crc16 c rd ra src n1)) ∧
    (∀ c rd ra src n1, ReadsBack c (.crc32c c rd ra src n1)) := by
  and_intros
  all_goals
    intro c rd ra src n1
    have hlt := crcImm_lt src n1
    rintro _ ⟨⟩
    refine ⟨fmtRi_lt (by decide) (by omega) (by omega) (by decide) hlt, ?_⟩
    simp (disch := omega) only [forrekRead, readRi, fmtRi_op, fmtRi_sub, regField_fmtRi_rd, regField_fmtRi_ra, ofNat_fmtRi,
      readCrc_fmtRi_crcImm, ofNat_crcImm, Nat.reduceLT, Fin.ofNat_val_eq_self, reduceIte, Nat.reduceEqDiff, or_false]

theorem readsBack_fld :
    (∀ c rd src pos w1 o, ReadsBack c (.fext c rd src pos w1 o)) ∧
    (∀ c rd src pos w1 o, ReadsBack c (.fexts c rd src pos w1 o)) ∧ (∀ c dst pos w1 rs o, ReadsBack c (.fins c dst pos w1 rs o)) := by
  and_intros
  all_goals
    intros
    rintro _ ⟨⟩
    refine ⟨fmtF_lt _ _ (by decide) (by omega) (by omega) (by omega), ?_⟩
    simp (disch := omega) only [forrekRead, readRi, fmtF_op, regField_fmtF_rv, readSrc_fmtF, readOrder_fmtF, ofNat_fmtF_pos,
      ofNat_fmtF_w1, BitVec.ofNat_toNat, BitVec.setWidth_eq, Nat.reduceLT, Fin.ofNat_val_eq_self, reduceIte, Nat.reduceEqDiff, or_false]

theorem readsBack_sys :
    (∀ c rd ra, ReadsBack c (.gget c rd ra)) ∧ (∀ c rd ra, ReadsBack c (.ggets c rd ra)) ∧
    (∀ c rd ra, ReadsBack c (.ggetm c rd ra)) ∧ (∀ c rd ra, ReadsBack c (.ggetp c rd ra)) ∧
    (∀ c ra code, ReadsBack c (.raise c ra code)) ∧ (∀ c rd ra, ReadsBack c (.cjob c rd ra)) ∧
    (∀ c ra rd entry, ReadsBack c (.tarm c ra rd entry)) ∧ (∀ c ra, ReadsBack c (.tdis c ra)) ∧
    (∀ c rd j, ReadsBack c (.tget c rd j)) ∧ (∀ c rd j, ReadsBack c (.mfs c rd j)) ∧ (∀ c j ra, ReadsBack c (.mts c j ra)) ∧
    (∀ c, ReadsBack c (.endInv c)) ∧ (∀ c, ReadsBack c (.rel c)) ∧ (∀ c, ReadsBack c (.yield c)) ∧
    (∀ c, ReadsBack c (.waitPost c)) ∧ (∀ c ra, ReadsBack c (.waitTime c ra)) ∧ (∀ c entry, ReadsBack c (.trap c entry)) := by
  and_intros
  all_goals
    intros
    rintro _ ⟨⟩
    refine ⟨fmtRi_lt (by decide) (by omega) (by omega) (by decide) (by omega), ?_⟩
    simp (disch := omega) only [forrekRead, readSys, fmtRi_op, fmtRi_sub, regField_fmtRi_rd, regField_fmtRi_ra, ofNat_fmtRi,
      fin_ofNat_fmtRi_8, fmtRi_mod_two, BitVec.ofNat_toNat, BitVec.setWidth_eq, Nat.reduceLT, Nat.reduceMod, one_ne_zero,
      Fin.ofNat_val_eq_self, reduceIte, Nat.reduceEqDiff, or_false]

theorem readsBack_branch :
    (∀ c ra rb off, ReadsBack c (.beq c ra rb off)) ∧ (∀ c ra rb off, ReadsBack c (.bne c ra rb off)) ∧
    (∀ c ra rb off, ReadsBack c (.blt c ra rb off)) ∧ (∀ c ra rb off, ReadsBack c (.bge c ra rb off)) ∧
    (∀ c ra rb off, ReadsBack c (.bltu c ra rb off)) ∧ (∀ c ra rb off, ReadsBack c (.bgeu c ra rb off)) ∧
    (∀ c bit off, ReadsBack c (.bfs c bit off)) ∧ (∀ c bit off, ReadsBack c (.bfc c bit off)) := by
  and_intros
  all_goals
    intros
    rintro _ ⟨⟩
    refine ⟨fmtB_lt (by omega) (by omega) (by decide) (by omega), ?_⟩
    simp (disch := omega) only [forrekRead, readBranch, fmtB_op, fmtB_cc, regField_fmtB_ra, regField_fmtB_rb, ofNat_fmtB_off,
      BitVec.ofNat_toNat, BitVec.setWidth_eq, Fin.ofNat_val_eq_self, reduceIte, Nat.reduceEqDiff, or_false]

theorem readsBack_jump :
    (∀ c tgt, ReadsBack c (.jmp c tgt)) ∧ (∀ c tgt, ReadsBack c (.jal c tgt)) ∧ (∀ c ra, ReadsBack c (.jr c ra)) ∧
    (∀ c, ReadsBack c (.ret c)) := by
  and_intros
  all_goals
    intros
    rintro _ ⟨⟩
    refine ⟨fmtJ_lt (by omega) (by decide) (by omega), ?_⟩
    simp (disch := omega) only [forrekRead, readJump, fmtJ_op, fmtJ_jk, regField_fmtJ_ra, ofNat_fmtJ_tgt,
      BitVec.ofNat_toNat, BitVec.setWidth_eq, Fin.ofNat_val_eq_self, reduceIte, Nat.reduceEqDiff, or_false]

end
end Sys2Proof

namespace Sys2Proof.Machine

/-- An instruction that reads back from its word is what its word decodes to, when its operands keep R85's bounds. -/
theorem forrekDecode_eq {c : Ctx} {i : Instr} {w : Nat} (hr : ReadsBack c i) (hw : forrekWord i = some w)
    (hwf : i.wf = true) : forrekDecode c w = some i := by
  obtain ⟨-, hread⟩ := hr w hw
  rw [forrekDecode, hread]
  exact if_pos ⟨hw, hwf⟩

theorem forrekDecode_other_word {c : Ctx} {i : Instr} {w : Nat} (hread : forrekRead c w = some i) (hw : forrekWord i ≠ some w) :
    forrekDecode c w = none := by
  rw [forrekDecode, hread]
  exact if_neg fun h => hw h.1

/-- Every instruction that has a word reads back from it, except `gputn` of one slot. -/
theorem exists_readsBack {i : Instr} {w : Nat} (hw : forrekWord i = some w) (hk : ∀ c ra rb rc, i ≠ .gputn c ra rb rc 0) :
    ∃ c, ReadsBack c i := by
  cases i
  case gputn c ra rb rc k => exact ⟨c, readsBack_gputn ra rb rc k fun h => hk c ra rb rc (congrArg _ (Fin.ext h))⟩
  case add | sub | and | or | xor | shl | shr | sar | rol | mul | mulh | mulhu | muls | adds | subs | addsu | subsu |
      min | max | minu | maxu | slt | sltu | sat | satu | bswap | addsh | subsh | minh | maxh | packh =>
    exact ⟨‹Ctx›, by simp only [readsBack_alu]⟩
  case scl | sclu | gput | gadd | gcas | lkp | lwait | qput | qget | mbput | mbget =>
    exact ⟨‹Ctx›, by simp only [readsBack_rr, readsBack_gput, readsBack_lkp, readsBack_mbput]⟩
  case addi | andi | ori | xori | lui | shli | shri | sari | roli | slti | sltiu =>
    exact ⟨‹Ctx›, by simp only [readsBack_imm]⟩
  case ldb | ldh | ldw | ldbs | ldhs | stb | sth | stw =>
    exact ⟨‹Ctx›, by simp only [readsBack_mem]⟩
  case cset | cadd | csetr | flen | fnew | fnewz | fswp | emit | ffree | fsetlen | crc8 | crc16 | crc32c =>
    exact ⟨‹Ctx›, by simp only [readsBack_frm, readsBack_crc]⟩
  case fext | fexts | fins =>
    exact ⟨‹Ctx›, by simp only [readsBack_fld]⟩
  case gget | ggets | ggetm | ggetp | raise | cjob | tarm | tdis | tget | mfs | mts | endInv | rel | yield | waitPost |
      waitTime | trap =>
    exact ⟨‹Ctx›, by simp only [readsBack_sys]⟩
  case beq | bne | blt | bge | bltu | bgeu | bfs | bfc =>
    exact ⟨‹Ctx›, by simp only [readsBack_branch]⟩
  case jmp | jal | jr | ret =>
    exact ⟨‹Ctx›, by simp only [readsBack_jump]⟩
  all_goals cases hw

/-- Settles O3: each word reads back field by field, format by format, and R85's check of the unused fields passes. -/
theorem forrekDecodeOfEncode : Obligations.ForrekDecodeOfEncode := by
  refine ⟨fun i w hw hwf hk => ?_, fun c ra rb rc => ?_⟩
  · obtain ⟨c, hr⟩ := exists_readsBack hw hk
    exact ⟨(hr w hw).1, c, forrekDecode_eq hr hw hwf⟩
  · exact ⟨_, rfl, forrekDecode_eq (readsBack_gput ra rb rc) rfl rfl⟩

/-- `add` does not use the field RC, so any RC reads as `add`; the word is not that of the instruction unless RC is 0 (R85). -/
theorem forrekRead_fmtRr_add (c : Ctx) (rd ra rb rc : GReg) : forrekRead c (fmtRr 0x01 rd ra rb rc 0 0x00) = some (.add c rd ra rb) := by
  simp (disch := omega) only [forrekRead, readAlu, fmtRr_op, fmtRr_mod_fn, regField_fmtRr_rd, regField_fmtRr_ra,
    regField_fmtRr_rb, Fin.ofNat_val_eq_self, if_true]

/-- Settles O4: each word is its instruction's, and instructions read back from their words. -/
theorem forrekWordsDecode : Obligations.ForrekWordsDecode := by
  intro c
  refine ⟨?_, ?_, ?_, ?_, ?_, ?_, ?_, ?_, ?_, ?_, ?_, ?_, ?_, ?_⟩
  · exact forrekDecode_eq (by simp only [readsBack_alu]) rfl rfl
  · exact forrekDecode_eq (by simp only [readsBack_alu]) rfl rfl
  · exact forrekDecode_eq (by simp only [readsBack_rr]) rfl rfl
  · exact forrekDecode_eq (by simp only [readsBack_imm]) rfl rfl
  · exact forrekDecode_eq (by simp only [readsBack_imm]) rfl rfl
  · exact forrekDecode_eq (by simp only [readsBack_mem]) rfl rfl
  · exact forrekDecode_eq (by simp only [readsBack_mem]) rfl rfl
  · exact forrekDecode_eq (readsBack_gputn 10 3 2 2 (by decide)) rfl rfl
  · exact forrekDecode_eq (by simp only [readsBack_branch]) rfl rfl
  · exact forrekDecode_eq (by simp only [readsBack_jump]) rfl rfl
  · exact forrekDecode_eq (by simp only [readsBack_sys]) rfl rfl
  · exact forrekDecode_eq (by simp only [readsBack_sys]) rfl rfl
  · exact forrekDecode_other_word (forrekRead_fmtRr_add c 1 2 3 1) (by simp [forrekWord, fmtRr])
  · rfl

end Sys2Proof.Machine
end

section
/-! Statements about the whole package: what a step does, the machine right after reset, and a state in which a step does not keep the
Newel sound. -/

namespace Sys2Proof.Machine

/-- Settles O1: both cases of the queue, each by the definition of a step. -/
theorem stepTakesTheFrontCommand : Obligations.StepTakesTheFrontCommand := by
  refine ⟨fun _ _ _ => rfl, fun s h => ?_⟩
  rw [step, h]

theorem chan_reset (n : Nat) : State.reset.newel.chan n = {} := rfl

/-- Settles O6: every table of the reset state is empty. -/
theorem resetIsSound : Obligations.ResetIsSound := by
  refine ⟨⟨by decide, by decide, by decide, fun _ n h => ?_⟩, rfl, rfl, fun i => ?_⟩
  · rw [chan_reset] at h ⊢
  · cases i <;> exact ⟨rfl, rfl, rfl, rfl, by decide⟩

/-! ### Writes of several channels -/

theorem NewelState.chan_onChan_other {w : NewelState} {n k : Nat} (g : LsChan → LsChan) (hw : Tab.wf {} w.ch = true) (hk : k ≠ n) :
    (w.onChan n g).chan k = w.chan k := Tab.get_put_other _ hw hk

theorem NewelState.wf_onChan {w : NewelState} (n : Nat) (g : LsChan → LsChan) (hw : Tab.wf {} w.ch = true) :
    Tab.wf {} (w.onChan n g).ch = true := Tab.wf_put _ _ hw

/-- A channel that is not in the list keeps its state while each channel of the list is written. -/
theorem NewelState.chan_foldl_onChan (g : NewelState → Nat → LsChan → LsChan) {k : Nat} (l : List Nat) (w : NewelState)
    (hw : Tab.wf {} w.ch = true) (hk : k ∉ l) : (l.foldl (fun w n => w.onChan n (g w n)) w).chan k = w.chan k := by
  induction l generalizing w with
  | nil => rfl
  | cons n l ih =>
    rw [List.mem_cons, not_or] at hk
    rw [List.foldl_cons, ih _ (wf_onChan n _ hw) hk.2, chan_onChan_other _ hw hk.1]

/-- A Newel under a negative VBAT whose channel table holds a tripped channel 24, which no Newel has. -/
def strayChannel : NewelState := { rev := true, ch := [(24, { on := true, therm := true })] }

theorem strayChannel_sound : strayChannel.sound := ⟨by decide, by decide, by decide, fun h => absurd h (by decide)⟩

/-- Refutes O5: the return of VBAT (18 R444) settles channels 0 to 23, and the soundness of the state before says nothing of the channels
while VBAT is negative; a channel 24 with THERM set stays on. -/
theorem not_stepKeepsTheNewelSound : ¬ Obligations.StepKeepsTheNewelSound := by
  intro h
  obtain ⟨-, -, -, hoff⟩ := h { State.reset with newel := strayChannel, pending := [.reverseBattery false] } _ strayChannel_sound rfl
  have hchan := NewelState.chan_foldl_onChan
    (fun w n c => { c with on := c.wanted && w.enabled n && !c.latched && !w.low }) (k := 24) (List.range 24)
    { strayChannel with rev := false } (by decide) (by decide)
  have hon := hoff rfl 24 (congrArg (fun c : LsChan => c.therm || c.wire) hchan)
  exact absurd (hon.symm.trans (congrArg LsChan.on hchan)) (by decide)

end Sys2Proof.Machine
end

section
/-! Every command completes, and none touches the queue of the commands that wait. Most commands change one die (`State.on`) or the Newel
(`State.onNewel`); the lemmas here say it of the operations on the whole package and of the commands that use them. -/

namespace Sys2Proof.Machine

/-- The command completes in every state and leaves the queue alone. -/
def KeepsQueue (f : State → Host.Outcome State Fault Refusal) : Prop := ∀ s, ∃ t, f s = .next t ∧ t.pending = s.pending

@[simp] theorem State.onNewel_pending (s : State) (g : NewelState → NewelState) : (s.onNewel g).pending = s.pending := rfl

theorem keepsQueue_doOn (d : Die) (f : DieState → DieState) : KeepsQueue fun s => s.doOn d f := fun s => ⟨_, rfl, s.on_pending d f⟩

theorem keepsQueue_next {f : State → State} (h : ∀ s, (f s).pending = s.pending) : KeepsQueue fun s => .next (f s) :=
  fun s => ⟨_, rfl, h s⟩

theorem keepsQueue_onNewel (g : NewelState → NewelState) : KeepsQueue fun s => .next (s.onNewel g) := keepsQueue_next fun _ => rfl

theorem after_pending {f : State → Host.Outcome State Fault Refusal} (h : KeepsQueue f) (s : State) :
    (after s f).pending = s.pending := by
  obtain ⟨t, ht, hp⟩ := h s
  rw [after, ht, hp]

/-! ### The Stairwell -/

@[simp] theorem State.linkDown_pending (s : State) (info : Nat) (sup : Option Die) : (s.linkDown info sup).pending = s.pending := by
  simp [State.linkDown]

@[simp] theorem State.flitAccept_pending (s : State) (d : Die) (v : Fin 4) (m : VMsg) (replayed : Bool) :
    (s.flitAccept d v m replayed).pending = s.pending := by
  simp [State.flitAccept]

@[simp] theorem State.flitDiscard_pending (s : State) (d : Die) (v : Fin 4) (m : VMsg) (bad replayed : Bool) :
    (s.flitDiscard d v m bad replayed).pending = s.pending := by
  cases bad <;> simp [State.flitDiscard]

@[simp] theorem State.flitArrive_pending (s : State) (d : Die) (f : Flit) : (s.flitArrive d f).pending = s.pending := by
  simp only [State.flitArrive]
  repeat' split
  all_goals simp

@[simp] theorem State.bridgeDo_pending (s : State) (a : Acc) (addr size : Nat) (act : DieState → Nat → Nat → Nat × DieState) :
    (s.bridgeDo a addr size act).pending = s.pending := by
  simp only [State.bridgeDo]
  split <;> simp

theorem keepsQueue_stwFlitReceive (d : Die) (f : Flit) : KeepsQueue (execStwFlitReceive d f) := by
  refine keepsQueue_next fun s => ?_
  split <;> simp

theorem keepsQueue_stwRetryTimeout (d : Die) : KeepsQueue (execStwRetryTimeout d) := by
  intro s
  simp only [execStwRetryTimeout]
  repeat' split
  all_goals exact ⟨_, rfl, by simp⟩

theorem keepsQueue_stwRetrain (a : Acc) (v : Word) : KeepsQueue (execStwRetrain a v) := by
  refine keepsQueue_next fun s => ?_
  split <;> simp

theorem keepsQueue_stwLinkUp (lanes : Byte) : KeepsQueue (execStwLinkUp lanes) := by
  intro s
  simp only [execStwLinkUp]
  split
  · exact ⟨_, rfl, by simp⟩
  · exact ⟨_, rfl, rfl⟩

theorem keepsQueue_stwHeartbeatMiss (d : Die) : KeepsQueue (execStwHeartbeatMiss d) := by
  intro s
  simp only [execStwHeartbeatMiss]
  repeat' split
  all_goals exact ⟨_, rfl, by simp⟩

theorem keepsQueue_replDrop (d : Die) : KeepsQueue (execReplDrop d) := fun s => ⟨_, rfl, s.on_pending d _⟩

theorem keepsQueue_handoverChannelMove (u : BoundaryUnit) : KeepsQueue (execHandoverChannelMove u) := by
  intro s
  simp only [execHandoverChannelMove]
  repeat' split
  all_goals exact ⟨_, rfl, by simp⟩

theorem keepsQueue_joinTimego (a : Acc) (v : Word) : KeepsQueue (execJoinTimego a v) := by
  intro s
  simp only [execJoinTimego]
  split
  all_goals exact ⟨_, rfl, by simp⟩

theorem keepsQueue_joinCopyDone (d : Die) : KeepsQueue (execJoinCopyDone d) := by
  intro s
  simp only [execJoinCopyDone]
  split
  all_goals exact ⟨_, rfl, by simp⟩

theorem keepsQueue_failoverConfirm (d : Die) : KeepsQueue (execFailoverConfirm d) := by
  intro s
  simp only [execFailoverConfirm]
  repeat' split
  all_goals exact ⟨_, rfl, by simp⟩

/-! ### Time and keys -/

theorem State.swapSource_pending (s : State) (d : Die) (n : Nat) : (s.swapSource d n).pending = s.pending := by
  simp only [State.swapSource]
  repeat' split
  all_goals rfl

theorem keepsQueue_cueFire (d : Die) (n : Fin 1024) : KeepsQueue (execCueFire d n) := by
  refine keepsQueue_next fun s => ?_
  split <;> simp

theorem keepsQueue_tbFollowState : KeepsQueue execTbFollowState := by
  intro s
  simp only [execTbFollowState]
  split
  all_goals exact ⟨_, rfl, rfl⟩

@[simp] theorem State.placeKey_pending (s : State) (die : Die) (k : Nat) (key : List Byte) (a b : Nat) :
    (s.placeKey die k key a b).2.pending = s.pending := by
  simp only [State.placeKey]
  repeat' split
  all_goals simp

@[simp] theorem State.drkPlace_pending (s : State) (die : Die) (k : Nat) (key : List Byte) (a b : Nat) :
    (s.drkPlace die k key a b).2.pending = s.pending := by
  simp only [State.drkPlace]
  split <;> simp

@[simp] theorem State.drkEnd_pending (s : State) (die : Die) (op k kek : Nat) : (s.drkEnd die op k kek).2.pending = s.pending := by
  simp only [State.drkEnd]
  repeat' split
  all_goals simp

theorem keepsQueue_drkCommandDone (die : Die) : KeepsQueue (execDrkCommandDone die) := by
  intro s
  simp only [execDrkCommandDone]
  repeat' split
  · exact ⟨_, rfl, rfl⟩
  · exact ⟨_, rfl, rfl⟩
  · exact ⟨_, rfl, by simp⟩

theorem keepsQueue_epochWriteDone (die : Die) (k : Byte) : KeepsQueue (execEpochWriteDone die k) := by
  intro s
  simp only [execEpochWriteDone]
  repeat' split
  all_goals exact ⟨_, rfl, by simp⟩

@[simp] theorem State.romLoad_pending (s : State) (d : Die) (k : Nat) (blob : List Byte) : (s.romLoad d k blob).pending = s.pending := by
  simp only [State.romLoad]
  split <;> simp

@[simp] theorem State.romBegin_pending (s : State) (d : Die) : (s.romBegin d).pending = s.pending := by
  simp [State.romBegin]

theorem keepsQueue_bootHeaderDone (d : Die) : KeepsQueue (execBootHeaderDone d) := by
  intro s
  simp only [execBootHeaderDone]
  repeat' split
  · exact ⟨_, rfl, rfl⟩
  · exact ⟨_, rfl, by simp⟩
  · exact ⟨_, rfl, by simp⟩
  · exact ⟨_, rfl, by simp⟩

/-! ### The Newel -/

@[simp] theorem State.showArmed_pending (s : State) (v : Nat) : (s.showArmed v).pending = s.pending := by simp [State.showArmed]

@[simp] theorem State.showMode_pending (s : State) (m : Nat) : (s.showMode m).pending = s.pending := by simp [State.showMode]

@[simp] theorem State.disarm_pending (s : State) : s.disarm.pending = s.pending := by simp [State.disarm]

@[simp] theorem State.prepFail_pending (s : State) : s.prepFail.pending = s.pending := by
  simp only [State.prepFail]
  repeat' split
  all_goals simp

@[simp] theorem State.prep_pending (s : State) (d : Die) (mode : Nat) : (s.prep d mode).pending = s.pending := by
  simp only [State.prep]
  repeat' split
  all_goals simp

theorem State.switchMode_pending (s : State) (d : Die) (m : Nat) : (s.switchMode d m).2.pending = s.pending := by
  simp only [State.switchMode]
  repeat' split
  all_goals simp

/-- A frame that the Newel executes keeps the queue when its effect does. -/
theorem keepsQueue_nlExec (d : Die) (seq : Fin 16) {act : State → NlAns × State} (h : ∀ s, (act s).2.pending = s.pending) :
    KeepsQueue fun s => s.nlExec d seq act := by
  intro s
  simp only [State.nlExec]
  repeat' split
  · exact ⟨_, rfl, rfl⟩
  · exact ⟨_, rfl, h _⟩
  · exact ⟨_, rfl, rfl⟩

theorem keepsQueue_nlDo (d : Die) (seq : Fin 16) (act : NewelState → Option Nat × NewelState) : KeepsQueue fun s => s.nlDo d seq act :=
  keepsQueue_nlExec d seq fun _ => rfl

theorem keepsQueue_nlRead (d : Die) (seq : Fin 16) (addr : BitVec 16) : KeepsQueue (execNlRead d seq addr) := by
  refine keepsQueue_nlExec d seq fun s => ?_
  split <;> rfl

theorem keepsQueue_nlPairPrep (d : Die) (seq : Fin 16) (mode : BitVec 2) : KeepsQueue (execNlPairPrep d seq mode) := by
  refine keepsQueue_nlExec d seq fun s => ?_
  repeat' split
  all_goals simp

theorem keepsQueue_nlSwitch (d : Die) (seq : Fin 16) (mode : BitVec 2) : KeepsQueue (execNlSwitch d seq mode) := by
  refine keepsQueue_nlExec d seq fun s => ?_
  split
  · rfl
  · exact s.switchMode_pending d _

theorem keepsQueue_nlNop (d : Die) : KeepsQueue (execNlNop d) := by
  refine keepsQueue_next fun s => ?_
  split <;> rfl

theorem keepsQueue_nlResync (d : Die) : KeepsQueue (execNlResync d) := by
  refine keepsQueue_next fun s => ?_
  split <;> rfl

theorem keepsQueue_pairPrepTimeout : KeepsQueue execPairPrepTimeout := by
  refine keepsQueue_next fun s => ?_
  split <;> simp

theorem keepsQueue_newelPairDisarm : KeepsQueue execNewelPairDisarm := by
  intro s
  simp only [execNewelPairDisarm]
  split
  · refine ⟨_, rfl, ?_⟩
    split <;> simp
  · exact ⟨_, rfl, rfl⟩

@[simp] theorem State.nlUp_pending (s : State) (d : Die) : (s.nlUp d).pending = s.pending := by
  simp only [State.nlUp]
  split <;> simp

theorem keepsQueue_nlAck (d : Die) (seq : Fin 16) : KeepsQueue (execNlAck d seq) := by
  intro s
  simp only [execNlAck]
  repeat' split
  all_goals exact ⟨_, rfl, by simp⟩

theorem keepsQueue_nlEvent (d : Die) (arg : BitVec 16) : KeepsQueue (execNlEvent d arg) := by
  intro s
  simp only [execNlEvent]
  repeat' split
  all_goals exact ⟨_, rfl, by simp⟩

theorem keepsQueue_wakePinEdge (k : Fin 8) (rising : Bool) : KeepsQueue (execWakePinEdge k rising) := by
  intro s
  simp only [execWakePinEdge]
  repeat' split
  all_goals exact ⟨_, rfl, by simp⟩

theorem keepsQueue_newelReset : KeepsQueue execNewelReset := by
  intro s
  simp only [execNewelReset]
  split
  all_goals exact ⟨_, rfl, by simp⟩

theorem keepsQueue_moduleOff : KeepsQueue execModuleOff := by
  intro s
  refine ⟨_, rfl, ?_⟩
  rw [State.onNewel]
  dsimp only
  rw [State.on_pending, State.on_pending]

theorem keepsQueue_modulePowerOn (v : BitVec 16) : KeepsQueue (execModulePowerOn v) := by
  intro s
  simp only [execModulePowerOn]
  split
  all_goals exact ⟨_, rfl, rfl⟩

/-! ### Power, resets, the update block -/

@[simp] theorem State.restAsk_pending (s : State) (d : Die) : (s.restAsk d).pending = s.pending := by
  simp only [State.restAsk]
  repeat' split
  all_goals simp

@[simp] theorem State.restOne_pending (s : State) (d : Die) : (s.restOne d).pending = s.pending := by simp [State.restOne]

@[simp] theorem State.dieReset_pending (s : State) (d : Die) (cause : Nat) (expired : Bool) :
    (s.dieReset d cause expired).pending = s.pending := by
  simp [State.dieReset]

@[simp] theorem State.release_pending (s : State) (d : Die) : (s.release d).pending = s.pending := by
  simp only [State.release]
  repeat' split
  all_goals simp

@[simp] theorem State.updStart_pending (s : State) (a : Acc) (v : Word) (op : Nat) : (s.updStart a v op).pending = s.pending := by
  simp [State.updStart]

theorem keepsQueue_updStart (a : Acc) (v : Word) (op : Nat) : KeepsQueue fun s => .next (s.updStart a v op) :=
  keepsQueue_next fun s => s.updStart_pending a v op

theorem keepsQueue_hallCtlWrite (a : Acc) (v : Word) : KeepsQueue (execHallCtlWrite a v) := by
  intro s
  simp only [execHallCtlWrite]
  split
  · exact ⟨_, rfl, by simp⟩
  · refine ⟨_, rfl, ?_⟩
    split <;> simp

theorem keepsQueue_hallReset (a : Acc) (v : Word) : KeepsQueue (execHallReset a v) := by
  refine keepsQueue_next fun s => ?_
  split <;> simp

theorem keepsQueue_restRequest (a : Acc) (v : Word) : KeepsQueue (execRestRequest a v) := by
  refine keepsQueue_next fun s => ?_
  split <;> simp

theorem keepsQueue_restEnter (d : Die) : KeepsQueue (execRestEnter d) := by
  intro s
  simp only [execRestEnter]
  repeat' split
  all_goals exact ⟨_, rfl, by simp⟩

theorem keepsQueue_restWake (d : Die) (src : Fin 7) : KeepsQueue (execRestWake d src) := by
  intro s
  simp only [execRestWake]
  split
  · exact ⟨_, rfl, rfl⟩
  · refine ⟨_, rfl, ?_⟩
    split <;> simp

theorem keepsQueue_rstinAssert (d : Die) : KeepsQueue (execRstinAssert d) := by
  refine keepsQueue_next fun s => ?_
  split <;> simp

theorem keepsQueue_pwrResetWrite (a : Acc) (v : Word) : KeepsQueue (execPwrResetWrite a v) := by
  refine keepsQueue_next fun s => ?_
  split <;> simp

theorem keepsQueue_powerGoodRise (d : Die) (g : Fin 3) : KeepsQueue (execPowerGoodRise d g) := by
  intro s
  simp only [execPowerGoodRise]
  split
  · refine ⟨_, rfl, ?_⟩
    split <;> simp
  · exact ⟨_, rfl, rfl⟩

theorem keepsQueue_powerGoodFault (d : Die) (g : Fin 3) : KeepsQueue (execPowerGoodFault d g) := by
  intro s
  simp only [execPowerGoodFault]
  split
  · exact ⟨_, rfl, rfl⟩
  · refine ⟨_, rfl, ?_⟩
    split <;> simp

theorem keepsQueue_updTrialExpiry (d : Die) : KeepsQueue (execUpdTrialExpiry d) := by
  intro s
  unfold execUpdTrialExpiry
  dsimp only
  split
  · split
    · refine ⟨_, rfl, ?_⟩
      rw [State.dieReset_pending, State.on_pending]
    · exact ⟨_, rfl, rfl⟩
  · exact ⟨_, rfl, rfl⟩

theorem keepsQueue_uncorrectableError (d : Die) (u : UnitRef) : KeepsQueue (execUncorrectableError d u) := by
  refine keepsQueue_next fun s => ?_
  split <;> simp

/-! ### Accesses: a register whose write or read is a command of its own runs that command -/

section
variable {s t : State} {a : Acc} {blk ch off : Nat} {v : Word}

/-- What a table of commands answers when it runs one command of a register array. -/
theorem pending_of_map {o : Option Nat} {f : Nat → State} (hf : ∀ n, (f n).pending = s.pending) (h : o.map f = some t) :
    t.pending = s.pending := by
  obtain ⟨n, -, rfl⟩ := Option.map_eq_some_iff.mp h
  exact hf n

/-- The same for a register with one command. -/
theorem pending_of_some {u : State} (hu : u.pending = s.pending) (h : some u = some t) : t.pending = s.pending := by
  rw [← Option.some.inj h, hu]

theorem after_doOn_pending (d : Die) (f : DieState → DieState) (s : State) : (after s fun s => s.doOn d f).pending = s.pending :=
  after_pending (keepsQueue_doOn d f) s

theorem State.sysCommand_pending (h : s.sysCommand a off v = some t) : t.pending = s.pending := by
  simp only [State.sysCommand] at h
  repeat' split at h
  case isFalse.isFalse.isFalse => exact pending_of_map (fun n => after_doOn_pending _ _ s) h
  case isTrue.isFalse.isFalse.isFalse => cases h
  all_goals exact pending_of_some (after_doOn_pending _ _ s) h

theorem State.pwrCommand_pending (h : s.pwrCommand a off v = some t) : t.pending = s.pending := by
  simp only [State.pwrCommand] at h
  repeat' split at h
  · exact pending_of_some (after_doOn_pending _ _ s) h
  · exact pending_of_some (after_pending (keepsQueue_restRequest a v) s) h
  · exact pending_of_some (after_pending (keepsQueue_hallCtlWrite a v) s) h
  · exact pending_of_some (after_pending (keepsQueue_hallReset a v) s) h
  · exact pending_of_some (after_pending (keepsQueue_pwrResetWrite a v) s) h
  · cases h

theorem State.busCommand_pending (h : s.busCommand a blk ch off v = some t) : t.pending = s.pending := by
  simp only [State.busCommand] at h
  repeat' split at h
  · exact pending_of_some (after_doOn_pending _ _ s) h
  · exact pending_of_some (after_doOn_pending _ _ s) h
  · exact pending_of_map (fun k => after_doOn_pending _ _ s) h
  · exact pending_of_some (after_doOn_pending _ _ s) h
  · exact pending_of_some (s.on_pending _ _) h
  · exact pending_of_map (fun i => s.on_pending _ _) h
  · exact pending_of_some (after_doOn_pending _ _ s) h
  · cases h

theorem State.tableCommand_pending (h : s.tableCommand a blk off v = some t) : t.pending = s.pending := by
  simp only [State.tableCommand] at h
  repeat' split at h
  · exact pending_of_some (after_doOn_pending _ _ s) h
  · exact pending_of_some (after_doOn_pending _ _ s) h
  · exact pending_of_some (s.on_pending _ _) h
  · exact pending_of_some (after_doOn_pending _ _ s) h
  · exact pending_of_some (after_doOn_pending _ _ s) h
  · cases h

theorem State.timCommand_pending (h : s.timCommand a off v = some t) : t.pending = s.pending := by
  simp only [State.timCommand] at h
  repeat' split at h
  · exact pending_of_some (after_doOn_pending _ _ s) h
  · cases h
  · exact pending_of_some (after_doOn_pending _ _ s) h
  · exact pending_of_some (after_doOn_pending _ _ s) h
  · exact pending_of_some (s.on_pending _ _) h
  · exact pending_of_some (after_doOn_pending _ _ s) h
  · cases h

theorem State.keyCommand_pending (h : s.keyCommand a blk off v = some t) : t.pending = s.pending := by
  have hclose : (if v.getLsbD 30 then after s (execDbgClose a v) else s).pending = s.pending := by
    split
    · exact after_doOn_pending _ _ s
    · rfl
  simp only [State.keyCommand] at h
  split at h
  · split at h
    · exact pending_of_some (after_doOn_pending _ _ s) h
    · cases h
  · split at h
    · obtain ⟨k, -, h⟩ := Option.bind_eq_some_iff.mp h
      split at h
      · exact pending_of_some (after_doOn_pending _ _ s) h
      · cases h
    · split at h
      · split at h
        · exact pending_of_some (s.on_pending _ _) h
        · cases h
      · split at h
        · split at h
          · exact pending_of_some ((after_doOn_pending _ _ _).trans hclose) h
          · split at h
            · exact pending_of_some (after_doOn_pending _ _ s) h
            · exact pending_of_some (s.on_pending _ _) h
        · split at h
          · exact pending_of_map (fun k => s.on_pending _ _) h
          · cases h

theorem State.mailCommand_pending (h : s.mailCommand a blk ch off v = some t) : t.pending = s.pending := by
  simp only [State.mailCommand] at h
  repeat' split at h
  · exact pending_of_some (after_doOn_pending _ _ s) h
  · exact pending_of_some (after_doOn_pending _ _ s) h
  · exact pending_of_some (s.on_pending _ _) h
  · exact pending_of_some (after_doOn_pending _ _ s) h
  · exact pending_of_map (fun cl => after_doOn_pending _ _ s) h
  · exact pending_of_some (after_doOn_pending _ _ s) h
  · exact pending_of_some (after_doOn_pending _ _ s) h
  · exact pending_of_some (after_doOn_pending _ _ s) h
  · exact pending_of_some (after_doOn_pending _ _ s) h
  · exact pending_of_some (after_doOn_pending _ _ s) h
  · exact pending_of_some (after_doOn_pending _ _ s) h
  · cases h
  · exact pending_of_some (after_doOn_pending _ _ s) h
  · cases h
  · cases h

theorem State.stwCommand_pending (h : s.stwCommand a off v = some t) : t.pending = s.pending := by
  have htime : (if v.getLsbD 30 then after s (execJoinTimego a v) else s).pending = s.pending := by
    split
    · exact after_pending (keepsQueue_joinTimego a v) s
    · rfl
  unfold State.stwCommand at h
  dsimp only at h
  split at h
  · split at h
    · exact pending_of_some (after_doOn_pending _ _ s) h
    · cases h
  · split at h
    · split at h
      · exact pending_of_some (after_doOn_pending _ _ s) h
      · cases h
    · split at h
      · split at h
        · exact pending_of_some ((after_doOn_pending _ _ _).trans htime) h
        · split at h
          · exact pending_of_some (after_pending (keepsQueue_joinTimego a v) s) h
          · cases h
      · split at h
        · split at h
          · exact pending_of_some (after_pending (keepsQueue_stwRetrain a v) s) h
          · cases h
        · cases h

theorem State.nwlCommand_pending (h : s.nwlCommand a off v = some t) : t.pending = s.pending := by
  simp only [State.nwlCommand] at h
  split at h
  · exact pending_of_some (s.on_pending _ _) h
  · repeat' split at h
    case isTrue.isFalse.isFalse => cases h
    case isFalse.isFalse.isTrue => cases h
    case isFalse.isFalse.isFalse.isFalse.isFalse.isFalse.isFalse.isFalse.isFalse.isFalse => cases h
    all_goals exact pending_of_some (after_doOn_pending _ _ s) h

theorem State.updCommand_pending (h : s.updCommand a off v = some t) : t.pending = s.pending := by
  simp only [State.updCommand] at h
  repeat' split at h
  · exact pending_of_some (after_doOn_pending _ _ s) h
  · exact pending_of_some (after_pending (keepsQueue_updStart a v 1) s) h
  · exact pending_of_some (after_doOn_pending _ _ s) h
  · exact pending_of_some (after_pending (keepsQueue_updStart a v 3) s) h
  · exact pending_of_some (after_pending (keepsQueue_updStart a v 4) s) h
  · exact pending_of_some (after_doOn_pending _ _ s) h
  · exact pending_of_some (after_pending (keepsQueue_updStart a v 6) s) h
  · exact pending_of_some (after_pending (keepsQueue_updStart a v 7) s) h
  · exact pending_of_some (after_pending (keepsQueue_updStart a v 8) s) h
  · cases h
  · cases h

theorem State.prtCommand_pending (h : s.prtCommand a blk off v = some t) : t.pending = s.pending := by
  simp only [State.prtCommand] at h
  split at h
  · split at h
    · exact pending_of_some (after_doOn_pending _ _ s) h
    · cases h
  · repeat' split at h
    · exact pending_of_some (after_doOn_pending _ _ s) h
    · exact pending_of_some (after_doOn_pending _ _ s) h
    · cases h
    · exact pending_of_some (after_doOn_pending _ _ s) h
    · exact pending_of_some (after_doOn_pending _ _ s) h
    · cases h
    · exact pending_of_some (after_doOn_pending _ _ s) h
    · cases h

theorem State.ownCommand_pending (h : s.ownCommand a blk ch off v = some t) : t.pending = s.pending := by
  unfold State.ownCommand at h
  split at h
  · exact State.sysCommand_pending h
  · exact State.pwrCommand_pending h
  · exact State.busCommand_pending h
  · exact State.busCommand_pending h
  · exact State.busCommand_pending h
  · exact State.tableCommand_pending h
  · exact State.tableCommand_pending h
  · exact State.tableCommand_pending h
  · exact State.timCommand_pending h
  · exact State.keyCommand_pending h
  · exact State.keyCommand_pending h
  · exact State.mailCommand_pending h
  · exact State.mailCommand_pending h
  · exact State.stwCommand_pending h
  · exact State.nwlCommand_pending h
  · split at h
    · exact pending_of_some (after_doOn_pending _ _ s) h
    · split at h
      · exact pending_of_some (after_doOn_pending _ _ s) h
      · cases h
  · exact State.updCommand_pending h
  · exact State.prtCommand_pending h
  · exact State.prtCommand_pending h
  · cases h

theorem State.ownRead_pending (h : s.ownRead a blk ch off = some t) : t.pending = s.pending := by
  unfold State.ownRead at h
  repeat' split at h
  · exact pending_of_map (fun n => after_doOn_pending _ _ s) h
  · exact pending_of_map (fun n => after_doOn_pending _ _ s) h
  · exact pending_of_map (fun n => after_doOn_pending _ _ s) h
  · exact pending_of_some (after_doOn_pending _ _ s) h
  · exact pending_of_some (after_doOn_pending _ _ s) h
  · cases h
  · exact pending_of_some (after_doOn_pending _ _ s) h
  · cases h
  · cases h

end

/-- A table of commands and the access that none of them answers, all of which keep the queue. -/
theorem pending_getD {s u : State} {o : Option State} (ho : ∀ t, o = some t → t.pending = s.pending) (hu : u.pending = s.pending) :
    (o.getD u).pending = s.pending := by
  cases o with
  | none => exact hu
  | some t => exact ho t rfl

@[simp] theorem State.regWrite_pending (s : State) (a : Acc) (blk off : Nat) (v : Word) : (s.regWrite a blk off v).pending = s.pending := by
  simp only [State.regWrite]
  split
  · exact s.on_pending _ _
  · exact pending_getD (fun _ h => State.ownCommand_pending h) (s.on_pending _ _)

@[simp] theorem State.regReadAt_pending (s : State) (a : Acc) (blk off : Nat) : (s.regReadAt a blk off).pending = s.pending :=
  pending_getD (fun _ h => State.ownRead_pending h) (s.on_pending _ _)

@[simp] theorem State.regAccess_pending (s : State) (a : Acc) (q : BusReq) : (s.regAccess a q).pending = s.pending := by
  simp only [State.regAccess]
  repeat' split
  all_goals simp

@[simp] theorem State.localAccess_pending (s : State) (a : Acc) (q : BusReq) (posted : Bool) :
    (s.localAccess a q posted).pending = s.pending := by
  simp only [State.localAccess]
  split <;> simp

@[simp] theorem State.remotePerform_pending (s : State) (d : Die) (m : VMsg) : (s.remotePerform d m).pending = s.pending := by
  simp only [State.remotePerform]
  repeat' split
  all_goals simp

@[simp] theorem State.pcieAccess_pending (s : State) (d : Die) (bar2 : Bool) (q : BusReq) :
    (s.pcieAccess d bar2 q).pending = s.pending := by
  simp only [State.pcieAccess]
  repeat' split
  all_goals simp

theorem keepsQueue_registerWrite (a : Acc) (req : BusReq) : KeepsQueue (execRegisterWrite a req) := by
  refine keepsQueue_next fun s => ?_
  split <;> simp

theorem keepsQueue_rcRead (a : Acc) (addr : Nat) : KeepsQueue (execRcRead a addr) :=
  fun s => ⟨_, rfl, s.regAccess_pending _ _⟩

theorem keepsQueue_stwRemoteRequest (d : Die) : KeepsQueue (execStwRemoteRequest d) := by
  refine keepsQueue_next fun s => ?_
  repeat' split
  all_goals simp

theorem keepsQueue_pcieInboundRequest (d : Die) (bar2 : Bool) (req : BusReq) : KeepsQueue (execPcieInboundRequest d bar2 req) := by
  refine keepsQueue_next fun s => ?_
  split
  · rw [State.pcieAccess_pending]
    split <;> simp
  · rfl

/-- Settles O2: command by command; most change one die and are done by `State.on_pending`. -/
theorem everyCommandKeepsTheQueue : Obligations.EveryCommandKeepsTheQueue := by
  intro c s
  unfold exec
  cases c
  all_goals dsimp only
  case registerWrite => exact keepsQueue_registerWrite _ _ s
  case uncorrectableError => exact keepsQueue_uncorrectableError _ _ s
  case cueFire => exact keepsQueue_cueFire _ _ s
  case tbFollowState => exact keepsQueue_tbFollowState s
  case drkCommandDone => exact keepsQueue_drkCommandDone _ s
  case epochWriteDone => exact keepsQueue_epochWriteDone _ _ s
  case stwFlitReceive => exact keepsQueue_stwFlitReceive _ _ s
  case stwRetryTimeout => exact keepsQueue_stwRetryTimeout _ s
  case stwRetrain => exact keepsQueue_stwRetrain _ _ s
  case stwLinkUp => exact keepsQueue_stwLinkUp _ s
  case stwRemoteRequest => exact keepsQueue_stwRemoteRequest _ s
  case stwHeartbeatMiss => exact keepsQueue_stwHeartbeatMiss _ s
  case newelPairDisarm => exact keepsQueue_newelPairDisarm s
  case replDrop => exact keepsQueue_replDrop _ s
  case failoverConfirm => exact keepsQueue_failoverConfirm _ s
  case handoverChannelMove => exact keepsQueue_handoverChannelMove _ s
  case joinTimego => exact keepsQueue_joinTimego _ _ s
  case joinCopyDone => exact keepsQueue_joinCopyDone _ s
  case pcieInboundRequest => exact keepsQueue_pcieInboundRequest _ _ _ s
  case nlNop => exact keepsQueue_nlNop _ s
  case nlRead => exact keepsQueue_nlRead _ _ _ s
  case nlPairPrep => exact keepsQueue_nlPairPrep _ _ _ s
  case nlSwitch => exact keepsQueue_nlSwitch _ _ _ s
  case nlResync => exact keepsQueue_nlResync _ s
  case nlAck => exact keepsQueue_nlAck _ _ s
  case nlEvent => exact keepsQueue_nlEvent _ _ s
  case wakePinEdge => exact keepsQueue_wakePinEdge _ _ s
  case hallCtlWrite => exact keepsQueue_hallCtlWrite _ _ s
  case hallReset => exact keepsQueue_hallReset _ _ s
  case restRequest => exact keepsQueue_restRequest _ _ s
  case restEnter => exact keepsQueue_restEnter _ s
  case restWake => exact keepsQueue_restWake _ _ s
  case moduleOff => exact keepsQueue_moduleOff s
  case modulePowerOn => exact keepsQueue_modulePowerOn _ s
  case powerGoodRise => exact keepsQueue_powerGoodRise _ _ s
  case powerGoodFault => exact keepsQueue_powerGoodFault _ _ s
  case newelReset => exact keepsQueue_newelReset s
  case rstinAssert => exact keepsQueue_rstinAssert _ s
  case pwrResetWrite => exact keepsQueue_pwrResetWrite _ _ s
  case bootHeaderDone => exact keepsQueue_bootHeaderDone _ s
  case updTrialExpiry => exact keepsQueue_updTrialExpiry _ s
  case rcRead => exact keepsQueue_rcRead _ _ s
  case pairPrepTimeout => exact keepsQueue_pairPrepTimeout s
  case nlAddr | nlData | nlLoad | nlDuty | nlClear | nlWdAns | nlApply | nlWdArm | nlSlExit | nlOwnerSet | nlEeRead |
      nlEeWrite | nlPwrRetry =>
    exact keepsQueue_nlDo _ _ _ s
  case newelTxdMismatch | newelLinkSilent | newelLinkLost | loadOcTrip | loadThermTrip | loadThermCool | wireModelTick |
      loadDiagDetect | loadRestart | loadWarmEnd | pwmPeriodStart | senseSample | loadDisagree | vbatLow | vbatRecover |
      wdAutoArm | wdPeriodMiss | safelightPinChange | lhPinEdge | xcvrTxdTimeout | xcvrThermalShutdown | eePageDone |
      pgRetry | ownerSetTimeout | reverseBattery =>
    exact keepsQueue_onNewel _ s
  case updOpen | updActivate | updConfirm | updFallback | updChain | updInit =>
    exact keepsQueue_updStart _ _ _ s
  case stwAmo | stwLr | stwSc =>
    exact ⟨_, rfl, s.bridgeDo_pending _ _ _ _⟩
  all_goals exact ⟨_, rfl, s.on_pending _ _⟩

end Sys2Proof.Machine
end

section
/-! Accesses by physical address (02 R36 to R44, R48): how an access reaches its register, what refuses it, and that it then changes
nothing else; the resets and the Newel. -/

namespace Sys2Proof.Machine

theorem doOn_eq_set {s : State} {i : Die} {f : DieState → DieState} {x : DieState} (h : f (s.get i) = x) : s.doOn i f = .next (s.set i x) := by
  subst h
  rfl

/-! ### Addresses -/

theorem regionOf_regs {n : Nat} (h : regionOf n = .regs) : 0x40000000 ≤ n ∧ n < 0x42000000 := by
  unfold regionOf at h
  repeat' split at h
  case isFalse.isFalse.isFalse.isFalse.isFalse.isTrue => assumption
  all_goals cases h

theorem regAddr_regBlk_regOff {n : Nat} (h : 0x40000000 ≤ n) : regAddr (regBlk n) (regOff n) = n := by
  simp only [regAddr, regBlk, regOff]
  omega

/-- An access to a register that no command of its own takes. -/
theorem exec_registerWrite_regs {a : Acc} {q : BusReq} {s : State} (h : regionOf q.addr = .regs) :
    exec (.registerWrite a q) s = .next (s.regAccess a q) := by
  change Host.Outcome.next (if regionOf q.addr = .remote then s else s.localAccess a q) = _
  rw [if_neg (by rw [h]; decide), State.localAccess, h]

theorem State.regAccess_sizeError {s : State} {a : Acc} {q : BusReq} (hb : regBlk q.addr ≤ 20) (h : q.size ≠ 4 ∨ q.addr % 4 ≠ 0) :
    s.regAccess a q = s.on a.die fun d => d.complete a.req q.addr .sizeError := by
  rw [State.regAccess, if_neg (Nat.not_lt.mpr hb), if_pos h]

theorem State.regAccess_write {s : State} {a : Acc} {q : BusReq} (hb : regBlk q.addr ≤ 20) (h4 : q.addr % 4 = 0) (hs : q.size = 4)
    (hw : q.write = true) : s.regAccess a q = s.regWrite a (regBlk q.addr) (regOff q.addr) (BitVec.ofNat 32 (reqValue q)) := by
  rw [State.regAccess, if_neg (Nat.not_lt.mpr hb), if_neg (by omega), if_pos hw]

theorem State.regAccess_read {s : State} {a : Acc} {q : BusReq} (hb : regBlk q.addr ≤ 20) (h4 : q.addr % 4 = 0) (hs : q.size = 4)
    (hw : q.write = false) : s.regAccess a q = s.regReadAt a (regBlk q.addr) (regOff q.addr) := by
  rw [State.regAccess, if_neg (Nat.not_lt.mpr hb), if_neg (by omega), if_neg (by rw [hw]; decide)]

theorem State.regWrite_fields {s : State} {a : Acc} {blk off : Nat} {v : Word} (hsel : selAt blk off = none)
    (hown : s.ownCommand a blk ((s.get a.die).selected a.req blk) off v = none) :
    s.regWrite a blk off v = s.set a.die ((s.get a.die).writeReg a.req blk ((s.get a.die).selected a.req blk) off v (fun d => d)
      ((s.get a.die).mbShut a.req blk ((s.get a.die).selected a.req blk) off)) := by
  simp only [State.regWrite, hsel, hown]
  rfl

/-! ### Refusals -/

/-- Only the debugger can be shut out by an authentication that it lacks. -/
theorem DieState.debugShut_of_ne {d : DieState} {q : Requester} (h : q ≠ .debug) : d.debugShut q = false := by
  simp [DieState.debugShut, h]

theorem DieState.regStatus_secureViolation {d : DieState} {q : Requester} {blk ch off : Nat} {w : Bool} (hb : blk ≤ 20) (hq : q ≠ .debug)
    (hso : secureOnly blk ch off = true) (hs : d.secure q = false) : d.regStatus q blk ch off w = .secureViolation := by
  simp [DieState.regStatus, Nat.not_lt.mpr hb, debugShut_of_ne hq, hso, hs, hq]

theorem DieState.regStatus_hallAsleep {d : DieState} {q : Requester} {blk ch off : Nat} {w : Bool} (hb : blk ≤ 20) (hq : q ≠ .debug)
    (hs : d.secure q = true) (hh : d.hallUp (hallOfReg blk ch off) = false) : d.regStatus q blk ch off w = .hallAsleep := by
  simp [DieState.regStatus, Nat.not_lt.mpr hb, debugShut_of_ne hq, hs, hh]

/-- The shadow view is read only (02 R48). -/
theorem DieState.regStatus_shadow_write {d : DieState} {q : Requester} {blk ch off : Nat} (h : 0x80000 ≤ off) :
    d.regStatus q blk ch off true ≠ .okay := by
  unfold DieState.regStatus
  repeat' split
  case isFalse.isFalse.isFalse.isFalse.isFalse.isFalse.isFalse.isFalse.isFalse.isFalse hn => exact absurd ⟨rfl, h⟩ hn
  all_goals decide

theorem DieState.memStatus_sram_secureViolation {d : DieState} {r : Requester} {q : BusReq} (hr : regionOf q.addr = .sram)
    (hd : d.debugShut r = false) (hh : d.hallUp .host = true) (hz : sizeOk q = true) (ho : d.sramOpen (d.secure r) q.addr = false) :
    d.memStatus r q = .secureViolation := by
  simp [DieState.memStatus, DieState.targetAsleep, hr, hd, hh, hz, ho]

theorem DieState.remoteAccess_of_remote {d : DieState} {r : Requester} {q : BusReq} {o : Fin 32} {b : Bool} (h : r = .remote o b) :
    d.remoteAccess r q = d.complete r q.addr .decodeError := by
  subst h
  rfl

/-- The remote window of a requester that is not itself reached over the link. -/
theorem DieState.remoteAccess_of_local {d : DieState} {r : Requester} {q : BusReq} (hr : ∀ o b, r ≠ .remote o b)
    (hd : d.debugShut r = false) : d.remoteAccess r q =
      if !d.linkUp then d.complete r q.addr .linkDown else if !sizeOk q then d.complete r q.addr .sizeError else d.sendRemote r q := by
  unfold DieState.remoteAccess
  split
  · exact absurd rfl (hr _ _)
  · rw [if_neg (by rw [hd]; decide)]

theorem exec_remoteWindowAccess {a : Acc} {q : BusReq} {s : State} (h : regionOf q.addr = .remote) :
    exec (.remoteWindowAccess a q) s = .next (s.set a.die ((s.get a.die).remoteAccess a.req q)) :=
  doOn_eq_set (if_pos h)

/-- Settles O12: each access by the check that refuses it first. -/
theorem refusedAccessesHaveNoEffect : Obligations.RefusedAccessesHaveNoEffect := by
  refine ⟨fun a q s hr hb h => ?size, fun a q s => ?status, fun a q s hr hd hh hz ho => ?sram, fun a q s hr => ⟨fun o b h => ?remote,
    fun hl hd hu => ?down⟩, fun d q blk ch off w hb hq => ⟨DieState.regStatus_secureViolation hb hq,
    DieState.regStatus_hallAsleep hb hq⟩, fun d q blk ch off h => DieState.regStatus_shadow_write h⟩
  case size =>
    rw [exec_registerWrite_regs hr, State.regAccess_sizeError hb h]
    rfl
  case status =>
    intro d blk off ch hr hb h4 hz hw hsel hown hst
    rw [exec_registerWrite_regs hr, State.regAccess_write hb h4 hz hw, State.regWrite_fields hsel hown,
      DieState.writeReg_refused _ _ _ _ _ _ _ _ hst, regAddr_regBlk_regOff (regionOf_regs hr).1]
  case sram =>
    change Host.Outcome.next (if regionOf q.addr = .remote then s else s.localAccess a q) = _
    rw [if_neg (by rw [hr]; decide), State.localAccess, hr]
    exact doOn_eq_set (by rw [DieState.memAccess, DieState.memStatus_sram_secureViolation hr hd hh hz ho])
  case remote => rw [exec_remoteWindowAccess hr, DieState.remoteAccess_of_remote h]
  case down => rw [exec_remoteWindowAccess hr, DieState.remoteAccess_of_local hl hd, if_pos (by rw [hu]; decide)]

/-! ### Accesses that complete -/

theorem DieState.regRead_okay {d : DieState} {r : Requester} {blk ch off : Nat} (hoff : off < 0x80000)
    (hm : d.mbShut r blk ch off = false) (h : d.regStatus r blk ch off false = .okay) :
    d.regRead r blk ch off = (((d.complete r (regAddr blk off) .okay (d.regWord r blk ch off)).rcClear blk
        (regChan blk ch (reqCopy r) off) off).readAct blk off) := by
  rw [DieState.regRead, if_neg (by rw [hm]; simp), DieState.readReg_okay _ _ _ _ _ _ _ h, if_pos hoff]

theorem State.regReadAt_fields {s : State} {a : Acc} {blk off : Nat} (hown : s.ownRead a blk ((s.get a.die).selected a.req blk) off = none) :
    s.regReadAt a blk off = s.set a.die ((s.get a.die).regRead a.req blk ((s.get a.die).selected a.req blk) off) := by
  simp only [State.regReadAt, hown]
  rfl

theorem regBlk_le {n : Nat} (h : n < 0x1500000) : regBlk (0x40000000 + n) ≤ 20 := by
  unfold regBlk
  omega

/-- Settles O17: each command by the branch of its definition that the hypotheses name. -/
theorem accessCommandsComplete : Obligations.AccessCommandsComplete := by
  refine ⟨?write, ?read, ?select, ?remote, fun a q s h => ?none, fun a q s h => ?asleep, ?timeout, ?late⟩
  case write =>
    intro a q s d blk off ch v hr hb h4 hz hw hsel hown hm hst
    rw [exec_registerWrite_regs hr, State.regAccess_write hb h4 hz hw, State.regWrite_fields hsel hown, hm,
      DieState.writeReg_okay _ _ _ _ _ _ _ hst]
  case read =>
    intro a addr s d blk off ch ha h4 hoff hown hm hst
    have haddr : addr % 0x2000000 = addr := Nat.mod_eq_of_lt (by omega)
    have hread : s.regAccess a { write := false, addr := 0x40000000 + addr, size := 4, data := [] } = s.regReadAt a blk off :=
      State.regAccess_read (by exact regBlk_le ha) (by dsimp only; omega) rfl rfl
    change Host.Outcome.next (s.regAccess a { write := false, addr := 0x40000000 + addr % 0x2000000, size := 4, data := [] }) = _
    rw [haddr, hread, State.regReadAt_fields hown, DieState.regRead_okay hoff hm hst]
  case select =>
    intro a b v s d hst hv
    rw [exec_selWrite_okay a b v s hst]
    exact congrArg Host.Outcome.next (congrArg (s.set a.die) (if_pos hv))
  case remote =>
    intro a q s d hr hl hd hu hz
    have hsend : exec (.remoteWindowAccess a q) s = .next (s.set a.die (d.sendRemote a.req q)) := by
      rw [exec_remoteWindowAccess hr, DieState.remoteAccess_of_local hl hd, if_neg (by rw [hu]; decide), if_neg (by rw [hz]; decide)]
    refine ⟨fun hw => ?_, fun hw hn => ?_⟩
    · rw [hsend, DieState.sendRemote, if_pos hw, hw]
    · rw [hsend, DieState.sendRemote, if_neg (by rw [hw]; decide), if_neg (Nat.not_le.mpr hn), hw]
      rfl
  case none => exact doOn_eq_set (if_pos h)
  case asleep => exact doOn_eq_set (if_pos h)
  case timeout =>
    intro a p s d hp ht
    refine doOn_eq_set ?_
    simp only [d] at hp ht
    simp only [hp, if_pos ht]
    rfl
  case late =>
    intro a p s d hp
    refine doOn_eq_set ?_
    simp only [d] at hp
    simp only [hp]
    rfl

/-! ### Resets and the Newel -/

@[simp] theorem State.dieReset_newel (s : State) (d : Die) (cause : Nat) (expired : Bool) : (s.dieReset d cause expired).newel = s.newel := by
  simp [State.dieReset]

theorem doOn_newel {s t : State} {i : Die} {f : DieState → DieState} (h : s.doOn i f = .next t) : t.newel = s.newel := by
  cases h
  exact s.on_newel i f

/-- Settles O11: each of the six commands changes dies only. -/
theorem resetsLeaveTheLoadChannels : Obligations.ResetsLeaveTheLoadChannels := by
  rintro c s t (⟨a, v, rfl | rfl | rfl | rfl | rfl⟩ | ⟨i, rfl⟩) h
  · cases h
    split <;> simp
  · change execHallCtlWrite a v s = .next t at h
    simp only [execHallCtlWrite] at h
    split at h
    · exact doOn_newel h
    · cases h
      split <;> simp
  · cases h
    split <;> simp
  · exact doOn_newel h
  · exact doOn_newel h
  · cases h
    split <;> simp

end Sys2Proof.Machine
end

section
/-! The status bits of the Forrek instructions (04 R82, R84, Table 4.2): one rule per bit, and the registers that results write. -/

namespace Sys2Proof.Machine

theorem getLsbD_flagsZN (st : BitVec 16) (r : Word) (k : Nat) :
    (flagsZN st r).getLsbD k = if k = 1 then r.msb else if k = 0 then decide (r = 0) else st.getLsbD k := by
  rw [flagsZN, getLsbD_setSt, getLsbD_setSt]
  rfl

theorem getLsbD_flagsSat (st : BitVec 16) (clamped : Bool) (k : Nat) :
    (flagsSat st clamped).getLsbD k = if k = 4 then (st.getLsbD 4 || clamped) else st.getLsbD k := by
  cases clamped
  · by_cases hk : k = 4 <;> simp [flagsSat, hk]
  · by_cases hk : k = 4 <;> simp [flagsSat, getLsbD_setSt, StBit.num, hk]

/-- A sum overflows when the operands have one sign and the result the other. -/
theorem toInt_add_ne_iff (a b : Word) : (a + b).toInt ≠ a.toInt + b.toInt ↔ a.msb = b.msb ∧ (a + b).msb ≠ a.msb := by
  have ha := a.toInt_lt
  have ha' := a.le_toInt
  have hb := b.toInt_lt
  have hb' := b.le_toInt
  have hr := BitVec.toInt_add a b
  rw [Int.bmod_def] at hr
  simp only [BitVec.msb_eq_toInt, decide_eq_decide, ne_eq]
  omega

/-- A difference overflows when the operands have two signs and the result not that of the first. -/
theorem toInt_sub_ne_iff (a b : Word) : (a - b).toInt ≠ a.toInt - b.toInt ↔ a.msb ≠ b.msb ∧ (a - b).msb ≠ a.msb := by
  have ha := a.toInt_lt
  have ha' := a.le_toInt
  have hb := b.toInt_lt
  have hb' := b.le_toInt
  have hr := BitVec.toInt_sub (x := a) (y := b)
  rw [Int.bmod_def] at hr
  simp only [BitVec.msb_eq_toInt, decide_eq_decide, ne_eq]
  omega

theorem getLsbD_flagsAdd (st : BitVec 16) (a b : Word) (k : Nat) :
    (flagsAdd st a b).getLsbD k =
      if k = 3 then decide (a.msb = b.msb) && decide ((a + b).msb ≠ a.msb)
      else if k = 2 then decide (2 ^ 32 ≤ a.toNat + b.toNat)
      else (flagsZN st (a + b)).getLsbD k := by
  simp only [flagsAdd, getLsbD_setSt, toInt_add_ne_iff, Bool.decide_and]
  rfl

theorem getLsbD_flagsSub (st : BitVec 16) (a b : Word) (k : Nat) :
    (flagsSub st a b).getLsbD k =
      if k = 3 then decide (a.msb ≠ b.msb) && decide ((a - b).msb ≠ a.msb)
      else if k = 2 then decide (a.toNat < b.toNat)
      else (flagsZN st (a - b)).getLsbD k := by
  simp only [flagsSub, getLsbD_setSt, toInt_sub_ne_iff, Bool.decide_and]
  rfl

/-- A register after a write of a register, whichever of the two is w0. -/
theorem Context.gr_setGr (x : Context) (rd k : Fin 16) (v : Word) :
    (x.setGr rd v).gr k = if k = rd ∧ rd.val ≠ 0 then v else x.gr k := by
  by_cases h0 : rd.val = 0
  · rw [if_neg fun h => h.2 h0, h0, setGr_zero]
  · by_cases hk : k = rd
    · rw [if_pos ⟨hk, h0⟩, hk, gr_setGr_same x rd v h0 rd.isLt]
    · rw [if_neg fun h => hk h.1, gr_setGr_other x rd k v fun h => hk (Fin.ext h)]

/-- The registers do not depend on st. -/
@[simp] theorem Context.gr_st (x : Context) (st : BitVec 16) (k : Nat) : ({ x with st := st } : Context).gr k = x.gr k := rfl

theorem satS_bounds (w : Nat) (p : Int) : -(2 ^ (w - 1)) ≤ satS w p ∧ satS w p < 2 ^ (w - 1) := by
  have h : (0 : Int) < 2 ^ (w - 1) := by positivity
  unfold satS
  omega

theorem satS_of_mem {w : Nat} {p : Int} (h1 : -(2 ^ (w - 1)) ≤ p) (h2 : p < 2 ^ (w - 1)) : satS w p = p := by
  unfold satS
  omega

theorem satU_bounds (w : Nat) (p : Int) : 0 ≤ satU w p ∧ satU w p < 2 ^ w := by
  have h : (0 : Int) < 2 ^ w := by positivity
  unfold satU
  omega

theorem satU_of_mem {w : Nat} {p : Int} (h1 : 0 ≤ p) (h2 : p < 2 ^ w) : satU w p = p := by
  unfold satU
  omega

/-- Settles O22: each bit by the rule of its flag, each register by `gr_setGr`, the clamps by their bounds. -/
theorem forrekStatusAndRegisters : Obligations.ForrekStatusAndRegisters := by
  refine ⟨fun st a b => ?add, fun st a b => ?sub, fun x rd v k => ?zn, fun x rd p q k => ?sat, fun x rd p q k => ?lanes,
    fun w p _ _ => ⟨⟨(satS_bounds w p).1, (satS_bounds w p).2, satS_of_mem⟩, (satU_bounds w p).1, (satU_bounds w p).2, satU_of_mem⟩,
    fun x v => ⟨x.gr_zero, x.setGr_zero v⟩⟩
  case add =>
    refine ⟨?_, ?_, ?_, ?_, fun k hk => ?_⟩
    all_goals simp only [getLsbD_flagsAdd, getLsbD_flagsZN]
    case refine_5 =>
      have hbits : k ≠ 0 ∧ k ≠ 1 ∧ k ≠ 2 ∧ k ≠ 3 := by omega
      simp [hbits]
    all_goals simp
  case sub =>
    refine ⟨?_, ?_, ?_, ?_, fun k hk => ?_⟩
    all_goals simp only [getLsbD_flagsSub, getLsbD_flagsZN]
    case refine_5 =>
      have hbits : k ≠ 0 ∧ k ≠ 1 ∧ k ≠ 2 ∧ k ≠ 3 := by omega
      simp [hbits]
    case refine_1 => simp [BitVec.sub_eq_iff_eq_add]
    all_goals simp
  case zn =>
    refine ⟨?_, ?_, fun j hj => ?_, x.gr_setGr rd k v⟩
    all_goals simp only [Context.setZn, getLsbD_flagsZN]
    case refine_3 =>
      have hbits : j ≠ 0 ∧ j ≠ 1 := by omega
      simp [hbits]
    all_goals simp
  case sat =>
    refine ⟨?_, ?_, ?_, fun j hj hj4 => ?_, x.gr_setGr rd k _⟩
    all_goals simp only [Context.setSat, lowWord, getLsbD_flagsSat, getLsbD_flagsZN]
    case refine_4 =>
      have hbits : j ≠ 0 ∧ j ≠ 1 := by omega
      simp [hbits, hj4]
    all_goals simp
  case lanes =>
    refine ⟨x.gr_setGr rd k _, ?_, fun j hj hj4 => ?_⟩
    all_goals simp only [Context.setLanes, getLsbD_flagsSat, getLsbD_flagsZN]
    · simp [Bool.or_assoc]
    · have hbits : j ≠ 0 ∧ j ≠ 1 := by omega
      simp [hbits, hj4]

end Sys2Proof.Machine
end

section
/-! What the Forrek instructions leave (chapter 4). The issue of an instruction is the same for all of them (R85; 03 R74, R75): where it may
run, the instruction counts as issued and its body runs; the rules here say so once, and each instruction is its body. -/

namespace Sys2Proof.Machine

/-- Where an instruction may run, its command is its body, on the die that counts it as issued. -/
theorem doOn_issue {s : State} {c : Ctx} {i : Instr} {body : DieState → Context → DieState} {x : DieState}
    (h : (s.get c.die).issuable c i = true)
    (hx : body ((s.get c.die).countIssue (ctxNum c)) (((s.get c.die).countIssue (ctxNum c)).ctx (ctxNum c)) = x) :
    s.doOn c.die (fun d => d.issue c i body) = .next (s.set c.die x) := by
  subst hx
  exact congrArg (fun y => Host.Outcome.next (s.set c.die y)) (DieState.issue_issuable _ c i body h)

/-- An instruction that computes registers from registers. -/
theorem computesTo {c : Ctx} {i : Instr} {f : Context → Context} (h : ∀ s, exec i s = s.doOn c.die fun d => d.compute c i f) :
    ComputesTo c i f := by
  intro s hi
  rw [h s]
  exact doOn_issue hi rfl

/-- The same, where the meaning is written in another way. -/
theorem computesTo_congr {c : Ctx} {i : Instr} {f g : Context → Context} (h : ∀ s, exec i s = s.doOn c.die fun d => d.compute c i f)
    (hfg : ∀ x, f x = g x) : ComputesTo c i g := funext hfg ▸ computesTo h

theorem boolWord_slt (a b : Word) : boolWord (a.slt b) = if a.toInt < b.toInt then 1 else 0 := by simp [boolWord, BitVec.slt]

theorem boolWord_ult (a b : Word) : boolWord (a.ult b) = if a.toNat < b.toNat then 1 else 0 := by simp [boolWord, BitVec.ult]

/-- Settles O20: each instruction computes; the comparisons of the model are those of the values. -/
theorem forrekRegisterInstructions : Obligations.ForrekRegisterInstructions := by
  refine ⟨?_, ?_, ?_, ?_, ?_, ?_, ?_, ?_, ?_, ?_, ?_, ?_, ?_, ?_, ?_, ?_, ?_, ?min, ?max, ?minu, ?maxu, ?slt, ?sltu,
    ?_, ?_, ?_, ?_, ?_, ?_, ?_, ?_, ?_, ?_⟩
  case min | max => exact fun c rd ra rb => computesTo_congr (fun _ => rfl) fun x => by simp [BitVec.slt]
  case minu | maxu => exact fun c rd ra rb => computesTo_congr (fun _ => rfl) fun x => by simp [BitVec.ult]
  case slt => exact fun c rd ra rb => computesTo_congr (fun _ => rfl) fun x => by rw [boolWord_slt]
  case sltu => exact fun c rd ra rb => computesTo_congr (fun _ => rfl) fun x => by rw [boolWord_ult]
  all_goals
    intros
    exact computesTo fun _ => rfl

/-- Settles O21: each instruction computes; the comparisons of the model are those of the values. -/
theorem forrekImmediateInstructions : Obligations.ForrekImmediateInstructions := by
  refine ⟨?_, ?_, ?_, ?_, ?_, ?_, ?_, ?_, ?_, ?slti, ?sltiu, ?_, ?_⟩
  case slti => exact fun c rd ra imm => computesTo_congr (fun _ => rfl) fun x => by rw [boolWord_slt]; rfl
  case sltiu => exact fun c rd ra imm => computesTo_congr (fun _ => rfl) fun x => by rw [boolWord_ult]; rfl
  all_goals
    intros
    exact computesTo fun _ => rfl

/-! ### Loads and stores -/

theorem dataAddr_eq_some {base : Word} {imm : BitVec 16} {width : Nat} (h : (base + imm.signExtend 32).toNat < 0x3400)
    (ha : (base + imm.signExtend 32).toNat % width = 0) : dataAddr base imm width = some (base + imm.signExtend 32).toNat :=
  if_pos ⟨h, ha⟩

theorem dataAddr_eq_none {base : Word} {imm : BitVec 16} {width : Nat}
    (h : 0x3400 ≤ (base + imm.signExtend 32).toNat ∨ (base + imm.signExtend 32).toNat % width ≠ 0) : dataAddr base imm width = none :=
  if_neg fun hn => h.elim (Nat.not_le.mpr hn.1) fun ha => ha hn.2

section
variable {s : State} {c : Ctx} {i : Instr} {rd ra : GReg} {imm : BitVec 16} {width : Nat} {f : Nat → Word}

theorem doOn_load {ea : Nat} (h : (s.get c.die).issuable c i = true)
    (hea : dataAddr ((((s.get c.die).countIssue (ctxNum c)).ctx (ctxNum c)).gr ra) imm width = some ea) :
    s.doOn c.die (fun d => d.load c i rd ra imm width f) = .next (s.set c.die
      (((s.get c.die).countIssue (ctxNum c)).retire c ((((s.get c.die).countIssue (ctxNum c)).ctx (ctxNum c)).setGr rd
        (f (leNat (((s.get c.die).countIssue (ctxNum c)).dataBytes c ea width)))))) :=
  doOn_issue h (by simp only [hea])

theorem doOn_load_bound (h : (s.get c.die).issuable c i = true)
    (hea : dataAddr ((((s.get c.die).countIssue (ctxNum c)).ctx (ctxNum c)).gr ra) imm width = none) :
    s.doOn c.die (fun d => d.load c i rd ra imm width f) =
      .next (s.set c.die (((s.get c.die).countIssue (ctxNum c)).abort (ctxNum c) .memBound)) :=
  doOn_issue h (by simp only [hea])

theorem doOn_store {ea : Nat} (h : (s.get c.die).issuable c i = true)
    (hea : dataAddr ((((s.get c.die).countIssue (ctxNum c)).ctx (ctxNum c)).gr ra) imm width = some ea) :
    s.doOn c.die (fun d => d.store c i rd ra imm width) = .next (s.set c.die
      ((((s.get c.die).countIssue (ctxNum c)).setData c ea
        (leBytes width ((((s.get c.die).countIssue (ctxNum c)).ctx (ctxNum c)).gr rd).toNat)).retire c
          (((s.get c.die).countIssue (ctxNum c)).ctx (ctxNum c)))) :=
  doOn_issue h (by simp only [hea])

theorem doOn_store_bound (h : (s.get c.die).issuable c i = true)
    (hea : dataAddr ((((s.get c.die).countIssue (ctxNum c)).ctx (ctxNum c)).gr ra) imm width = none) :
    s.doOn c.die (fun d => d.store c i rd ra imm width) =
      .next (s.set c.die (((s.get c.die).countIssue (ctxNum c)).abort (ctxNum c) .memBound)) :=
  doOn_issue h (by simp only [hea])

end

/-- Settles O23: a load or store within bounds and aligned. -/
theorem forrekMemoryInstructions : Obligations.ForrekMemoryInstructions := by
  refine ⟨?_, ?_, ?_, ?_, ?_, ?stb, ?sth, ?stw⟩
  case stb | sth | stw =>
    intro c rs ra imm s d x ea hi hlt ha
    exact doOn_store hi (dataAddr_eq_some hlt ha)
  all_goals
    intro c rd ra imm s d x ea hi hlt ha
    exact doOn_load hi (dataAddr_eq_some hlt ha)

/-- Settles O24: a load or store out of bounds or not aligned. -/
theorem forrekMemoryBounds : Obligations.ForrekMemoryBounds := by
  refine ⟨?_, ?_, ?_, ?_, ?_, ?stb, ?sth, ?stw⟩
  case stb | sth | stw =>
    intro c rs ra imm s d x ea hi ha
    exact doOn_store_bound hi (dataAddr_eq_none ha)
  all_goals
    intro c rd ra imm s d x ea hi ha
    exact doOn_load_bound hi (dataAddr_eq_none ha)

/-! ### The frame of a store -/

theorem Tab.get?_map_values {α : Type} (g : Nat → α → α) (t : Tab α) (k : Nat) :
    Tab.get? (t.map fun e => (e.1, g e.1 e.2)) k = (t.get? k).map (g k) := by
  induction t with
  | nil => rfl
  | cons e r ih =>
    simp only [List.map_cons, Tab.get?]
    split
    · next hk => rw [hk, Option.map_some]
    · split
      · rfl
      · exact ih

/-- A context whose engine has issued an instruction of context `n`. -/
def Context.heard (n m : Nat) (x : Context) : Context := if m / 4 = n / 4 then { x with yields := x.yields.erase n } else x

theorem DieState.ctxs_heardIssue (d : DieState) (n : Nat) :
    (d.heardIssue n).eng.ctxs = d.eng.ctxs.map fun e => (e.1, Context.heard n e.1 e.2) := by
  refine List.map_congr_left fun e _ => ?_
  simp only [Context.heard]
  split <;> rfl

theorem Context.gr_heard (n m : Nat) (x : Context) (k : Nat) : (Context.heard n m x).gr k = x.gr k := by
  unfold Context.heard
  split <;> rfl

/-- Counting an issue leaves the registers of the context alone. -/
theorem DieState.gr_countIssue (d : DieState) (n k : Nat) : ((d.countIssue n).ctx n).gr k = (d.ctx n).gr k := by
  have hheard : ((d.heardIssue n).ctx n).gr k = (d.ctx n).gr k := by
    rw [DieState.ctx, Tab.get, ctxs_heardIssue, Tab.get?_map_values (Context.heard n), DieState.ctx, Tab.get]
    cases Tab.get? d.eng.ctxs n with
    | none => rfl
    | some x => exact x.gr_heard n n k
  rw [DieState.countIssue, ctx_setCtx_same]
  exact hheard

theorem leBytes_getElem (n v : Nat) (k : Nat) (hk : k < (leBytes n v).length) : (leBytes n v)[k] = BitVec.ofNat 8 (v / 256 ^ k) := by
  induction n generalizing v k with
  | zero => simp [leBytes] at hk
  | succ n ih =>
    cases k with
    | zero => simp [leBytes]
    | succ k =>
      simp only [leBytes, List.getElem_cons_succ, ih, Nat.div_div_eq_div_mul, Nat.pow_succ']

/-- What a store that completes leaves. -/
theorem store_frame {c : Ctx} {rs ra : GReg} {imm : BitVec 16} {n ea : Nat} {i : Instr} {s t : State}
    (hexec : exec i s = s.doOn c.die fun d => d.store c i rs ra imm n) (hwf : Memory.wf (s.get c.die).eng.data = true)
    (hi : (s.get c.die).issuable c i = true) (hea : dataAddr (((s.get c.die).ctx (ctxNum c)).gr ra) imm n = some ea)
    (ht : exec i s = .next t) :
    (∀ x, (x < 16384 * c.eng.val + dataOffset c.ctx.val ea ∨ 16384 * c.eng.val + dataOffset c.ctx.val ea + n ≤ x) →
      (t.get c.die).eng.data.byte x = (s.get c.die).eng.data.byte x) ∧
    (∀ k, k < n → (t.get c.die).eng.data.byte (16384 * c.eng.val + dataOffset c.ctx.val ea + k) =
      BitVec.ofNat 8 ((((s.get c.die).ctx (ctxNum c)).gr rs).toNat / 256 ^ k)) ∧
    (t.get c.die).host.sram = (s.get c.die).host.sram ∧ (t.get c.die).upd.flash = (s.get c.die).upd.flash ∧
    t.get c.die.other = s.get c.die.other ∧ t.newel = s.newel := by
  rw [hexec, doOn_store (ea := ea) hi (by rw [DieState.gr_countIssue]; exact hea), DieState.gr_countIssue] at ht
  cases ht
  have hlen := leBytes_length n (((s.get c.die).ctx (ctxNum c)).gr rs).toNat
  refine ⟨fun x hx => ?_, fun k hk => ?_, ?_, ?_, State.get_set_other _ _ _, State.set_newel _ _ _⟩
  all_goals rw [State.get_set_same]
  · exact Memory.byte_setBytes_other _ hwf (by rwa [hlen])
  · rw [← leBytes_getElem n _ k (by rwa [hlen])]
    exact Memory.byte_setBytes_same _ _ hwf k (by rwa [hlen])
  · rfl
  · rfl

/-- Settles O14, for the three widths. -/
theorem forrekStoresTouchTheirBytesOnly : Obligations.ForrekStoresTouchTheirBytesOnly := by
  rintro c rs ra imm n i s t ea d (⟨rfl, rfl⟩ | ⟨rfl, rfl⟩ | ⟨rfl, rfl⟩) hwf hi hea ht
  all_goals exact store_frame rfl hwf hi hea ht

end Sys2Proof.Machine
end

section
/-! The rest of the Forrek instructions (R92 to R108): each by the branch of its body that the hypotheses name. -/

namespace Sys2Proof.Machine

/-! ### Fields, the cursor, frames, CRCs -/

theorem moveCursor_retire {d : DieState} {c : Ctx} {x : Context} {v : Int} (h0 : 0 ≤ v) (h1 : v < 65536) :
    d.moveCursor c x v = d.retire c { x with cur := BitVec.ofInt 16 v } := if_pos ⟨h0, h1⟩

theorem moveCursor_retire_nat {d : DieState} {c : Ctx} {x : Context} {v : Nat} (h : v < 65536) :
    d.moveCursor c x v = d.retire c { x with cur := BitVec.ofNat 16 v } := by
  rw [moveCursor_retire (Int.natCast_nonneg v) (by omega), BitVec.ofInt_natCast]

theorem allocFrame_retire {d : DieState} {c : Ctx} {x : Context} {rd : GReg} {bytes : List Byte} (hh : d.hallOn .swc = true)
    (hx : x.held.length < 4) (hd : d.sw.descUsed < 65536)
    (ht : (d.takeIn 27 (d.rdAs x.tag ethRxcAPool 27 0) 0 (cellsOf bytes.length) 0).1 = true) :
    d.allocFrame c x rd bytes =
      let p := (d.takeIn 27 (d.rdAs x.tag ethRxcAPool 27 0) 0 (cellsOf bytes.length) 0).2.storeHeld
        { bytes := bytes, port := 27, pool := d.rdAs x.tag ethRxcAPool 27 0, ingress := 27, cells := cellsOf bytes.length, refs := 1,
          tag := x.tag }
      let f : EFrame := { bytes := bytes, kind := .made, ingress := 27, tag := x.tag, desc := some p.1, origin := x.origin }
      let y := { x with held := x.held ++ [(p.2.eng.nextFd, f)], fd := some p.2.eng.nextFd, cur := 0 }
      ({ p.2 with eng := { p.2.eng with nextFd := p.2.eng.nextFd + 1 } } : DieState).retire c (y.setGr rd (fdWord x.fd)) := by
  simp [DieState.allocFrame, hh, Nat.not_le.mpr hx, Nat.not_le.mpr hd, ht]

/-- Settles O25: each instruction by its own state, where no cause ends the invocation. -/
theorem forrekFrameInstructions : Obligations.ForrekFrameInstructions := by
  refine ⟨?fext, ?fexts, ?fins, ?cset, ?cadd, ?csetr, ?fnew, ?fnewz, ?fswp, ?emitEth, ?emitBus, ?ffree, ?ffreeNone, ?fsetlen,
    ?fsetlenBus, ?crc8, ?crc16, ?crc32c⟩
  case fext => exact fun c rd src pos w1 o bs s hi hf => doOn_issue hi (by simp only [hf])
  case fexts => exact fun c rd src pos w1 o bs s hi hf => doOn_issue hi (by simp only [hf, sextBits])
  case fins => exact fun c dst pos w1 rs o bs s hi hf => doOn_issue hi (by simp only [hf])
  case cset =>
    exact fun c imm s hi => doOn_issue hi ((moveCursor_retire_nat imm.isLt).trans (by rw [BitVec.ofNat_toNat, BitVec.setWidth_eq]))
  case cadd => exact fun c imm s hi h0 h1 => doOn_issue hi (moveCursor_retire h0 h1)
  case csetr => exact fun c ra imm s hi h0 h1 => doOn_issue hi (moveCursor_retire h0 h1)
  case fnew =>
    exact fun c rd ra len s hi hm hh hx hd ht => doOn_issue hi (by rw [if_neg (Nat.not_lt.mpr hm)]; exact allocFrame_retire hh hx hd ht)
  case fnewz => exact fun c rd len s hi hh hx hd ht => doOn_issue hi (allocFrame_retire hh hx hd ht)
  case fswp => exact fun c rd ra k s hi hk => doOn_issue hi (by simp only [hk])
  case emitEth => exact fun c ra f e s hi hf he hk hlt hh => doOn_issue hi (by simp [hf, he, hk, hlt, hh])
  case emitBus =>
    exact fun c ra f e b s hi hf he hk hle hb hh => doOn_issue hi (by simp [hf, he, hk, Nat.not_lt.mpr hle, hb, hh])
  case ffree => exact fun c f s hi hf => doOn_issue hi (by simp only [hf])
  case ffreeNone => exact fun c s hi hf => doOn_issue hi (by simp only [hf])
  case fsetlen => exact fun c ra f s hi hf hl hc hn => doOn_issue hi (by simp [hf, Nat.not_lt.mpr hl, hc, hn])
  case fsetlenBus =>
    exact fun c ra f s hi hf hl hm hk => doOn_issue hi (by simp [hf, Nat.not_lt.mpr hl, Nat.not_lt.mpr hm, hk])
  case crc8 => exact fun c rd ra src n1 bs s hi hb => doOn_issue hi (by simp only [hb])
  case crc16 => exact fun c rd ra src n1 bs s hi hb => doOn_issue hi (by simp only [hb])
  case crc32c => exact fun c rd ra src n1 bs s hi hb => doOn_issue hi (by simp only [hb])

/-! ### The Gallery and lookups -/

/-- A command that runs on one die as another one does runs to the same state. -/
theorem doOn_eq_of {s : State} {i : Die} {f g : DieState → DieState} {o : Host.Outcome State Fault Refusal}
    (h : f (s.get i) = g (s.get i)) (hg : s.doOn i g = o) : s.doOn i f = o := (State.doOn_eq_next h).trans hg

/-- Settles O26: each by the outcome of its Gallery access or lookup. -/
theorem forrekGalleryAndLookups : Obligations.ForrekGalleryAndLookups := by
  refine ⟨?gget, ?ggets, ?ggetm, ?ggetp, ?gput, ?gputn, ?gadd, ?gcas, ?lkp, ?lwait, ?result⟩
  case gget | ggets | ggetm | ggetp => exact fun c rd ra s hi hg => doOn_issue hi (by simp only [hg]; rfl)
  case gput => exact fun c ra rb rc s hi hg hr => doOn_issue hi (by simp only [hg]; exact if_neg (Nat.not_lt.mpr hr))
  case gputn => exact fun c ra rb rc k s hi hg hr => doOn_issue hi (by simp only [hg]; exact if_neg (Nat.not_lt.mpr hr))
  case gadd => exact fun c rd ra rb s hi hg hr => doOn_issue hi (by simp only [hg]; exact if_neg (Nat.not_lt.mpr hr))
  case gcas => exact fun c rd ra rb rc s hi hg hr => doOn_issue hi (by simp only [hg]; exact if_neg (Nat.not_lt.mpr hr))
  case lkp =>
    exact fun c ra table tag key s hi hfree hk hh => doOn_eq_of
      (if_neg (not_not.mpr hfree)) (doOn_issue hi (by simp only [hk, hh, if_true]))
  case lwait =>
    exact fun c rd tag hit w0 w1 s hi hdone hx => doOn_eq_of
      (if_neg (by simp [hdone, LkpTag.waits])) (doOn_issue hi (by simp only [hx]; rfl))
  case result => exact fun c tag t key s hb ho => doOn_eq_set (by simp [hb, ho])

/-! ### Queue blocks, mailboxes, events, cipher jobs, timers, special registers -/

section
variable {d : DieState} {c : Ctx} {x : Context} {ra : GReg}

theorem withQueue_in {f : Nat → DieState} (h : (x.gr ra).toNat ≤ 63) (hh : d.hallOn .host = true) :
    d.withQueue c x ra f = f (x.gr ra).toNat := by
  simp [DieState.withQueue, Nat.not_lt.mpr h, hh]

theorem withMailbox_in {f : Nat → Nat → DieState} {e : Nat} (h : (x.gr ra).toNat ≤ 15) (hh : d.hallOn .host = true)
    (hs : 8 ≤ (x.gr ra).toNat ∨ (d.rd sysSecCfgFc).testBit (ctxCluster (ctxNum c)) = true)
    (he : d.mbEnd (x.gr ra).toNat (8 + ctxCluster (ctxNum c)) = some e) : d.withMailbox c x ra f = f (x.gr ra).toNat e := by
  have hopen : ¬ ((x.gr ra).toNat < 8 ∧ (!(d.rd sysSecCfgFc).testBit (ctxCluster (ctxNum c))) = true) := by
    rintro ⟨hlt, hb⟩
    exact hs.elim (Nat.not_le.mpr hlt) fun ht => by simp [ht] at hb
  simp only [DieState.withMailbox, Nat.not_lt.mpr h, hh, hopen, he, Bool.not_true, Bool.false_eq_true, or_self, if_false]

theorem withTimer_in {f : Nat → DieState} (h : (x.gr ra).toNat < d.rdAs x.tag fkeEtRangeCount (ctxCluster (ctxNum c))) :
    d.withTimer c x ra f = f (d.rdAs x.tag fkeEtRangeBase (ctxCluster (ctxNum c)) + (x.gr ra).toNat) :=
  if_neg (Nat.not_le.mpr h)

end

/-- Settles O27: each service by the room or the words its hypotheses name. -/
theorem forrekServiceInstructions : Obligations.ForrekServiceInstructions := by
  refine ⟨?qput, ?qget, ?qgetEmpty, ?mbput, ?mbputBell, ?mbget, ?raise, ?cjob, ?tarm, ?tdis, ?tget, ?mtsLk, ?mtsCur, ?mtsSt⟩
  case qput => exact fun c ra rb k s hi hq hh => doOn_issue hi (withQueue_in hq hh)
  case qget =>
    exact fun c rd ra k s hi hq hh he hn => doOn_issue hi ((withQueue_in hq hh).trans (if_pos ⟨he, hn⟩))
  case qgetEmpty =>
    exact fun c rd ra k s hi hq hh hn => doOn_issue hi ((withQueue_in hq hh).trans (if_neg fun h => Nat.not_le.mpr hn h.2))
  case mbput =>
    exact fun c ra rb k e s hi hm hh hs he => doOn_issue hi ((withMailbox_in hm hh hs he).trans (by simp))
  case mbputBell =>
    exact fun c ra rb k e s hi hm hh hs he hp => doOn_issue hi ((withMailbox_in hm hh hs he).trans (by simp [hp]))
  case mbget =>
    exact fun c rd ra k e ws y s hi hm hh hs he ht => doOn_issue hi ((withMailbox_in hm hh hs he).trans (by simp only [ht]))
  case raise => exact fun c ra code s hi => doOn_issue hi rfl
  case cjob =>
    exact fun c rd ra n y s hi hm ha hh hj => doOn_issue hi (by simp only [Nat.not_lt.mpr hm, ha, hh, hj]; simp)
  case tarm => exact fun c ra rd entry s hi ht hu => doOn_issue hi ((withTimer_in ht).trans (if_pos hu))
  case tdis => exact fun c ra s hi ht => doOn_issue hi (withTimer_in ht)
  case tget => exact fun c rd n s hi => doOn_issue hi rfl
  case mtsLk => exact fun c ra s hi => doOn_issue hi rfl
  case mtsCur => exact fun c ra s hi hv => doOn_issue hi ((if_neg (by decide)).trans ((if_pos rfl).trans (moveCursor_retire_nat hv)))
  case mtsSt => exact fun c ra s hi => doOn_issue hi rfl

/-! ### Control flow -/

section
variable {s : State} {c : Ctx} {i : Instr} {off : BitVec 15} {taken : Context → Bool}

/-- A branch goes to its target when it is taken and to the next word when not. -/
theorem doOn_branch {p : Context → Prop} [DecidablePred p] (hp : ∀ x, taken x = decide (p x)) (hi : (s.get c.die).issuable c i = true) :
    s.doOn c.die (fun d => d.branch c i off taken) = .next (s.set c.die
      (((s.get c.die).countIssue (ctxNum c)).setCtx (ctxNum c)
        { ((s.get c.die).countIssue (ctxNum c)).ctx (ctxNum c) with
          pc := if p (((s.get c.die).countIssue (ctxNum c)).ctx (ctxNum c)) then
              (((s.get c.die).countIssue (ctxNum c)).ctx (ctxNum c)).pc + off
            else (((s.get c.die).countIssue (ctxNum c)).ctx (ctxNum c)).pc + 1 })) := by
  refine doOn_issue hi ?_
  simp only [hp, decide_eq_true_eq]
  split <;> rfl

end

/-- Settles O28: a branch by its condition, the others by their one effect. -/
theorem forrekControlInstructions : Obligations.ForrekControlInstructions := by
  refine ⟨?beq, ?bne, ?blt, ?bge, ?bltu, ?bgeu, ?bfs, ?bfc, ?jmp, ?jal, ?jr, ?ret, ?endInv, ?rel, ?yield, ?waitPost, ?waitTime, ?trap,
    ?undefined⟩
  case beq => exact fun c ra rb off s hi => doOn_branch (p := fun x => x.gr ra = x.gr rb) (fun _ => rfl) hi
  case bne => exact fun c ra rb off s hi => doOn_branch (p := fun x => x.gr ra ≠ x.gr rb) (fun _ => rfl) hi
  case blt => exact fun c ra rb off s hi => doOn_branch (p := fun x => (x.gr ra).toInt < (x.gr rb).toInt) (fun _ => rfl) hi
  case bge =>
    exact fun c ra rb off s hi => doOn_branch (p := fun x => (x.gr rb).toInt ≤ (x.gr ra).toInt)
      (fun x => by simp only [BitVec.slt, ← decide_not, not_lt]) hi
  case bltu => exact fun c ra rb off s hi => doOn_branch (p := fun x => (x.gr ra).toNat < (x.gr rb).toNat) (fun _ => rfl) hi
  case bgeu =>
    exact fun c ra rb off s hi => doOn_branch (p := fun x => (x.gr rb).toNat ≤ (x.gr ra).toNat)
      (fun x => by simp only [BitVec.ult, ← decide_not, not_lt]) hi
  case bfs => exact fun c bit off s hi => doOn_branch (p := fun x => x.st.getLsbD bit = true) (fun x => by simp) hi
  case bfc => exact fun c bit off s hi => doOn_branch (p := fun x => x.st.getLsbD bit = false) (fun x => by simp) hi
  case rel => exact fun c s hi hl => doOn_issue hi (if_pos (Option.isSome_iff_ne_none.mpr hl))
  case undefined => exact fun c s hm ha hw hl => doOn_eq_set (by simp [hm, ha, hw, hl])
  case jmp => exact fun c tgt s hi => doOn_issue hi rfl
  case jal => exact fun c tgt s hi => doOn_issue hi rfl
  case jr => exact fun c ra s hi => doOn_issue hi rfl
  case waitTime => exact fun c ra s hi => doOn_issue hi rfl
  case trap => exact fun c code s hi => doOn_issue hi rfl
  all_goals exact fun c s hi => doOn_issue hi rfl

end Sys2Proof.Machine
end

section
/-! Engines around their instructions, and the commit machine: each command by the branch of its definition that the hypotheses name. -/

namespace Sys2Proof.Machine

/-- A write of a register whose write is a command: the fields take the value, then the command acts. -/
theorem doOn_writeReg {s : State} {i : Die} {q : Requester} {blk ch off : Nat} {v : Word} {act : DieState → DieState} {x : DieState}
    (h : (s.get i).regStatus q blk ch off true = .okay)
    (hx : act (((s.get i).complete q (regAddr blk off) .okay).writeFields blk (regChan blk ch (reqCopy q) off) off v) = x) :
    s.doOn i (fun d => d.writeReg q blk ch off v act) = .next (s.set i x) :=
  doOn_eq_set ((DieState.writeReg_okay _ _ _ _ _ _ _ h).trans hx)

/-! ### Engines -/

/-- Settles O29: each command by the branch that its hypotheses name. -/
theorem engineCommandsComplete : Obligations.EngineCommandsComplete := by
  refine ⟨?dispatch, ?residence, ?ending, ?rel, ?post, ?time, ?timer, ?code, ?reset⟩
  case dispatch =>
    refine fun i cl e lock g n s hh hf he hg hn => doOn_eq_set ?_
    simp only [DieState.dispatch, hh, hf, he, hg, hn]
    cases lock <;> rfl
  case residence => exact fun c s hf he ht => doOn_eq_set (if_pos ⟨hf, he, ht⟩)
  case ending => exact fun c s he ho => doOn_eq_set (by simp [DieState.lockRelease, he, ho])
  case rel => exact fun c s he hr ho => doOn_eq_set (by simp [DieState.lockRelease, he, hr, ho])
  case post => exact fun c s hw he hp => doOn_eq_set (by simp [hw, he, hp])
  case time => exact fun c t s hw ht => doOn_eq_set (by simp only [hw, if_pos ht])
  case timer => exact fun i t x s hx ht => doOn_eq_set (by simp only [DieState.timerFire, hx, if_pos ht])
  case code => exact fun a cl index w s hd hh => doOn_eq_set (by simp only [hd, hh]; rfl)
  case reset => exact fun a v s h => doOn_writeReg h rfl

/-! ### The commit machine -/

theorem getLsbD_commitWord (v : Word) (b : Nat) {k : Nat} (hk : k < 32) : (commitWord v b).getLsbD k = (v.getLsbD k || decide (k = b)) := by
  simp only [commitWord, BitVec.getLsbD_or, BitVec.getLsbD_ofNat, hk, decide_true, Bool.true_and, Nat.testBit_two_pow, eq_comm]

section
variable {d : DieState} {v : Word}

theorem commitAct_go (h30 : v.getLsbD 30 = false) (h29 : v.getLsbD 29 = false) : d.commitAct (commitWord v 31) = d.commitStart := by
  simp (disch := decide) [DieState.commitAct, getLsbD_commitWord, -BitVec.getLsbD_eq_getElem, h30, h29]

theorem commitAct_abort (h31 : v.getLsbD 31 = false) (h29 : v.getLsbD 29 = false) :
    d.commitAct (commitWord v 30) = d.commitAbortNow := by
  simp (disch := decide) [DieState.commitAct, getLsbD_commitWord, -BitVec.getLsbD_eq_getElem, h31, h29]

theorem commitAct_discard (h31 : v.getLsbD 31 = false) (h30 : v.getLsbD 30 = false) :
    d.commitAct (commitWord v 29) = d.commitDiscardNow := by
  simp (disch := decide) [DieState.commitAct, getLsbD_commitWord, -BitVec.getLsbD_eq_getElem, h31, h30]

end

/-- Settles O19: each step of the commit machine by its state. -/
theorem commitCommandsComplete : Obligations.CommitCommandsComplete := by
  refine ⟨?go, ?abort, ?discard, ?validated, ?apply, ?boundary, ?drained, ?limit, ?event⟩
  case go => exact fun a v s h h30 h29 ho => doOn_writeReg h ((commitAct_go h30 h29).trans (if_pos ho))
  case abort => exact fun a v s h h31 h29 ho => doOn_writeReg h ((commitAct_abort h31 h29).trans (if_pos ho))
  case discard => exact fun a v s h h31 h30 ho => doOn_writeReg h ((commitAct_discard h31 h30).trans (if_pos ho))
  case validated =>
    refine fun i s hs hp => ⟨fun r x hv => doOn_eq_set ?_, fun hv hd => doOn_eq_set ?_, fun hv hd hm => doOn_eq_set ?_,
      fun hv hd hm => doOn_eq_set ?_⟩
    all_goals simp [DieState.commitValidated, hs, hp, hv]
    · rfl
    · simp [hd]; rfl
    · simp [hd, hm]
    · simp [hd, hm]
  case apply =>
    refine fun i s hs hp hm => doOn_eq_set ?_
    simp [DieState.commitApply, DieState.commitNow, hs, hp, hm]
  case boundary => exact fun i u s hs hu hi => doOn_eq_set (if_pos ⟨hs, hu, hi⟩)
  case drained =>
    refine fun i s hs hu ho => doOn_eq_set ?_
    simp [hs, hu, ho, DieState.drainEnd]
    rfl
  case limit => exact fun i s hs ht => doOn_eq_set (if_pos ⟨hs, ht⟩)
  case event => exact fun i r rest s hl => doOn_eq_set (by simp only [hl])

end Sys2Proof.Machine
end

section
/-! The Gallery: its bindings, its write pipeline, host writes, freshness marks; and the direct routes. -/

namespace Sys2Proof.Machine

/-- Settles O30: each command by the branch that its hypotheses name; a plain put is `galApplyReq_put`. -/
theorem galleryCommandsComplete : Obligations.GalleryCommandsComplete := by
  refine ⟨?cleared, ?binding, ?entry, ?put, ?add, ?hostPut, ?group, ?mark⟩
  case cleared => exact fun i s h => doOn_eq_set (if_pos h)
  case binding =>
    refine fun a h v s hd hs hg hc hb => doOn_eq_set ?_
    have hroom : ¬ (4096 ≤ (s.get a.die).gal.bind.length ∧
        (!(s.get a.die).gal.bind.any fun e => decide (e.1 = h.toNat)) = true) := by
      rintro ⟨hle, hno⟩
      exact hb.elim (Nat.not_lt.mpr hle) fun hany => by simp [hany] at hno
    simp only [DieState.bindingWrite, hd, hs, hg, hc, hroom]
    rfl
  case entry => exact fun i p r s ho hn hp hr => doOn_eq_set (by simp [ho, DieState.galGrant, Nat.not_le.mpr hn, hp, hr])
  case put =>
    refine fun i r rest vals stamp status s ho hp hop hpass => doOn_eq_set ?_
    simp only [DieState.galApply, ho, hp, DieState.galApplyReq_put hop, DieState.galPut, hpass]
    rfl
  case add =>
    refine fun i r rest rd a s ho hp hop => doOn_eq_set ?_
    simp only [DieState.galApply, ho, hp, DieState.galApplyReq, hop]
    rfl
  case hostPut => exact fun a h v stamp s hd hg => doOn_eq_set (by simp only [DieState.hostPutReq, hd, hg]; rfl)
  case group =>
    exact fun a v s h hv ho hb hr => doOn_writeReg h (by simp only [hv, ho, DieState.hostGroup, hb, Nat.not_lt.mpr hr]; rfl)
  case mark => exact fun i h t s ht ho hle hf => doOn_eq_set (by simp only [ht]; exact if_pos ⟨ho, hle, hf⟩)

/-! ### The direct routes -/

section
variable {s : State} {i : Die} {f : RFrame} {rest : List RFrame}

theorem doOn_routeFrame {x : DieState} (hf : (s.get i).rte.fifo = f :: rest) (hh : (s.get i).hallOn .bus = true)
    (hx : DieState.routeProcess { s.get i with rte := { (s.get i).rte with fifo := rest } } f = x) :
    exec (.routeFrameProcess i) s = .next (s.set i x) :=
  doOn_eq_set (by simp only [hf, hh, if_true, hx])

end

theorem DieState.routeVerify_plain {d : DieState} {f : RFrame} {r : Route} (h : r.sec = 0) :
    d.routeVerify f r = (some (shownOf f.frame), d) := by
  simp [DieState.routeVerify, h]

theorem DieState.routeSeal_plain {d : DieState} {f : RFrame} {r : Route} {pay : List Byte} (h : r.sec = 0) :
    d.routeSeal f r pay = (some (r.output f.frame (r.field f.frame pay 0)), d) := by
  simp [DieState.routeSeal, h]

/-- A frame that is neither verified, sealed, metered nor captured goes to its destinations. -/
theorem DieState.routeRun_plain {d : DieState} {f : RFrame} {h : Nat} {r : Route} (hf : f.handle = none) (hs : r.sec = 0)
    (hb : r.bucket = none) (hg : r.gcap = false)
    (hz : r.sizeOk f.frame ((List.range 32).filter fun c => r.candest.testBit c && decide (c ≠ f.ch))
      ((List.range 8).filter fun l => r.lindest.testBit l && decide (32 + l ≠ f.ch)) (shownOf f.frame).length
      (fun c => d.linLen f.tag c (if r.keep then f.frame.id.toNat % 64 else r.newid % 64)) = true) :
    d.routeRun f h r = d.routeDeliver f r ((List.range 32).filter fun c => r.candest.testBit c && decide (c ≠ f.ch))
      ((List.range 8).filter fun l => r.lindest.testBit l && decide (32 + l ≠ f.ch)) (shownOf f.frame)
      (r.output f.frame (r.field f.frame (shownOf f.frame) 0)) := by
  simp only [DieState.routeRun, routeVerify_plain hs, routeSeal_plain hs, hf, hb, hg, hs, Option.isSome_none, Bool.false_or,
    reduceIte, OfNat.zero_ne_ofNat, Nat.add_zero, hz, Bool.not_true, Bool.false_eq_true]

/-- Settles O31: a frame that only passes is `routeRun_plain`. -/
theorem routeCommandsComplete : Obligations.RouteCommandsComplete := by
  refine ⟨?entry, ?miss, ?quarantined, ?routed, ?token, ?talker, ?unknown, ?known, ?badPdu, ?pdu, ?window, ?hold, ?release⟩
  case entry => exact fun i ch f stamp s hh hf hn => doOn_eq_set (by
      simp only [hh, DieState.routePush, hf, hn, if_true, Bool.false_eq_true, if_false])
  case miss =>
    exact fun i f rest s hf hh hno hh2 hq => doOn_routeFrame hf hh (by
      simp only [DieState.routeProcess, hno, hh2, DieState.routeMiss, Option.isNone_none, Bool.true_and, hq]
      rfl)
  case quarantined =>
    exact fun i f rest h k s hf hh hsome hq => doOn_routeFrame hf hh (by
      simp only [DieState.routeProcess, hsome, Option.isNone_some, Bool.false_and, Bool.false_eq_true, if_false, hq])
  case routed =>
    exact fun i f rest h s hf hh hno hh2 hq hu hs hb hg hz => doOn_routeFrame hf hh (by
      simp only [DieState.routeProcess, hno, hh2, hq, hu, Option.isNone_none, Bool.true_and, if_true]
      exact DieState.routeRun_plain hno hs hb hg hz)
  case token => exact fun i n s hh hk => doOn_eq_set (by simp only [hh, if_true, DieState.bucketFill, if_neg hk])
  case talker =>
    refine fun i t m rest s hh hm ht hp hs => doOn_eq_set ?_
    simp [hh, hm, ht, DieState.talkerSend, hp, hs]
  case unknown => exact fun i port f stamp s hh hk he => doOn_eq_set (by simp only [hh, DieState.ingress1722, if_pos hk, he, if_true])
  case known =>
    refine fun i port f stamp k s hh hk he hl hm => doOn_eq_set ?_
    simp only [hh, DieState.ingress1722, if_pos hk, he, hl, hm, if_true, Bool.or_self, Bool.false_eq_true, if_false]
  case badPdu =>
    refine fun i pdu s hh hb => doOn_eq_set ?_
    have hnone : (if pduBad pdu then none else (s.get i).pduEntry pdu.port.toNat) = none := by
      split
      · rfl
      · next hok => exact hb.resolve_left hok
    simp only [hh, DieState.importPdu, hnone, if_true]
  case pdu => exact fun i pdu k s hh hb he => doOn_eq_set (by simp [hh, DieState.importPdu, hb, he])
  case window => exact fun i k s hs ht => doOn_eq_set (if_pos ⟨hs, ht⟩)
  case hold => exact fun i k s hs ht => doOn_eq_set (if_pos ⟨hs, ht⟩)
  case release => exact fun a k v s h hv hs => doOn_writeReg h (if_pos ⟨hv, hs⟩)

end Sys2Proof.Machine
end

section
/-! CAN: reception, transmission, buffers, bus-off, sleep and the time master. -/

namespace Sys2Proof.Machine

/-- A collision is a bit error in the control field, the data or the CRC; outside these no collision is counted. -/
theorem DieState.canTxErr_noCollision {d : DieState} {ch : Nat} {err : CanError} {fld : CanField} {e : TxEntry}
    (hw : (d.canCh ch).onWire = some e) (hf : err ≠ .bit ∨ fld = .arbitration) :
    d.canTxErr ch err fld =
      let x := (d.canErrCount ch err).tecErr ch err
      let e' := { e with wire := false, tries := e.tries + 1 }
      let y := x.onCan ch fun c => c.replace e e'
      (if x.retrySpent ch e then y.canAbandon ch e' else if x.residenceOut ch e then y.canExpire ch e' else y).canFault ch := by
  have hcoll : (decide (err = .bit) && (decide (fld = .control) || decide (fld = .data) || decide (fld = .crc))) = false := by
    rcases hf with he | rfl
    · simp [he]
    · simp
  simp only [DieState.canTxErr, hw, hcoll, Bool.false_eq_true, if_false]

/-- Settles O32: each event by the channel's state; an error outside a collision is `canTxErr_noCollision`. -/
theorem canTrafficCommandsComplete : Obligations.CanTrafficCommandsComplete := by
  refine ⟨?receive, ?rxError, ?record, ?attempt, ?sent, ?txError, ?retry, ?expiry⟩
  case receive =>
    refine fun i ch f stamp s hl hi hs ha => ⟨fun k hk => doOn_eq_set ?_, fun hk => doOn_eq_set ?_⟩ <;>
      simp only [DieState.canReceive, hl, hi, hs, ha, hk, Bool.and_false, Bool.false_and, Bool.not_true, decide_false, Bool.or_self,
        Bool.false_eq_true, if_false]
  case rxError => exact fun i ch e s hl hs hb => doOn_eq_set (by simp [hl, hs, hb])
  case record =>
    refine fun i ch ws s hl he hh hq hr => ⟨fun hb => doOn_eq_set ?_, fun hb hroom => doOn_eq_set ?_⟩ <;>
      simp only [DieState.htxTake, hl, he, hh, hq, hr, hb, Bool.not_true, Bool.or_self, Bool.false_eq_true, if_false, if_true]
    simp only [hroom, if_true]
  case attempt =>
    refine fun i ch e s hl hb hs hw hq hsh ho hr => doOn_eq_set ?_
    simp [DieState.canStart, hl, hb, hs, hw, hq, hsh, ho, hr]
  case sent =>
    refine fun i ch e s hl hc hw => doOn_eq_set ?_
    simp only [DieState.canSent, hl, hc, hw, Bool.not_true, Bool.false_eq_true, if_false]
  case txError =>
    refine fun i ch err fld e s hl hm hw hf => ⟨fun hr => doOn_eq_set ?_, fun hr ho => doOn_eq_set ?_⟩
    · simp only [hl, hm, hr, DieState.canTxErr_noCollision hw hf, Bool.not_true, Bool.false_and, Bool.false_eq_true, if_false, if_true]
    · simp only [hl, hm, hr, ho, DieState.canTxErr_noCollision hw hf, Bool.not_true, Bool.false_and, Bool.false_eq_true, if_false]
  case retry => exact fun i ch e s hf => doOn_eq_set (by simp only [hf]; rfl)
  case expiry =>
    refine fun i ch e s hf ht => doOn_eq_set ?_
    simp only [hf, DieState.canExpire, ht, Nat.lt_irrefl, false_and, if_false]

/-! ### Buffers, bus-off, sleep, the time master -/

/-- Settles O33: register writes by `doOn_writeReg`, events by the channel's state. -/
theorem canControlCommandsComplete : Obligations.CanControlCommandsComplete := by
  refine ⟨?trigger, ?hold, ?recover, ?recovered, ?sleep, ?enter, ?wake, ?sync⟩
  case trigger =>
    refine fun a ch k v fmt s h hv hh hd => ⟨fun hp => doOn_writeReg h ?_, fun hp hf hne => doOn_writeReg h ?_⟩
    · simp only [hv, hh, hp, DieState.cmbTrigger, DieState.bitAs_gen, hd, Bool.not_true, Bool.false_eq_true, if_false, if_true]
    · simp only [hv, hh, hp, hf, DieState.cmbTrigger, DieState.bitAs_gen, hd, Bool.not_true, Bool.false_eq_true, if_false, if_true]
  case hold => exact fun i ch s hs hb hr ht => doOn_eq_set (if_pos ⟨hs, hb, by simp [hr], ht⟩)
  case recover => exact fun a ch v s h hv hs => doOn_writeReg h (by simp only [hv, if_true]; exact if_pos hs)
  case recovered => exact fun i ch s hs hr => doOn_eq_set (if_pos ⟨hs, hr⟩)
  case sleep => exact fun a ch v s h hv hs => doOn_writeReg h (by simp only [hv, if_true]; exact if_neg hs)
  case enter => exact fun i ch s hq hw => doOn_eq_set (if_pos ⟨hq, by simp [hw]⟩)
  case wake =>
    refine fun i ch s hs => ⟨fun hr => doOn_eq_set ?_, fun id ide dlc data hr hm => doOn_eq_set ?_⟩
    · simp only [hs, hr, if_true]; rfl
    · simp only [hs, hr, hm, if_true, and_self]; rfl
  case sync => exact fun i ch s hl he hm hn => doOn_eq_set (if_pos ⟨hl, he, hm, hn⟩)

/-! ### LIN -/

theorem DieState.linTrigger_live {d : DieState} {ch n : Nat} (hl : d.linLive ch = true) (hm : d.linMaster ch = true)
    (he : d.bit linSlotEn ch n = true) :
    d.linTrigger d.gen ch n =
      if (d.linCh ch).cur.isSome then (d.cnt linCntOverrun ch).raise 0x0304 n ch else d.linHeader ch (d.rd linSlotId ch n) := by
  simp only [DieState.linTrigger, hl, hm, DieState.bitAs_gen, he, DieState.rdAs_gen, Bool.not_true, Bool.or_self, Bool.false_eq_true,
    if_false]

/-- Settles O34: register writes by `doOn_writeReg`, events by the current frame. -/
theorem linCommandsComplete : Obligations.LinCommandsComplete := by
  refine ⟨?trig, ?overrun, ?header, ?badHeader, ?received, ?badSum, ?timeout, ?publish, ?clear, ?sleep, ?pulse, ?wake, ?ready, ?idle,
    ?sent⟩
  case trig =>
    exact fun a ch v s h hv hl hm he hc => doOn_writeReg h (by
      simp only [hv, if_true, DieState.linTrigger_live hl hm he, hc, Option.isSome_none, Bool.false_eq_true, if_false])
  case overrun =>
    exact fun a ch v s h hv hl hm he hc => doOn_writeReg h (by simp only [hv, if_true, DieState.linTrigger_live hl hm he, hc])
  case header =>
    exact fun i ch id s hl hm hc hd => doOn_eq_set (by simp [hl, hm, hc, DieState.linHeader, hd])
  case badHeader => exact fun i ch id s hl hm hc => doOn_eq_set (by simp [hl, hm, hc])
  case received =>
    refine fun i ch data coll stamp c s hl hc hp hd hn => doOn_eq_set ?_
    simp [hl, DieState.linReceive, hc, hp, hd, Nat.not_lt.mpr hn]
  case badSum =>
    refine fun i ch data coll stamp c s hl hc hp hd => doOn_eq_set ?_
    simp [hl, DieState.linReceive, hc, hp, hd]
  case timeout =>
    refine fun i ch got c s hl hc hp hd => doOn_eq_set ?_
    simp [hl, DieState.linTimeout, hc, hp, hd, DieState.linShort]
  case publish => exact fun a ch i s h => doOn_writeReg h rfl
  case clear => exact fun a ch i s h => doOn_writeReg h rfl
  case sleep =>
    refine fun a ch s h hl hm => doOn_writeReg h ?_
    show DieState.linSleepNow _ _ = _
    simp only [DieState.linSleepNow, hl, hm, Bool.not_true, Bool.or_self, Bool.false_eq_true, if_false]
  case pulse => exact fun a ch s h hu => doOn_writeReg h (if_pos hu)
  case wake => exact fun i ch s he hs hw => doOn_eq_set (if_pos ⟨he, hs, hw⟩)
  case ready => exact fun i ch t s hw ht => doOn_eq_set (by simp only [hw, ht, if_true])
  case idle => exact fun i ch s hl hm hb hc ht => doOn_eq_set (if_pos ⟨hl, by simp [hm], hb, hc, ht⟩)
  case sent =>
    refine fun i ch c s hl hc hp hd => doOn_eq_set ?_
    simp [hl, DieState.linSent, hc, hp, hd]

end Sys2Proof.Machine
end

section
/-! The Ethernet ports, rate stepping and the switch core. -/

namespace Sys2Proof.Machine

theorem everyNth_none (k : Nat) : everyNth 0 k = (k, false) := by simp [everyNth]

/-- A frame of a good size and checksum at a port with no FCS injection is counted and goes on. -/
theorem DieState.ethReceive_good {d : DieState} {p : Nat} {f : EthFrame} {stamp pos origin : Nat}
    (hinj : d.rd prtPortCFcsN 0 p = 0) (hdesc : d.sw.descUsed < 65536) (hmin : 60 ≤ f.bytes.length)
    (hmax : f.bytes.length + 4 ≤ d.rd ethMaxlen p) (hfcs : f.fcsOk = true) (hcut : f.cut = false) :
    d.ethReceive p f stamp pos origin =
      (d.onPort p fun x => { x with fcsCnt := (d.portOf p).fcsCnt, rxBytes := x.rxBytes + (f.bytes.length + 4) + 20 }).rxGood
        p f.bytes stamp pos origin := by
  have hn : (if d.bit prtPortAFcsEg 0 p then 0 else d.rd prtPortCFcsN 0 p) = 0 := by simp [hinj]
  have hlen : ¬ f.bytes.length + 4 < 64 := by omega
  have hd (x : Port → Port) : ¬ 65536 ≤ (d.onPort p x).sw.descUsed := Nat.not_le.mpr hdesc
  have hm (x : Port → Port) : ¬ (d.onPort p x).rd ethMaxlen p < f.bytes.length + 4 := Nat.not_lt.mpr hmax
  simp only [DieState.ethReceive, hn, everyNth_none, Bool.false_eq_true, if_false, hd, hlen, hm, hfcs, hcut, Bool.not_false,
    Bool.and_self, Bool.true_eq_false]

/-- Settles O35: a good frame is `ethReceive_good`; the rest by the port's state. -/
theorem ethernetPortCommandsComplete : Obligations.EthernetPortCommandsComplete := by
  refine ⟨?receive, ?sent, ?pauseOver, ?window, ?refresh, ?linkUp, ?linkDown, ?lpi, ?conflict, ?yieldEnd, ?status, ?sleepWish,
    ?partnerSleep, ?sleepAck, ?wake, ?wup⟩
  case receive =>
    refine fun i p f stamp s hp hs hu ha hf hm hi hd hmin hmax hfcs hcut => doOn_eq_set ?_
    have hne : p.val ≠ 28 := by omega
    split
    · next h _ => exact absurd h hne
    · simp only [DieState.ethIngress, hs, hu, ha, hf, hm, Bool.not_true, Bool.or_self, Bool.false_eq_true, if_false, if_true,
        OfNat.zero_ne_ofNat, false_and]
      exact DieState.ethReceive_good hi hd hmin hmax hfcs hcut
  case sent =>
    refine fun i p t n f s ht hs hd hf => doOn_eq_set ?_
    simp only [ht, hs, hd, hf, Option.bind_some, Option.map_some, Bool.not_true, Bool.false_eq_true, if_false]
  case pauseOver => exact fun i p s hs he ht => doOn_eq_set (if_pos ⟨hs, he, ht⟩)
  case window => exact fun i p s hs ht => doOn_eq_set (by simp only [hs, if_true]; exact if_pos ht)
  case refresh => exact fun i p s hs ht hx hlow hc hr => doOn_eq_set (if_pos ⟨hs, ht, hx, hlow, hc, hr⟩)
  case linkUp => exact fun i p rate s hp hs hh hl hr => doOn_eq_set (if_pos ⟨hp, hs, hh, by simp [hl], hr⟩)
  case linkDown => exact fun i p s hp hs hl => doOn_eq_set (if_pos ⟨hp, hs, hl⟩)
  case lpi =>
    exact fun i p s hs he hu hl h1 h4 hg hr hq ht hh hc hi =>
      doOn_eq_set (if_pos ⟨hs, he, hu, by simp [hl], h1, h4, by simp [hg], by simp [hr], hq, by simp [ht], by simp [hh], by simp [hc], hi⟩)
  case conflict =>
    exact fun i p s hp h0 hy hn => doOn_eq_set (by
      simp only [hp, h0, hy, Option.isNone_none, and_self, if_true, Nat.not_le.mpr hn, if_false])
  case yieldEnd => exact fun i p t s hy hp ht => doOn_eq_set (by simp only [hy, hp, ht, and_self, if_true])
  case status => exact fun i p active s hp hy => doOn_eq_set (if_pos ⟨hp, .inl (by simp [hy])⟩)
  case sleepWish =>
    exact fun a p v s h h0 h1 hp hl => doOn_writeReg h (by
      simp only [DieState.tc10Act, h0, h1, hp, hl, and_self, if_true, Bool.false_eq_true, if_false])
  case partnerSleep => exact fun i p s h1 h2 h3 h4 h5 h6 => doOn_eq_set (if_pos ⟨h1, h2, h3, h4, h5, h6⟩)
  case sleepAck => exact fun i p s h1 h2 h3 h4 h5 h6 => doOn_eq_set (if_pos ⟨h1, h2, h3, h4, h5, h6⟩)
  case wake => exact fun i p s ha he => doOn_eq_set (if_pos ⟨ha, he⟩)
  case wup =>
    exact fun a p v s h h0 h1 hp => doOn_writeReg h (by
      simp only [DieState.tc10Act, DieState.sendWup, h0, h1, hp, false_and, if_true, Bool.false_eq_true, if_false])

/-! ### Rate stepping -/

theorem stepTarget_up : stepTarget 0x19 = true := rfl

theorem DieState.stepReq_up {d : DieState} {p token dly : Nat} (hp : d.stepPort p = true) (hc : d.rd ethStepCState p ≠ 1) :
    d.stepReq p 0x19 token dly = d.stepAnswer p 0x19 token dly := by
  simp only [DieState.stepReq, hp, stepTarget_up, hc, Bool.not_true, Bool.false_eq_true, if_false]

/-- Settles O36: each event by the state of the stepping. -/
theorem rateSteppingCommandsComplete : Obligations.RateSteppingCommandsComplete := by
  refine ⟨?window, ?up, ?request, ?ack, ?nak, ?switch, ?lock, ?requestTimeout, ?lockTimeout, ?holdoff⟩
  case window => exact fun i p s hs hp he => doOn_eq_set (if_neg (by simp [hs, hp, he]))
  case up =>
    exact fun i p s hs hp hr hb hq => doOn_eq_set (if_pos ⟨hs, hp, by simp [hr], by simp [hb], hq.imp_right fun h => by simp [h]⟩)
  case request =>
    refine fun i p f s hs hp ht hc => doOn_eq_set ?_
    simp only [hs, if_true, ht, DieState.stepReq_up hp hc]
    rfl
  case ack =>
    refine fun i p f s hs hp ht hc hk => doOn_eq_set ?_
    simp only [hs, DieState.stepAck, hp, ht, hc, hk, Bool.not_true, Bool.false_eq_true, if_false, if_true, and_self]
    rfl
  case nak =>
    refine fun i p f s hs hp ht hc hk => doOn_eq_set ?_
    simp only [hs, DieState.stepNak, hp, ht, hc, hk, Bool.not_true, Bool.false_eq_true, if_false, if_true, and_self]
    rfl
  case switch => exact fun i p t s hw hs hc ht => doOn_eq_set (by simp only [hw, hs, hc, ht, and_self, if_true])
  case lock =>
    exact fun i p s hs hc hw hr => doOn_eq_set (by
      simp only [hs, hc, hw, hr, Option.isNone_none, and_self, if_true, Bool.false_eq_true, if_false])
  case requestTimeout => exact fun i p s hs hc ht => doOn_eq_set (if_pos ⟨hs, hc, ht⟩)
  case lockTimeout => exact fun i p s hs hc hw ht => doOn_eq_set (if_pos ⟨hs, hc, by simp [hw], ht⟩)
  case holdoff => exact fun i p s hs hc ht => doOn_eq_set (if_pos ⟨hs, hc, ht⟩)

/-! ### The switch core -/

section
variable {d : DieState} {n : Nat} {rest : List Nat} {f : SFrame}

theorem DieState.lookupServe_forward {l : Lookup} (hf : d.sw.fifo = n :: rest)
    (hr : DieState.frameOf { d with sw := { d.sw with fifo := rest } } n = some f) (hn : d.fences.contains 70 = false)
    (hl : (DieState.lookup { d with sw := { d.sw with fifo := rest } } f).1 = some l) :
    d.lookupServe = (DieState.lookup { d with sw := { d.sw with fifo := rest } } f).2.forward n l false := by
  simp only [DieState.lookupServe, hf, hr, hn, hl, Bool.false_eq_true, if_false]

theorem DieState.lookupServe_discard (hf : d.sw.fifo = n :: rest)
    (hr : DieState.frameOf { d with sw := { d.sw with fifo := rest } } n = some f) (hn : d.fences.contains 70 = false)
    (hl : (DieState.lookup { d with sw := { d.sw with fifo := rest } } f).1 = none) :
    d.lookupServe = (DieState.lookup { d with sw := { d.sw with fifo := rest } } f).2.releaseFrame n := by
  simp only [DieState.lookupServe, hf, hr, hn, hl, Bool.false_eq_true, if_false]

end

/-- With no frame under way, no control frame, the port open and no preemption, the best class with a frame starts. -/
theorem DieState.selectTx_idle {d : DieState} {p t : Nat} :
    let x := (List.range 8).foldl (fun d t => d.deferHead p t) (d.gateUpdate p)
    x.bit ethLinkUp p = true → x.bit ethLinkAsleep p = false → x.rd ethStepCState p ≠ 2 → (x.portOf p).tx = none →
    (x.portOf p).ctl = [] → x.portShut p = false → x.preemptActive p = false → x.pickClass p (fun _ => true) = some t →
    d.selectTx p = x.startHead p t := by
  intro x hu ha hs ht hc hp hpre hk
  simp only [DieState.selectTx, x] at *
  simp only [hu, ha, hs, ht, hc, hp, hpre, hk, Bool.not_true, Bool.or_self, Bool.false_eq_true, if_false, List.isEmpty_nil, Bool.not_false,
    Bool.true_or]

/-- Settles O37: the lookup by its result, the selection by `selectTx_idle`. -/
theorem switchCommandsComplete : Obligations.SwitchCommandsComplete := by
  refine ⟨?entry, ?forward, ?discard, ?handover, ?gate, ?hold, ?verify, ?response, ?unblock, ?unlatch, ?recovery, ?select⟩
  case entry => exact fun i p n rest s hr hs hn => doOn_eq_set (by simp only [hr, hs, if_true]; exact if_pos hn)
  case forward =>
    exact fun i n rest f l s hs hf hr hq hl => doOn_eq_set (by
      simp only [hs, if_true, DieState.lookupServe_forward hr hq hf hl])
  case discard =>
    exact fun i n rest f s hs hf hr hq hl => doOn_eq_set (by
      simp only [hs, if_true, DieState.lookupServe_discard hr hq hf hl])
  case handover =>
    refine fun i t c rest f s hs ht hq hf hb => doOn_eq_set ?_
    simp only [hs, if_true, DieState.handover, ht, hq, hf, hb, Bool.not_true, Bool.false_eq_true, if_false]
  case gate =>
    refine fun i p m s hs hg hp => ⟨fun ho => doOn_eq_set ?_, fun ho => doOn_eq_set ?_, fun h1 h2 => doOn_eq_set ?_⟩ <;>
      simp only [hs, hg, hp, Bool.not_true, Bool.or_self, Bool.false_eq_true, if_false]
    · simp only [ho]
    · simp only [ho]
  case hold =>
    refine fun i p u n s hs hg hp ha hu hn => doOn_eq_set ?_
    simp only [hs, hg, hp, ha, hu, Option.bind_some, Option.any_some, hn, decide_true, Bool.and_self, if_true]
  case verify => exact fun i p s hs hv ht => doOn_eq_set (if_pos ⟨hs, hv, ht⟩)
  case response => exact fun i p s hs hv => doOn_eq_set (if_pos ⟨hs, hv⟩)
  case unblock => exact fun a w v s h => doOn_writeReg h rfl
  case unlatch => exact fun a m v s h => doOn_writeReg h rfl
  case recovery => exact fun i n s hs he hf ht => doOn_eq_set (if_pos ⟨hs, he, by simp [hf], ht⟩)
  case select =>
    exact fun i p t s hs h6 h7 hu ha hst ht hc hp hpre hk => doOn_eq_set (by
      simp only [hs, ne_eq, h6, h7, not_false_eq_true, and_self, if_true]
      exact DieState.selectTx_idle hu ha hst ht hc hp hpre hk)

end Sys2Proof.Machine
end

section
/-! Time bases, cues, phase inputs, gPTP. -/

namespace Sys2Proof.Machine

section
variable {s : State} {i : Die} {q : Requester} {blk ch off : Nat}

/-- A write that nothing blocks. -/
theorem doOn_writeReg_open {v : Word} {act : DieState → DieState} {b : DieState → Bool} {x : DieState}
    (h : (s.get i).regStatus q blk ch off true = .okay) (hb : b (s.get i) = false)
    (hx : act (((s.get i).complete q (regAddr blk off) .okay).writeFields blk (regChan blk ch (reqCopy q) off) off v) = x) :
    s.doOn i (fun d => d.writeReg q blk ch off v act (b d)) = .next (s.set i x) :=
  doOn_eq_set (by rw [hb]; exact (DieState.writeReg_okay _ _ _ _ _ _ _ h).trans hx)

theorem doOn_readReg {value : DieState → Nat} {act : DieState → DieState} {x : DieState}
    (h : (s.get i).regStatus q blk ch off false = .okay)
    (hx : act ((s.get i).complete q (regAddr blk off) .okay (value (s.get i))) = x) :
    s.doOn i (fun d => d.readReg q blk ch off value act) = .next (s.set i x) :=
  doOn_eq_set ((DieState.readReg_okay _ _ _ _ _ _ _ h).trans hx)

end

theorem DieState.pulseEnd_stw (d : DieState) (k : Nat) : (d.pulseEnd k).stw = d.stw := by
  simp only [DieState.pulseEnd]
  split
  · split <;> rfl
  · rfl

theorem DieState.pinOp_stw (d : DieState) (k op : Nat) : (d.pinOp k op).stw = d.stw := by
  have hp := d.pulseEnd_stw k
  simp only [DieState.pinOp]
  split <;> simp only [DieState.wr_stw, hp]

/-- A cue's match changes roles only for the cue of a hand-over or of a join. -/
theorem DieState.cueRoles_none {d : DieState} {n : Nat} (hh : d.stw.hoCue = none) (hj : d.stw.joinCue = none) : d.cueRoles n = d := by
  simp [DieState.cueRoles, hh, hj]

/-- A one-shot cue of a test pin that is due fires: its next position goes and the pin moves. -/
theorem DieState.cueFire_pin {d : DieState} {n next : Nat} (hdel : Tab.get? d.tim.cueDelay n = none)
    (hnext : Tab.get? d.tim.next n = some next) (hdue : 0 ≤ posDiff (d.position (d.rd timCueATb 0 n)) next)
    (hcmp : d.cueCompared n = true) (hc : d.commitState ≠ 2) (hd : d.rd timCueD 0 n = 0) (hp : d.rd timCueAPerhi 0 n = 0)
    (hj : d.rd prtCuejBJit = 0) (hw : d.bit timCueAWake 0 n = false) (hho : d.stw.hoCue = none) (hjo : d.stw.joinCue = none)
    (ha : d.rd timCueAAction 0 n = 6) :
    d.cueFire n = (DieState.cnt { d with tim := { d.tim with next := Tab.erase d.tim.next n } } timCueFired).pinOp
      (d.rd timCueAArg 0 n % 8) (d.rd timCueAArg 0 n / 8 % 4) := by
  have hrearm (late : Int) : d.cueRearm n next 0 late = { d with tim := { d.tim with next := Tab.erase d.tim.next n } } := if_pos rfl
  have hjit : DieState.cueJitter { d with tim := { d.tim with next := Tab.erase d.tim.next n } } n =
      (0, { d with tim := { d.tim with next := Tab.erase d.tim.next n } }) := if_neg fun h => h.2.2 hj
  have hroles : DieState.cueRoles (DieState.cnt { d with tim := { d.tim with next := Tab.erase d.tim.next n } } timCueFired) n = _ :=
    DieState.cueRoles_none hho hjo
  simp only [DieState.cueFire, hdel, hnext, hcmp, hc, hd, hp, hrearm, hjit, DieState.cuePerform, hroles, decide_false, Bool.false_and,
    Bool.false_eq_true, Bool.not_true, or_false, Int.not_lt.mpr hdue, if_false, if_true, Nat.mul_zero, Nat.add_zero, hw, ha,
    DieState.cueAction]

theorem exec_cueFire_of_hoCue {i : Die} {n : Fin 1024} {s : State} (h : ((s.get i).cueFire n).stw.hoCue = (s.get i).stw.hoCue) :
    exec (.cueFire i n) s = .next (s.set i ((s.get i).cueFire n)) :=
  congrArg _ (if_pos (by simpa [State.on] using h))

/-- Settles O38: a cue of a pin by `cueFire_pin`, the bases by their writes. -/
theorem timeCommandsComplete : Obligations.TimeCommandsComplete := by
  refine ⟨?adj, ?step, ?set, ?now, ?pin, ?fire, ?pulse, ?capture, ?edge, ?rise, ?fall, ?follow, ?lost⟩
  case adj => exact fun a n v s h hf => doOn_writeReg_open h hf rfl
  case step => exact fun a n v s h hf ha => doOn_writeReg_open h hf (by simp only [DieState.stepAct, ha]; rfl)
  case set =>
    exact fun a n v s h hf ha hv => doOn_writeReg_open (b := DieState.followShut) h hf (by
      simp only [DieState.setAct, ha, hv, Bool.not_true, Bool.false_eq_true, or_self, if_false])
  case now => exact fun a n s h => doOn_readReg h rfl
  case pin =>
    intro i n next s d x p hdel hnext hdue hcmp hc hd hp hj hw hho hjo ha
    have hfire := DieState.cueFire_pin hdel hnext hdue hcmp hc hd hp hj hw hho hjo ha
    rw [exec_cueFire_of_hoCue (by rw [hfire, DieState.pinOp_stw, DieState.cnt_stw]), hfire]
  case fire => exact fun i n s h => exec_cueFire_of_hoCue h
  case pulse => exact fun i k t s hp ht => doOn_eq_set (by simp only [DieState.pulseEnd, hp, ht, if_true])
  case capture => exact fun a v s h => doOn_writeReg h rfl
  case edge =>
    refine fun i s he hl => doOn_eq_set (if_neg ?_)
    rintro (h | h)
    · simp [he] at h
    · split at h
      · next t ht => exact absurd (hl t ht) (by simpa using h)
      · exact absurd h Bool.false_ne_true
  case rise => exact fun i s he hs => doOn_eq_set (if_pos ⟨he, hs⟩)
  case fall => exact fun i t s hh ht => doOn_eq_set (by simp only [hh, ht, if_true])
  case follow => exact fun s he hw hle hlw hl => if_pos ⟨he, hw, hle, hlw, by simp [hl]⟩
  case lost => exact fun s hf hl => doOn_eq_set (i := .east) (if_pos ⟨hf, hl.imp_left fun h => by simp [State.get, h]⟩)

/-! ### Phase inputs and gPTP -/

/-- Settles O39: each edge by the input's mode, each message by its type. -/
theorem phaseAndPtpCommandsComplete : Obligations.PhaseAndPtpCommandsComplete := by
  refine ⟨?quad, ?index, ?hall, ?pulse, ?loss, ?sync, ?followUp, ?gmSync, ?gmFollowUp, ?hold⟩
  case quad =>
    refine fun i k a b age s hm hne hone => doOn_eq_set ?_
    have hboth : ¬ (((s.get i).phase k).a ≠ a ∧ ((s.get i).phase k).b ≠ b) := fun h => hone.elim h.1 h.2
    simp only [hm, if_true, DieState.quadEdge, if_neg hne, if_neg hboth]
  case index => exact fun i k s hm => doOn_eq_set (by simp only [hm, if_true]; rfl)
  case hall =>
    refine fun i k u v w age n s hm hs hne => doOn_eq_set ?_
    simp only [hm, if_true, DieState.hallChange, hs, if_neg hne]
  case pulse => exact fun i k age s hm => doOn_eq_set (if_pos hm)
  case loss => exact fun i k s he hs ht => doOn_eq_set (if_pos ⟨he, hs, ht⟩)
  case sync =>
    refine fun i p bytes stamp u s hc ht hs hp => doOn_eq_set ?_
    simp only [hc, ht, hs, DieState.ptpConsume, hp, and_self, if_true]
  case followUp =>
    refine fun i p bytes stamp u s hc ht hs hp => doOn_eq_set ?_
    simp only [hc, ht, hs, DieState.ptpConsume, hp, and_self, if_true, OfNat.ofNat_ne_zero, if_false]
  case gmSync =>
    refine fun i u s hs he hr hn => doOn_eq_set ?_
    simp only [hs, he, hr, Nat.ne_of_gt hn, Nat.not_lt.mpr (Nat.le_of_lt hn), Bool.not_true, Bool.false_eq_true, ne_eq, not_true_eq_false,
      or_self, if_false]
  case gmFollowUp => exact fun i u seq s hs hg => doOn_eq_set (by simp only [hg, hs, Bool.not_true, Bool.false_eq_true, if_false])
  case hold => exact fun a u v s h => doOn_writeReg h rfl

end Sys2Proof.Machine
end

section
/-! The forwarding tables, the cipher engine and the Darkroom. -/

namespace Sys2Proof.Machine

section
variable {d : DieState}

theorem DieState.learnServe_front {item : LItem} {rest : List LItem} (h : d.tbl.lq = item :: rest) :
    d.learnServe = match item with
      | .learn fid mac port t => (DieState.flushEnter { d with tbl := { d.tbl with lq := rest } }).learnItem fid mac port t
      | .move slot q t => (DieState.flushEnter { d with tbl := { d.tbl with lq := rest } }).moveItem slot q t
      | .flush p f => (DieState.flushEnter { d with tbl := { d.tbl with lq := rest } }).flushItem p f := by
  simp only [DieState.learnServe, h]
  cases item <;> rfl

theorem DieState.learnItem_new {fid port t slot : Nat} {mac : List Byte} {evict : Bool} (hf : d.fdbFind fid mac = none)
    (hp : (d.ueReads 0 (bucketSlots (bucketOfKey (macLo mac, macHi mac + fid * 65536)))).fdbPlace
      (bucketOfKey (macLo mac, macHi mac + fid * 65536)) = some (slot, evict)) :
    d.learnItem fid mac port t =
      (((if evict then (d.ueReads 0 (bucketSlots (bucketOfKey (macLo mac, macHi mac + fid * 65536)))).cnt fwtCntEvicted
        else d.ueReads 0 (bucketSlots (bucketOfKey (macLo mac, macHi mac + fid * 65536)))).setEntry 0 slot
          (fdbWords (macLo mac) (macHi mac + fid * 65536) false false false port 0 0)).cnt fwtCntLearned) := by
  simp only [DieState.learnItem, hf, hp]

/-- An edit that passes its checks is staged. -/
theorem DieState.editAct_good {c : Nat} {v : Word} (hv : v.msb = true)
    (h : d.editCheck { tbl := d.rd fwtEditCtlTbl c, op := d.rd fwtEditCtlOp c, idx := d.rd fwtEditIdx c,
                       data := (List.range 8).map fun k => BitVec.ofNat 32 (d.rd fwtEditData c k) } = 1) :
    d.editAct c v = { d.wr fwtEditStatResult 1 c with tbl := { d.tbl with edits := d.tbl.edits ++
      [{ tbl := d.rd fwtEditCtlTbl c, op := d.rd fwtEditCtlOp c, idx := d.rd fwtEditIdx c,
         data := (List.range 8).map fun k => BitVec.ofNat 32 (d.rd fwtEditData c k) }] } } := by
  simp only [DieState.editAct, hv, if_true, DieState.editGo, h]
  rfl

end

/-- Settles O40: the learn queue by its front item, edits by `editAct_good`. -/
theorem tableCommandsComplete : Obligations.TableCommandsComplete := by
  refine ⟨?learn, ?move, ?flush, ?go, ?unlock, ?aging, ?edit, ?start, ?check, ?finish, ?repair⟩
  case learn =>
    refine fun i fid mac port t rest slot evict s hs hq hf hp => doOn_eq_set ?_
    rw [if_pos hs, DieState.learnServe_front hq]
    exact DieState.learnItem_new hf hp
  case move => exact fun i slot q t rest s hs hq => doOn_eq_set (by rw [if_pos hs, DieState.learnServe_front hq])
  case flush => exact fun i p f rest s hs hq => doOn_eq_set (by rw [if_pos hs, DieState.learnServe_front hq])
  case go => exact fun a v s h hv hb => doOn_writeReg h (if_pos ⟨hv, by simp [hb]⟩)
  case unlock => exact fun a v s h hv hval hl hbad => doOn_writeReg h (if_pos ⟨hv, hval, hl, by simp [hbad]⟩)
  case aging => exact fun i s hs hk => doOn_eq_set (if_pos ⟨hs, hk⟩)
  case edit =>
    exact fun a v s h hv => ⟨fun he => doOn_writeReg h (DieState.editAct_good hv he),
      fun he => doOn_writeReg h (DieState.editAct_good hv he), fun he => doOn_writeReg h (DieState.editAct_good hv he),
      fun he => doOn_writeReg h (DieState.editAct_good hv he)⟩
  case start => exact fun i s hs hw hm ht hn hr => doOn_eq_set (if_pos ⟨hs, by simp [hw], hm, ht, hn, hr⟩)
  case check =>
    refine fun i s hs hw ht hp hr hm => doOn_eq_set ?_
    simp only [hs, if_true, DieState.proofCheck, hw, hp, hr, hm, Nat.not_le.mpr ht, decide_false, List.isEmpty_nil, Bool.not_true,
      Bool.or_self, Bool.false_eq_true, if_false]
  case finish => exact fun i s hs hw ht => doOn_eq_set (if_pos ⟨hs, hw, ht⟩)
  case repair =>
    refine fun i s hs hr hp hm hn => doOn_eq_set ?_
    have hne : (s.get i).tbl.repair.isEmpty = false := by simp [hr]
    simp only [hs, if_true, DieState.proofApply, hne, hp, hm, Bool.or_self, Bool.false_eq_true, if_false, ne_eq, not_true_eq_false,
      if_neg hn]

/-! ### The cipher engine -/

/-- Settles O41: jobs by what is found for them, lanes by their bits. -/
theorem cipherCommandsComplete : Obligations.CipherCommandsComplete := by
  refine ⟨?issue, ?start, ?complete, ?lane, ?xts, ?selftest, ?macsec, ?freshness⟩
  case issue =>
    exact fun a v n y s h => ⟨fun hj => doOn_writeReg h (by simp only [hj]), fun hj => doOn_writeReg h (by simp only [hj])⟩
  case start =>
    refine fun i j l u s hj hs hu hl hg ho => ⟨fun hop => doOn_eq_set ?_, fun hop => doOn_eq_set ?_⟩ <;>
      simp only [hj, hs, if_neg hu, hl, DieState.jobStart, hg, ho, hop, Bool.not_true, Bool.false_eq_true, if_false]
  case complete =>
    refine fun i job j s hj hs ho => doOn_eq_set ?_
    simp only [hj, hs, if_true, DieState.jobDone, ho, Bool.not_true, Bool.false_eq_true, if_false]
  case lane =>
    refine fun i l s hu hj => doOn_eq_set ?_
    simp only [DieState.parityError, hu, hj, Bool.not_true, Bool.false_eq_true, if_false]
    rfl
  case xts => exact fun i s => rfl
  case selftest => exact fun i l pass s ht => doOn_eq_set (if_neg (by simp [ht]))
  case macsec => exact fun i p t s ht hd => doOn_eq_set (by simp only [ht, hd, if_true])
  case freshness => exact fun a k v s h => doOn_writeReg h rfl

/-! ### The Darkroom -/

section
variable {d : DieState}

/-- A Darkroom that is free takes the command that its register names. -/
theorem DieState.drkGo_free {op : Nat} (hb : d.bit drkCmdStatBusy = false) (ho : d.rd drkCmdOp = op) :
    d.drkGo =
      let y : DieState := { d.wr drkCmdStatBusy 1 with sec := { d.sec with cmd := some (d.rd drkCmdOp, d.rd drkCmdSlot, d.rd drkCmdKek) } }
      if op = 5 then y.zeroizeOne (d.rd drkCmdSlot) else if op = 6 then y.zeroizeAll else y := by
  subst ho
  simp only [DieState.drkGo, hb, Bool.false_eq_true, if_false]

theorem DieState.dbgGo_intime {bs : List Byte} {l t : Nat} (hc : d.sec.chal = some (bs, l, t)) (ht : d.now ≤ t + 60000000000) :
    d.dbgGo =
      let y : DieState := { d with sec := { d.sec with chal := none } }
      if Config.fuseDbgLock d.num then d.raise 0x0C04 (d.rd drkDbgReqLevel)
      else if d.dbgValid bs then ((if l = 2 then y.noDebug else y).wr drkDbgStatGranted l).raise 0x0C03 l
      else (y.cnt drkDbgStatFails).raise 0x0C04 l := by
  simp only [DieState.dbgGo, hc, Nat.not_lt.mpr ht, if_false]

end

/-- Settles O42: all seven commands by `drkGo_free`, a response in time by `dbgGo_intime`. -/
theorem darkroomCommandsComplete : Obligations.DarkroomCommandsComplete := by
  refine ⟨?go, ?done, ?seeded, ?epoch, ?retry, ?challenge, ?response, ?close, ?timeout⟩
  case go =>
    exact fun a v s h => ⟨fun hb ho => doOn_writeReg h (DieState.drkGo_free hb ho),
      fun hb ho => doOn_writeReg h (DieState.drkGo_free hb ho), fun hb ho => doOn_writeReg h (DieState.drkGo_free hb ho),
      fun hb ho => doOn_writeReg h (DieState.drkGo_free hb ho), fun hb ho => doOn_writeReg h (DieState.drkGo_free hb ho),
      fun hb ho => doOn_writeReg h (DieState.drkGo_free hb ho), fun hb ho => doOn_writeReg h (DieState.drkGo_free hb ho)⟩
  case done =>
    intro i op k kek s p y hc hseed hs
    have hrun : ((op = 2 && !(s.get i).sec.seeded) || !(s.get i).hallOn .drk) = false := by
      by_cases ho : op = 2
      · simp [hs, hseed ho]
      · simp [hs, ho]
    show execDrkCommandDone i s = _
    simp only [execDrkCommandDone, hc, hrun, Bool.false_eq_true, if_false]
    exact doOn_eq_set rfl
  case seeded => exact fun i s => doOn_eq_set rfl
  case epoch =>
    intro i k res t s d x y u hw hl
    show execEpochWriteDone i k s = _
    have hw' : ((s.get i).slot k.toNat).write = some (res, t) := hw
    have hl' : (s.get i).bit nwlLinkUp = true := hl
    simp only [execEpochWriteDone, hw', hl', Bool.not_true, Bool.false_eq_true, if_false]
    rfl
  case retry => exact fun i k res t s hw ht => doOn_eq_set (by simp only [hw, Nat.not_lt.mpr ht, if_false])
  case challenge => exact fun a k s h => doOn_readReg h rfl
  case response => exact fun a v bs l t s h hc ht => doOn_writeReg h (DieState.dbgGo_intime hc ht)
  case close => exact fun a v s h => doOn_writeReg h rfl
  case timeout => exact fun i bs l t s hc ht => doOn_eq_set (by simp only [hc, ht, if_true])

end Sys2Proof.Machine
end

section
/-! The Stairwell, and Mirror and Vote mode over it. -/

namespace Sys2Proof.Machine

theorem State.get_set_of_other (s : State) (d : Die) (x : DieState) : (s.set d.other x).get d = s.get d := by cases d <;> rfl

theorem State.set_set (s : State) (d : Die) (x y : DieState) : (s.set d x).set d y = s.set d y := by cases d <;> rfl

theorem State.on_set (s : State) (d : Die) (x : DieState) (f : DieState → DieState) : (s.set d x).on d f = s.set d (f x) := by
  cases d <;> rfl

theorem State.on_writeReg {s : State} {i : Die} {q : Requester} {blk ch off : Nat} {v : Word} {act : DieState → DieState}
    (h : (s.get i).regStatus q blk ch off true = .okay) :
    s.on i (fun d => d.writeReg q blk ch off v act) =
      s.set i (act (((s.get i).complete q (regAddr blk off) .okay).writeFields blk (regChan blk ch (reqCopy q) off) off v)) :=
  congrArg (s.set i) (DieState.writeReg_okay _ _ _ _ _ _ _ h)

/-! ### Flits -/

theorem DieState.flitInject_off {d : DieState} (h : d.rd prtStwAEvery = 0) :
    d.flitInject = (false, { d with guard := { d.guard with flits := 0, burst := 0 } }) := by
  simp [DieState.flitInject, h]

/-- A good flit in sequence that finds room on its landing, with nothing replayed, is taken. -/
theorem State.flitArrive_good {s : State} {i : Die} {f : Flit} {m : VMsg} {rest : List VMsg} (hl : (s.get i).linkUp = true)
    (hy : (s.get i.other).linkUp = true) (hseq : f.seq.toNat = (s.get i).stw.rxSeq) (hrep : (s.get i.other).stw.replay = [])
    (hout : (s.get i.other).stw.out.get f.vc = m :: rest) (hroom : ((s.get i).stw.landing.get f.vc).length < 32)
    (hcrc : f.crcOk = true) : s.flitArrive i f = s.flitAccept i f.vc m false := by
  simp only [State.flitArrive, hl, hy, hseq, hrep, hout, Nat.not_le.mpr hroom, hcrc, Bool.not_true, Bool.or_self, Bool.false_eq_true,
    if_false, if_true]

/-- A flit that is taken moves the receiver's sequence number on. -/
theorem State.flitAccept_rxSeq (s : State) (i : Die) (v : Fin 4) (m : VMsg) (replayed : Bool) :
    ((s.flitAccept i v m replayed).get i).stw.rxSeq = ((s.get i).stw.rxSeq + 1) % 256 := by
  rw [State.flitAccept, State.on, State.get_set_of_other, State.get_on_same]
  rfl

theorem State.flitAccept_ne {s : State} {i : Die} {v : Fin 4} {m : VMsg} {replayed : Bool} (h : (s.get i).stw.rxSeq < 256) :
    s.flitAccept i v m replayed ≠ s := by
  intro he
  have hseq := s.flitAccept_rxSeq i v m replayed
  rw [he] at hseq
  omega

/-! ### The bridge -/

theorem State.bridgeDo_okay {s : State} {a : Acc} {addr size : Nat} (act : DieState → Nat → Nat → Nat × DieState)
    (h : s.bridgeStatus a addr size = .okay) :
    s.bridgeDo a addr size act =
      (s.set (bridgeTarget a).1 (act (s.get (bridgeTarget a).1) (bridgeTarget a).2 (windowAddr addr - 0x10000000)).2).on a.die
        fun d => d.complete a.req addr .okay
          (act (s.get (bridgeTarget a).1) (bridgeTarget a).2 (windowAddr addr - 0x10000000)).1 :=
  if_neg (not_not_intro h)

/-- Settles O43: the bridge by `bridgeDo_okay`; a flit that is taken changes the state, as its sequence number moves on. -/
theorem stairwellCommandsComplete : Obligations.StairwellCommandsComplete := by
  refine ⟨?flit, ?replay, ?retries, ?timeout, ?timer, ?retrain, ?linkUp, ?response, ?request, ?amo, ?lr, ?sc, ?reservation, ?send,
    ?heartbeat, ?miss⟩
  case flit =>
    intro i f m rest s d y u hl hy hevery hseq hrep hout hroom hcrc
    have hinj : (s.get i.other).flitInject = _ := DieState.flitInject_off hevery
    have htake : s.flitArrive i { f with crcOk := f.crcOk && !(s.get i.other).flitInject.1 } = s.flitAccept i f.vc m false :=
      State.flitArrive_good hl hy hseq hrep hout hroom (by simp [hinj, hcrc])
    have hu : (s.on i.other fun _ => (s.get i.other).flitInject.2) = u := by rw [hinj]; rfl
    have hui : u.get i = s.get i := State.get_set_of_other s i _
    have huo : u.get i.other = { y with guard := { y.guard with flits := 0, burst := 0 } } := State.get_set_same s i.other _
    have hutake : u.flitArrive i { f with crcOk := f.crcOk && !(s.get i.other).flitInject.1 } = u.flitAccept i f.vc m false :=
      State.flitArrive_good (by rw [hui]; exact hl) (by rw [huo]; exact hy) (by rw [hui]; exact hseq) (by rw [huo]; exact hrep)
        (by rw [huo]; exact hout) (by rw [hui]; exact hroom) (by simp [hinj, hcrc])
    have hne : s.flitAccept i f.vc m false ≠ s := State.flitAccept_ne (hseq ▸ f.seq.isLt)
    exact congrArg Host.Outcome.next ((if_neg (htake ▸ hne)).trans (hu ▸ hutake))
  case replay => exact fun i seq s hl hr hn hs => doOn_eq_set (if_pos ⟨hl, by simp [hr], by simp [hn], hs⟩)
  case retries =>
    intro i s d hl hr
    have hl' : (s.get i).linkUp = true := hl
    show execStwRetryTimeout i s = _
    simp only [execStwRetryTimeout, hl', Bool.not_true, Bool.false_eq_true, if_false]
    exact if_pos hr
  case timeout =>
    intro i t s d hl hr hf ht
    have hl' : (s.get i).linkUp = true := hl
    have hf' : (s.get i).stw.failAt = some t := hf
    show execStwRetryTimeout i s = _
    simp only [execStwRetryTimeout, hl', hf', Bool.not_true, Bool.false_eq_true, if_false]
    exact (if_neg (Nat.not_le.mpr hr)).trans (if_pos ht)
  case timer => exact fun i s hs ha hl ht => doOn_eq_set (if_pos ⟨hs, ha, by simp [hl], ht⟩)
  case retrain =>
    intro a v s d u h
    exact congrArg Host.Outcome.next ((if_pos (decide_eq_true h)).trans (by rw [State.on_writeReg h]))
  case linkUp => exact fun lanes s hw he hlw hle hn => if_pos ⟨hw, he, by simp [hlw], by simp [hle], hn⟩
  case response => exact fun i tag r rest s hr => doOn_eq_set (by simp only [hr])
  case request =>
    intro i v m s d hs hl hn
    exact congrArg Host.Outcome.next ((if_pos ⟨hs, hl⟩).trans (by rw [hn]; rfl))
  case amo => exact fun a op addr size v s h => congrArg Host.Outcome.next (State.bridgeDo_okay _ h)
  case lr => exact fun a addr size s h => congrArg Host.Outcome.next (State.bridgeDo_okay _ h)
  case sc =>
    intro a addr size v s t o x off y h
    refine ⟨fun hw => ?_, fun hw => ?_⟩ <;>
      exact congrArg Host.Outcome.next ((State.bridgeDo_okay _ h).trans (by
        simp only [show (s.get (bridgeTarget a).1).scWins (bridgeTarget a).2 (windowAddr addr - 0x10000000) = _ from hw,
          Bool.false_eq_true, if_true, if_false]
        rfl))
  case reservation => exact fun i o l t s hr ht => doOn_eq_set (by simp only [hr, ht, if_true])
  case send => exact fun i s hl ht => doOn_eq_set (if_pos ⟨hl, ht⟩)
  case heartbeat => exact fun i m r rest s hm => doOn_eq_set (by simp only [hm])
  case miss =>
    intro i s d y u ht hs
    have hgo : ¬ (d.now < d.stw.hbSeen + 1000 * d.rd stwHbPeriod ∨ (!d.hallOn .stw) = true) := by
      simp [Nat.not_lt.mpr ht, hs]
    have hexec : exec (.stwHeartbeatMiss i) s =
        if (!(!d.partnerGone && y.partnerGone)) = true then .next u
        else if (y.linkUp && y.stw.failAt.isSome) = true then .next (u.linkDown 0 (some i))
        else .next (u.on i fun z => z.partnerLost 0 none) := if_neg hgo
    refine ⟨fun h => ?_, fun hp hy hl hf => ?_, fun hp hy hl => ?_⟩
    · exact hexec.trans (if_pos (by rcases h with h | h <;> simp [h]))
    · rw [hexec, hp, hy, hl, hf]; rfl
    · rw [hexec, hp, hy, hl, State.on_set]; rfl

/-! ### Mirror and Vote mode -/

/-- Settles O44: a message by the front of its landing, a mode's command by its condition. -/
theorem pairModeCommandsComplete : Obligations.PairModeCommandsComplete := by
  refine ⟨?engine, ?routes, ?learn, ?drop, ?notice, ?handover, ?moved, ?timego, ?joinGo, ?joined, ?digest, ?window, ?align⟩
  case engine =>
    refine fun i f rest s hl ht hs => doOn_eq_set ?_
    have hs' : ((s.get i).popLanding 3).hallOn .swc = true := hs
    simp only [hl, ht, VMsg.replicates, DieState.replicaAct, hs', Bool.not_true, Bool.false_eq_true, if_false, if_true]
  case routes =>
    refine fun i f rest s hl ht => doOn_eq_set ?_
    simp only [hl, ht, VMsg.replicates, DieState.replicaAct, Bool.not_true, Bool.false_eq_true, if_false, if_true]
    rfl
  case learn =>
    refine fun i item rest s hl ht hs => doOn_eq_set ?_
    have hs' : ((s.get i).popLanding 3).hallOn .swc = true := hs
    simp only [hl, ht, VMsg.replicates, DieState.replicaAct, hs', Bool.not_true, Bool.false_eq_true, if_false, if_true]
  case drop =>
    refine fun i item rest s ho hfull => doOn_eq_set ?_
    simp only [ho, hfull, decide_true, List.tail_cons]
  case notice =>
    refine fun i ch origin status e rest s hl hf => doOn_eq_set ?_
    simp only [hl, DieState.noticeAct, hf, Bool.false_eq_true, if_false]
  case handover => exact fun a v s h hm => doOn_writeReg h (if_pos hm)
  case moved =>
    intro u n t s old y hu ho hi hw
    have hgo : ((s.get old).unitIdle n && (!s.noticeWaits old n || decide (t + 5000 ≤ (s.get old).now))) = true := by
      rcases hw with hw | hw <;> simp [hi, hw]
    show execHandoverChannelMove u s = _
    simp only [execHandoverChannelMove, hu, show (s.get s.newel.active.other).stw.hoAt = some t from ho]
    exact if_pos hgo
  case timego =>
    intro a v s d u h hd hl hm hr
    exact (if_pos ⟨decide_eq_true h, hd, hl, hm, hr⟩).trans (by rw [State.on_writeReg h])
  case joinGo => exact fun a v s h hm => doOn_writeReg h (if_pos hm)
  case joined => exact fun i s hx hy hjx hjy hl => if_pos ⟨hx, hy, hjx, hjy, hl⟩
  case digest => exact fun i o p t len crc st rest s hl => doOn_eq_set (by simp only [hl])
  case window => exact fun i tag egress item s hf => doOn_eq_set (by simp only [hf])
  case align => exact fun i tag egress s hlo hhi => doOn_eq_set ((if_neg (Nat.not_lt.mpr hlo)).trans (if_pos hhi))

end Sys2Proof.Machine
end

section
/-! The Newel: register writes that send it commands, and the frames it executes. -/

namespace Sys2Proof.Machine

/-- An EEPROM access with the link up sends its command and shows BUSY. -/
theorem DieState.eeGo_up {d : DieState} {c : NlCtrl} {data : List Byte} (h : d.bit nwlLinkUp = true) :
    d.eeGo c data = (d.nlSend 9 (c.arg (d.rd nwlEeAddr)) data).wr nwlEeCtlBusy 1 := if_pos h

/-- Settles O45: each by the one command that its write sends. -/
theorem newelRegisterCommandsComplete : Obligations.NewelRegisterCommandsComplete := by
  intro a v s d x
  refine ⟨?load, ?duty, ?clear, ?control, ?owner, ?answer, ?eeRead, ?eeWrite, ?pair⟩
  case load => exact fun h => doOn_writeReg h rfl
  case duty => exact fun h => doOn_writeReg h rfl
  case clear => exact fun h => doOn_writeReg h rfl
  case control => exact fun h => ⟨doOn_writeReg h rfl, doOn_writeReg h rfl, doOn_writeReg h rfl⟩
  case owner => exact fun h => doOn_writeReg h rfl
  case answer => exact fun h hw => doOn_writeReg h (if_pos hw)
  case eeRead => exact fun h hu => doOn_writeReg h (DieState.eeGo_up hu)
  case eeWrite => exact fun h hu => doOn_writeReg h (DieState.eeGo_up hu)
  case pair => exact fun h hm => doOn_writeReg h (if_neg hm)

/-! ### Frames that the Newel executes -/

/-- The Newel's end of a link once the frame `q` has its answer. -/
def NewelState.answered (i : Die) (q : Fin 16) (ans : NlAns) (w : NewelState) : NewelState :=
  w.onLink i fun l => { l with expect := (q.val + 1) % 16, answers := ((q.val, ans) :: l.answers).take 8 }

section
variable {s : State} {i : Die} {q : Fin 16}

/-- A frame in sequence is executed on the Newel that heard it; its answer is stored and the next SEQ expected. -/
theorem nlExec_inSeq (ha : s.linkAlive i = true) (hq : ((s.newel.hear i).linkOf i).expect = q) (act : State → NlAns × State) :
    s.nlExec i q act = .next ((act { s with newel := s.newel.hear i }).2.onNewel
      (NewelState.answered i q (act { s with newel := s.newel.hear i }).1)) := by
  simp only [State.nlExec, ha, Bool.not_true, Bool.false_eq_true, if_false]
  exact if_pos hq

theorem nlDo_inSeq (ha : s.linkAlive i = true) (hq : ((s.newel.hear i).linkOf i).expect = q)
    (act : NewelState → Option Nat × NewelState) :
    s.nlDo i q act = 
      .next { s with newel := NewelState.answered i q (ansOf (act (s.newel.hear i)).1) (act (s.newel.hear i)).2 } :=
  nlExec_inSeq ha hq _

end

section
variable {w : NewelState} {i : Die}

theorem NewelState.load_done {n : Nat} {on : Bool} (hn : w.cmdNak i n = none) (he : w.enabled n = true)
    (hl : on = true → (w.chan n).latched = false) :
    w.load i n on = (none, ((w.setCmd i n on).onChan n fun c => { c with force := false }).obey n) := by
  have hfree : (on && (w.chan n).latched) = false := by
    cases on with
    | false => rfl
    | true => exact hl rfl
  simp only [NewelState.load, hn, he, hfree, Bool.not_true, Bool.false_eq_true, if_false]

theorem NewelState.dutyCmd_done {n duty : Nat} (hn : w.cmdNak i n = none) : w.dutyCmd i n duty = (none, w.setDuty i n duty) := by
  simp only [NewelState.dutyCmd, hn]

theorem NewelState.clear_done {n : Nat} {therm oc wire : Bool} (hn : w.chNak i n = none) :
    w.clear i n therm oc wire = (none, w.onChan n fun c =>
      { c with therm := c.therm && !(therm && !c.hot), oc := c.oc && !oc, wire := c.wire && !(wire && decide (c.e ≤ 1 / 2)) }) := by
  simp only [NewelState.clear, hn]

theorem NewelState.slLeave_done (ho : w.slOn = true) (hc : w.slCause = 0) (hm : w.cmdMode ≠ 2) :
    w.slLeave i = (none, NewelState.tellBoth { w with slOn := false, slExit := [] } 0x1007) := by
  simp only [NewelState.slLeave, ho, hc, Bool.not_true, Bool.false_eq_true, if_false, ne_eq, not_true_eq_false]
  exact if_pos (.inl hm)

end

/-- Settles O46: every frame in sequence by `nlExec_inSeq`, then by what its act does. -/
theorem newelFramesComplete : Obligations.NewelFramesComplete := by
  refine ⟨?frames, ?nop, ?resync⟩
  case frames =>
    intro i q s x seen done ha hq
    refine ⟨?addr, ?data, ?read, ?load, ?duty, ?clear, ?answer, ?apply, ?arm, ?safelight, ?owner, ?prep, ?switch, ?eeRead, ?eeWrite,
      ?power⟩
    case addr =>
      intro addr
      show execNlAddr i q addr s = _
      rw [execNlAddr, nlDo_inSeq ha hq]
      rfl
    case data =>
      intro v
      show execNlData i q v s = _
      rw [execNlData, nlDo_inSeq ha hq]
      rfl
    case read =>
      intro addr v hv
      show execNlRead i q addr s = _
      rw [execNlRead, nlExec_inSeq ha hq]
      simp only [show NewelState.register (s.newel.hear i) i (4 * (addr.toNat / 2)) = some v from hv]
      rfl
    case load =>
      intro ch on hn he hl
      show execNlLoad i q ch on s = _
      rw [execNlLoad, nlDo_inSeq ha hq, NewelState.load_done hn he hl]
      rfl
    case duty =>
      intro ch duty hn
      show execNlDuty i q ch duty s = _
      rw [execNlDuty, nlDo_inSeq ha hq, NewelState.dutyCmd_done hn]
      rfl
    case clear =>
      intro ch therm oc wire hn
      show execNlClear i q ch therm oc wire s = _
      rw [execNlClear, nlDo_inSeq ha hq, NewelState.clear_done hn]
      rfl
    case answer =>
      intro ans
      show execNlWdAns i q ans s = _
      rw [execNlWdAns, nlDo_inSeq ha hq]
      rfl
    case apply =>
      show execNlApply i q s = _
      rw [execNlApply, nlDo_inSeq ha hq]
      rfl
    case arm =>
      show execNlWdArm i q s = _
      rw [execNlWdArm, nlDo_inSeq ha hq]
      rfl
    case safelight =>
      intro ho hc hm
      show execNlSlExit i q s = _
      rw [execNlSlExit, nlDo_inSeq ha hq, NewelState.slLeave_done ho hc hm]
      rfl
    case owner =>
      intro map
      show execNlOwnerSet i q map s = _
      rw [execNlOwnerSet, nlDo_inSeq ha hq]
      rfl
    case prep =>
      intro mode hm hu
      show execNlPairPrep i q mode s = _
      rw [execNlPairPrep, nlExec_inSeq ha hq]
      simp only [if_neg hm, show (s.newel.hear i).armed = none from hu]
      rfl
    case switch =>
      intro mode hm
      show execNlSwitch i q mode s = _
      rw [execNlSwitch, nlExec_inSeq ha hq]
      simp only [if_neg hm]
      rfl
    case eeRead =>
      intro page hj hp
      show execNlEeRead i q page s = _
      rw [execNlEeRead, nlDo_inSeq ha hq]
      simp only [show (s.newel.hear i).eeJob = none from hj, hp, Option.isSome_none, Bool.not_true, Bool.false_eq_true, if_false]
      rfl
    case eeWrite =>
      intro page data hj hp
      show execNlEeWrite i q page data s = _
      rw [execNlEeWrite, nlDo_inSeq ha hq]
      simp only [show (s.newel.hear i).eeJob = none from hj, hp, Option.isSome_none, Bool.not_true, Bool.false_eq_true, if_false]
      rfl
    case power =>
      intro ho
      show execNlPwrRetry i q s = _
      rw [execNlPwrRetry, nlDo_inSeq ha hq]
      simp only [show ((s.newel.hear i).supplyOf i.other).off = true from ho, if_true]
      rfl
  case nop => exact fun i s ha => congrArg Host.Outcome.next (if_pos ha)
  case resync => exact fun i s ha => congrArg Host.Outcome.next (if_pos ha)

/-! ### A die's end of its link -/

theorem nlEvent_open {s : State} {i : Die} {code : Nat} (h0 : code ≠ 0) (h13 : code ≤ 13) (ha : (s.get i).pow.alive = true) :
    ¬ (code = 0 ∨ 13 < code ∨ (!(s.get i).pow.alive) = true) := by
  rintro (h | h | h)
  · exact h0 h
  · exact Nat.not_lt.mpr h13 h
  · simp [ha] at h

/-- Settles O47: each by the front of the commands sent, or by the time that ran out. -/
theorem newelLinkCommandsComplete : Obligations.NewelLinkCommandsComplete := by
  refine ⟨?ack, ?up, ?rdata, ?nak, ?event, ?freshEvent, ?resend, ?invalid, ?resync, ?refresh, ?silent, ?lost, ?owner, ?prep, ?disarm,
    ?failover⟩
  case ack =>
    intro i seq c rest s d y hc hs hu
    show execNlAck i seq s = _
    simp only [execNlAck, show (s.get i).nl.sent = c :: rest from hc, hs, show (s.get i).bit nwlLinkUp = true from hu, ne_eq,
      not_true_eq_false, Bool.not_true, Bool.false_eq_true, if_false]
    exact doOn_eq_set rfl
  case up =>
    intro i seq c rest s hc hs hu
    show execNlAck i seq s = _
    simp only [execNlAck, hc, hs, hu, ne_eq, not_true_eq_false, Bool.not_false, if_false, if_true]
  case rdata =>
    exact fun i seq w c rest s hc hs ho hu => doOn_eq_set (by simp only [hc]; exact if_pos ⟨hs, ho, hu⟩)
  case nak => exact fun i seq reason c rest s hc hs hu => doOn_eq_set (by simp only [hc]; exact if_pos ⟨hs, hu⟩)
  case event =>
    exact fun i arg e s h0 h13 ha hf => (if_neg (nlEvent_open h0 h13 ha)).trans (by simp only [hf])
  case freshEvent =>
    exact fun i arg s h0 h13 ha hf => (if_neg (nlEvent_open h0 h13 ha)).trans (by simp only [hf]; exact doOn_eq_set rfl)
  case resend =>
    refine fun i c rest s hc hu ht => ⟨fun hr => doOn_eq_set ?_, fun hr => doOn_eq_set ?_⟩
    · simp only [hc, hu, Nat.not_lt.mpr ht, hr, Bool.not_true, Bool.false_eq_true, or_self, if_false, if_true]
    · simp only [hc, hu, Nat.not_lt.mpr ht, Nat.not_le.mpr hr, Bool.not_true, Bool.false_eq_true, or_self, if_false]
  case invalid => exact fun i s hu => doOn_eq_set (if_pos hu)
  case resync => exact fun i s ha hu ht => doOn_eq_set (if_pos ⟨ha, by simp [hu], ht⟩)
  case refresh => exact fun i s hu ht => doOn_eq_set (if_pos ⟨hu, ht⟩)
  case silent =>
    intro i s ht
    show execNewelLinkSilent i s = _
    simp only [execNewelLinkSilent, State.onNewel, if_pos ht]
  case lost =>
    intro i s ht hs
    show execNewelLinkLost i s = _
    simp only [execNewelLinkLost, State.onNewel, ht, hs, Bool.not_false, and_self, if_true]
  case owner =>
    intro e m t s ho ht
    show execOwnerSetTimeout s = _
    simp only [execOwnerSetTimeout, State.onNewel, ho, if_pos ht]
  case prep =>
    intro m t s hn ha ht
    have hmem : some (m, t) ∈ s.newel.arm.toList := by
      rw [← ha]
      exact Vector.mem_toList_iff.mpr (Vector.getElem_mem _)
    exact congrArg Host.Outcome.next (if_pos (by
      rw [hn, Option.isNone_none, Bool.true_and]
      exact List.any_eq_true.mpr ⟨_, hmem, decide_eq_true ht⟩))
  case disarm =>
    intro t s ha ht
    show execNewelPairDisarm s = _
    simp only [execNewelPairDisarm, ha, if_pos ht]
  case failover =>
    intro i cause t s d u hf hl
    show execFailoverConfirm i s = _
    simp only [execFailoverConfirm, show (s.get i).stw.failover = some (cause, t) from hf, if_pos hl, State.on, State.get_set_same,
      State.set_set]
    rfl

end Sys2Proof.Machine
end

section
/-! The Newel's own events: load channels, watchdogs, Safelight, pins and pages. -/

namespace Sys2Proof.Machine

/-- A command on the Newel alone, from what it makes of the Newel. -/
theorem onNewel_eq {s : State} {g : NewelState → NewelState} {y : NewelState} (h : g s.newel = y) :
    (Host.Outcome.next (s.onNewel g) : Host.Outcome State Fault Refusal) = .next { s with newel := y } := by
  rw [← h]
  rfl

/-- Settles O48: each changes the Newel alone (`onNewel_eq`), by the branch that its hypotheses name. -/
theorem newelEventCommandsComplete : Obligations.NewelEventCommandsComplete := by
  refine ⟨?overcurrent, ?trip, ?cool, ?wire, ?diag, ?restart, ?warm, ?period, ?sample, ?disagree, ?low, ?recover, ?negative, ?positive,
    ?autoArm, ?miss, ?safelight, ?limp, ?xcvr, ?mismatch, ?wake, ?page⟩
  case overcurrent =>
    refine fun n s ho hv => ⟨fun hr => onNewel_eq ?_, fun hr => onNewel_eq ?_⟩ <;>
      simp only [ho, hv, hr, Bool.not_false, Bool.and_self, if_true, Bool.false_eq_true, if_false]
  case trip => exact fun n s => onNewel_eq rfl
  case cool => exact fun n s => onNewel_eq rfl
  case wire =>
    refine fun n s hi => ⟨fun he => onNewel_eq ?_, fun he hw => onNewel_eq ?_⟩
    · simp only [if_neg hi, if_pos he]
    · simp only [if_neg hi, if_neg he, hw, Bool.false_eq_true, if_false]
  case diag =>
    refine fun n s => ⟨fun ho hn => onNewel_eq ?_, onNewel_eq rfl, onNewel_eq rfl, onNewel_eq rfl⟩
    simp [ho, hn]
  case restart =>
    refine fun n t s ht hgap hth hw hr he hl => onNewel_eq ?_
    simp only [ht]
    exact if_pos ⟨hgap, by simp [hth], by simp [hw], hr, he, by simp [hl]⟩
  case warm => exact fun n s ht => onNewel_eq (if_pos ht)
  case period => exact fun k s => onNewel_eq rfl
  case sample => exact fun n x s hs => onNewel_eq (if_pos hs)
  case disagree =>
    refine fun n t s ht hm hr hgap => onNewel_eq ?_
    simp only [ht]
    exact if_pos ⟨hm, by simp [hr], hgap⟩
  case low => exact fun v s hv hl => onNewel_eq (if_pos ⟨hv, by simp [hl]⟩)
  case recover => exact fun v s hv hl => onNewel_eq (if_pos ⟨hv, hl⟩)
  case negative => exact fun s => onNewel_eq rfl
  case positive => exact fun s hr => onNewel_eq (if_pos hr)
  case autoArm => exact fun t s ha ht => onNewel_eq (by simp only [ha]; exact if_pos ht)
  case miss => exact fun i s h0 hs ht => onNewel_eq (if_pos ⟨h0, by simp [hs], ht⟩)
  case safelight => exact fun high s => onNewel_eq rfl
  case limp => exact fun k high s => onNewel_eq rfl
  case xcvr => exact fun lin x s => ⟨onNewel_eq rfl, onNewel_eq rfl⟩
  case mismatch => exact fun lin x s hm => onNewel_eq (if_pos hm)
  case wake => exact fun k rising s => ⟨fun hh => if_pos hh, fun hh => if_neg (by simp [hh])⟩
  case page => exact fun ok i p bs s hj => onNewel_eq (by simp only [hj])

end Sys2Proof.Machine
end

section
/-! The host's units: cores, queue blocks, mailboxes, the PCIe endpoint. -/

namespace Sys2Proof.Machine

section
variable {d : DieState}

/-- A write of CORE_CTL resets the cores whose bit it sets, in order. -/
theorem DieState.coreCtl_bits (v : Word) :
    let r (c : Nat) (y : DieState) : DieState := if v.getLsbD (8 + c) then y.unitReset 0 c 0 else y
    d.coreCtl v = r 3 (r 2 (r 1 (r 0 d))) := by
  simp only [DieState.coreCtl, List.foldl_filter]
  rfl

theorem DieState.mbWrite_end {q : Requester} {m e off : Nat} {v : Word} {act : Nat → DieState → DieState}
    (he : d.mbEnd m (reqId q) = some e) (h : d.regStatus q 13 m off true = .okay) :
    d.mbWrite q m off v act =
      act e ((d.complete q (regAddr 13 off) .okay).writeFields 13 (regChan 13 m (reqCopy q) off) off v) := by
  simp only [DieState.mbWrite, he]
  exact DieState.writeReg_okay _ _ _ _ _ _ _ h

theorem DieState.mbRead_end {q : Requester} {m e off : Nat} {value : Nat → DieState → Nat} {act : Nat → DieState → DieState}
    (he : d.mbEnd m (reqId q) = some e) (h : d.regStatus q 13 m off false = .okay) :
    d.mbRead q m off value act = act e (d.complete q (regAddr 13 off) .okay (value e d)) := by
  simp only [DieState.mbRead, he, h]

end

/-- Settles O49: register writes by `doOn_writeReg`, the block's operations by their definition. -/
theorem hostAndQueueCommandsComplete : Obligations.HostAndQueueCommandsComplete := by
  refine ⟨?cores, ?timer, ?fence, ?pop, ?ops, ?push, ?stale⟩
  case cores =>
    exact fun a v s => ⟨fun h => ⟨doOn_writeReg h (DieState.coreCtl_bits v), doOn_writeReg h (DieState.coreCtl_bits v)⟩,
      fun h => doOn_writeReg h rfl⟩
  case timer => exact fun i c s hp hd => doOn_eq_set (if_pos (by simp [hp, hd]))
  case fence => exact fun i addr s hs hf => doOn_eq_set ((if_pos hs).trans (if_neg (by simpa using hf)))
  case pop =>
    refine fun a n s h => ⟨fun hn => doOn_readReg h ?_, fun hn => doOn_readReg h ?_⟩
    · rw [if_pos hn]
      exact if_pos hn
    · rw [if_neg hn]
      exact if_neg hn
  case ops =>
    exact fun a n k s h => ⟨doOn_writeReg h rfl, doOn_writeReg h rfl, doOn_writeReg h rfl, doOn_writeReg h rfl,
      doOn_writeReg h rfl, doOn_writeReg h rfl⟩
  case push => exact fun a n v s h hv => doOn_writeReg h (if_pos hv)
  case stale => exact fun i n t s ht hs ho hgap hu => doOn_eq_set (by simp only [ht]; exact if_pos ⟨hs, ho, hgap, hu⟩)

/-- Settles O50: both ends by `mbWrite_end` and `mbRead_end`, then by the words that wait. -/
theorem mailboxCommandsComplete : Obligations.MailboxCommandsComplete := by
  refine ⟨?write, ?read, ?drain, ?doorbell⟩
  case write =>
    refine fun a m e v s he => ⟨fun h => doOn_eq_set ?_, fun h => doOn_eq_set ?_, fun h => doOn_eq_set ?_⟩
    · rw [DieState.mbWrite_end he h]
      simp only [DieState.mbSend, List.length_singleton]
      split <;> rfl
    · exact DieState.mbWrite_end he h
    · exact DieState.mbWrite_end he h
  case read =>
    refine fun a m e s he => ⟨fun h => doOn_eq_set ?_, fun h => doOn_eq_set ?_⟩
    · rw [DieState.mbRead_end he h]
      generalize (s.get a.die).complete a.req (regAddr 13 0x114) .okay _ = x
      cases hq : x.mbWords m (1 - e) with
      | nil => simp [x.mbTake_nil hq, hq]
      | cons v rest => simp [x.mbTake_cons hq, hq]
    · exact DieState.mbRead_end he h
  case drain =>
    refine fun i m ba t s ht hs ho hgap hw => doOn_eq_set ?_
    simp only [DieState.mbDrain, ht]
    exact if_pos ⟨hs, ho, hgap, hw⟩
  case doorbell => exact fun a cl v s h he => doOn_writeReg h (if_pos he)

/-! ### The PCIe endpoint -/

section
variable {d : DieState}

/-- A DMA channel that may start takes its descriptor and then checks it. -/
theorem DieState.dmaStart_ready {c : Nat} (hs : d.hallOn .host = true) (he : d.bit pciDmaAEn 0 c = true) (hc : (d.dmaCh c).cur = none)
    (hq : 8 ≤ d.qbUnread (d.rd pciDmaASq 0 c)) :
    let ws := (List.range 8).map fun k => d.qbWord (d.rd pciDmaASq 0 c) k
    let x := d.qbTake (d.rd pciDmaASq 0 c) 8
    let y := DieState.wr { x with pci := { x.pci with dma := Tab.put {} x.pci.dma c { cur := some ws, since := x.now } } } pciDmaBBusy 1 0 c
    d.dmaStart c =
      if dmaBad ws then y.dmaEnd c 6 0 else if !y.dmaLocal ws then y.dmaEnd c 1 0 else if !y.bit pciLinkUp then y.dmaEnd c 5 0 else y := by
  simp only [DieState.dmaStart, hs, he, hc, Nat.not_lt.mpr hq, Option.isSome_none, Bool.not_true, decide_false, Bool.or_self,
    Bool.false_eq_true, if_false]

end

/-- Settles O51: descriptors by `dmaStart_ready`, the rings by their indices. -/
theorem pcieCommandsComplete : Obligations.PcieCommandsComplete := by
  refine ⟨?linkUp, ?linkDown, ?hotReset, ?inbound, ?dmaStart, ?dmaDone, ?dmaTimeout, ?tails, ?txOuter, ?txLocal, ?rx, ?notify⟩
  case linkUp => exact fun i speed width s hs hl h1 h4 hw1 hw2 => doOn_eq_set (if_pos ⟨hs, by simp [hl], h1, h4, hw1, hw2⟩)
  case linkDown => exact fun i s hl => doOn_eq_set (if_pos hl)
  case hotReset => exact fun i s hs => doOn_eq_set (if_pos hs)
  case inbound =>
    exact fun i bar2 q s hl hd => congrArg Host.Outcome.next ((if_pos hl).trans (by simp only [hd, Bool.false_eq_true, if_false]))
  case dmaStart =>
    refine fun i c s hs he hc hq => ⟨fun hb hl hu => doOn_eq_set ?_, fun hb => doOn_eq_set ?_, fun hb hl => doOn_eq_set ?_⟩ <;>
      rw [DieState.dmaStart_ready hs he hc hq]
    · simp only [hb, hl, hu, Bool.not_true, Bool.false_eq_true, if_false]
    · exact if_pos hb
    · simp only [hb, hl, Bool.not_false, Bool.false_eq_true, if_false, if_true]
  case dmaDone =>
    refine fun i c status moved data ws s hc hl => doOn_eq_set ?_
    simp only [hc, hl, Bool.not_true, Bool.false_eq_true, if_false]
  case dmaTimeout =>
    exact fun i c ws s hc hw ht => doOn_eq_set (by simp only [hc]; exact if_pos ⟨by rw [hw, Bool.not_false], ht⟩)
  case tails => exact fun a v s => ⟨fun h => doOn_writeReg h rfl, fun h => doOn_writeReg h rfl⟩
  case txOuter =>
    refine fun i desc bytes s hs hw hu hn ho => doOn_eq_set ?_
    simp only [hs, hw, hu, hn, ho, Bool.not_true, decide_false, Bool.or_self, Bool.false_eq_true, if_false, if_true]
  case txLocal =>
    refine fun i desc bytes s hs hw hu hn ho ha hb => doOn_eq_set ?_
    simp only [hs, hw, hu, hn, ho, ha, hb, Bool.not_true, decide_false, Bool.or_self, Bool.false_eq_true, if_false]
  case rx =>
    refine fun i buf t s hs hw hu hp hn ht => doOn_eq_set ?_
    simp only [hs, hw, hu, hp, hn, ht, Bool.not_true, decide_false, Bool.or_self, Bool.false_eq_true, if_false]
  case notify => exact fun i s hn ht => doOn_eq_set (if_pos ⟨hn, ht⟩)

end Sys2Proof.Machine
end

section
/-! Power, supplies, resets and the boot ROM. -/

namespace Sys2Proof.Machine

theorem State.set_get (s : State) (i : Die) : s.set i (s.get i) = s := by cases i <;> rfl

/-- A die whose link is down does not mind the loss of its partner. -/
theorem State.on_partnerMute_down {s : State} {i : Die} (h : (s.get i).linkUp = false) : s.on i DieState.partnerMute = s := by
  have hmute : (s.get i).partnerMute = s.get i := if_neg (by simp [h])
  rw [State.on, hmute, State.set_get]

/-- A Rest request that nothing refuses, in Split mode. -/
theorem State.restAsk_split {s : State} {i : Die} (hc : (s.get i).rd pwrStateCur = 0) (hw : (s.get i).rd pwrWakeEn ≠ 0)
    (hl : s.loadHeld i = false) (hm : (s.get i).pairMode = 0) :
    s.restAsk i = s.on i fun x =>
      { (x.wr pwrStateResult 1).wr pwrStateCur 3 with pow := { x.pow with pendAt := x.now, wakeHit := false } } := by
  simp only [State.restAsk, hc, hw, hl, hm, ne_eq, not_true_eq_false, Bool.false_eq_true, if_false, if_true]

/-- Settles O52: with the partner's link down its muting changes nothing (`on_partnerMute_down`). -/
theorem powerCommandsComplete : Obligations.PowerCommandsComplete := by
  refine ⟨?hallCtl, ?ready, ?hallReset, ?dozeRequest, ?dozeEnter, ?dozeWake, ?restRequest, ?pending, ?restEnter, ?wakeOne, ?wakeBoth⟩
  case hallCtl =>
    intro a v s d w x h hw
    have hstay (b : Bool) : (b && !(v ||| 3).getLsbD 9) = false := by
      rw [show (v ||| 3).getLsbD 9 = true from hw, Bool.not_true, Bool.and_false]
    show execHallCtlWrite a v s = _
    simp only [execHallCtlWrite, hstay, Bool.false_eq_true, if_false]
    exact doOn_writeReg h rfl
  case ready => exact fun i h s hr => doOn_eq_set (if_pos hr)
  case hallReset =>
    intro a v s d x h hv
    show execHallReset a v s = _
    simp only [execHallReset, hv, Bool.and_false, Bool.false_eq_true, if_false]
    exact doOn_writeReg h rfl
  case dozeRequest =>
    exact fun a v s h hc hb => doOn_writeReg h (by simp only [hc, hb, ne_eq, not_true_eq_false, if_false])
  case dozeEnter =>
    exact fun i s hc hw hh => doOn_eq_set (by simp only [hc, hw, hh, and_self, if_true, Bool.false_eq_true, if_false])
  case dozeWake => exact fun i src s hd => doOn_eq_set (if_pos (.inl hd))
  case restRequest =>
    intro a v s d x h hc hw hm hl
    show Host.Outcome.next _ = _
    rw [if_pos (decide_eq_true h), State.on_writeReg h]
    have hx : (s.set a.die x).get a.die = x := State.get_set_same s a.die x
    rw [State.restAsk_split (by rw [hx]; exact hc) (by rw [hx]; exact hw) hl (by rw [hx]; exact hm), State.on_set]
  case pending => exact fun i s hc ht => doOn_eq_set (if_pos ⟨hc, ht⟩)
  case restEnter =>
    intro i s d hc hm hl
    have hone : ((s.restOne i).get i.other).linkUp = false := by
      show (((s.on i DieState.restNow).get i.other)).linkUp = false
      rw [State.get_on_other, hl]
    show execRestEnter i s = _
    simp only [execRestEnter, show (s.get i).rd pwrStateCur = 3 from hc, show (s.get i).pairMode = 0 from hm, ne_eq, not_true_eq_false,
      false_and, if_false, State.on_partnerMute_down hone]
    rfl
  case wakeOne => exact fun i s => rfl
  case wakeBoth =>
    intro i src s hsrc
    have hlow : ¬ 5 ≤ src.val := by rcases hsrc with rfl | rfl | rfl <;> decide
    have hboth : src.val = 0 ∨ src.val = 1 ∨ src.val = 3 := by rcases hsrc with rfl | rfl | rfl <;> decide
    show execRestWake i src s = _
    simp only [execRestWake, if_neg hlow, if_pos hboth, State.on, State.get_set_other]

/-! ### Supplies and resets -/

section
variable {s : State} {i : Die} {g : Fin 3}

theorem powerGoodFault_open (ho : s.newel.offline = false) (hg : g.val < s.groupsOn i) :
    ¬ (s.newel.offline = true ∨ s.groupsOn i ≤ g.val) := by
  rintro (h | h)
  · simp [ho] at h
  · exact Nat.not_lt.mpr h hg

end

/-- Settles O53: a fault by how many came within a second, a reset by its key. -/
theorem supplyAndResetCommandsComplete : Obligations.SupplyAndResetCommandsComplete := by
  refine ⟨?off, ?on, ?rise, ?fault, ?lastFault, ?retry, ?newel, ?rstin, ?reset, ?badKey⟩
  case off => exact fun s => rfl
  case on => exact fun v s ho hv => if_pos ⟨ho, hv⟩
  case rise => exact fun i g s ho hp hg => if_pos ⟨by simp [ho], hp, hg⟩
  case fault =>
    intro i g s now fails ho hg hn
    have hoff : decide (3 ≤ fails.length) = false := decide_eq_false (Nat.not_le.mpr hn)
    refine (if_neg (powerGoodFault_open ho hg)).trans ?_
    show Host.Outcome.next (if decide (3 ≤ fails.length) = true then _ else _) = _
    rw [hoff]
    rfl
  case lastFault =>
    intro i g s now fails u ho hg hn ha
    have hoff : decide (3 ≤ fails.length) = true := decide_eq_true hn
    refine (if_neg (powerGoodFault_open ho hg)).trans ?_
    show Host.Outcome.next (if decide (3 ≤ fails.length) = true then _ else _) = _
    rw [hoff]
    exact congrArg (fun x => Host.Outcome.next (u.set i.other x)) (if_pos ha)
  case retry =>
    intro i t s hr ht ho
    show execPgRetry i s = _
    simp only [execPgRetry, State.onNewel, hr, ht, ho, Bool.not_false, and_self, if_true]
  case newel => exact fun s ho => if_neg (by simp [ho])
  case rstin => exact fun i s ha => congrArg Host.Outcome.next (if_pos ha)
  case reset =>
    intro a v s d x h hk hv
    refine congrArg Host.Outcome.next ((if_pos ⟨decide_eq_true h, hk, hv⟩).trans ?_)
    rw [State.on_writeReg h, if_pos hk]
  case badKey =>
    intro a v s d x h hk
    refine congrArg Host.Outcome.next ((if_neg fun hgo => hk hgo.2.1).trans ?_)
    rw [State.on_writeReg h, if_neg hk]

/-! ### The boot ROM -/

/-- Settles O54: each stage of the boot by the stage before it. -/
theorem bootCommandsComplete : Obligations.BootCommandsComplete := by
  refine ⟨?start, ?none, ?again, ?first, ?verify, ?copy⟩
  case start => exact fun i s ha hs => doOn_eq_set (if_pos ⟨ha, hs⟩)
  case none =>
    intro i s d hs hc
    show execBootHeaderDone i s = _
    simp only [execBootHeaderDone, show (s.get i).rd pwrBootStage = 1 from hs, show (s.get i).currentCopy = none from hc, ne_eq,
      not_true_eq_false, if_false, Option.isNone_none, if_true]
    rfl
  case again =>
    intro i s d f hs hc ht
    have hsome : (s.get i).currentCopy.isNone = false := by simpa using Option.ne_none_iff_isSome.mp hc
    show execBootHeaderDone i s = _
    simp only [execBootHeaderDone, show (s.get i).rd pwrBootStage = 1 from hs, hsome, show (s.get i).pow.tried = true from ht, ne_eq,
      not_true_eq_false, if_false, Bool.false_eq_true, if_true]
    exact doOn_eq_set rfl
  case first =>
    intro i s d u y f hs hc ht
    have hsome : (s.get i).currentCopy.isNone = false := by simpa using Option.ne_none_iff_isSome.mp hc
    show execBootHeaderDone i s = _
    simp only [execBootHeaderDone, show (s.get i).rd pwrBootStage = 1 from hs, hsome, show (s.get i).pow.tried = false from ht, ne_eq,
      not_true_eq_false, if_false, Bool.false_eq_true]
    exact doOn_eq_set rfl
  case verify => exact fun i s hs => doOn_eq_set (if_neg (by simp [hs]))
  case copy => exact fun i s hs => doOn_eq_set (if_neg (by simp [hs]))

end Sys2Proof.Machine
end

section
/-! The update block, and errors, the event log and perturbation. -/

namespace Sys2Proof.Machine

section
variable {s : State} {a : Acc} {v : Word} {op : Nat}

/-- An update command on a block that is not busy starts its operation. -/
theorem State.updStart_free (h : (s.get a.die).regStatus a.req 18 0 4 true = .okay)
    (hb : (((s.get a.die).complete a.req (regAddr 18 4) .okay).writeFields 18 (regChan 18 0 (reqCopy a.req) 4) 4 (updWord v op)).bit
      updStatBusy = false) :
    let x := ((s.get a.die).complete a.req (regAddr 18 4) .okay).writeFields 18 (regChan 18 0 (reqCopy a.req) 4) 4 (updWord v op)
    s.updStart a v op = s.set a.die (x.updRun op x.updSource 0) := by
  simp only [State.updStart, State.on_writeReg h, DieState.updGo, hb, Bool.false_eq_true, if_false]

end

/-- A trial whose time is over falls back and resets the die. -/
theorem execUpdTrialExpiry_due {s : State} {i : Die} {r : BootRec} {t : Nat} (hr : (s.get i).bootRec = some r)
    (ht : (s.get i).upd.trialAt = some t) (ha : (s.get i).pow.alive = true) (ho : (s.get i).upd.op.isNone = true) (h1 : r.trial = 1)
    (hn : r.trialS ≠ 0) (hd : t + 1000000000 * r.trialS ≤ (s.get i).now) :
    execUpdTrialExpiry i s = .next ((s.on i DieState.fallBack).dieReset i 4 true) := by
  unfold execUpdTrialExpiry
  dsimp only
  split
  · next r' t' hr' ht' =>
    obtain rfl : r' = r := Option.some.inj (hr'.symm.trans hr)
    obtain rfl : t' = t := Option.some.inj (ht'.symm.trans ht)
    rw [if_pos ⟨ha, ho, h1, hn, hd⟩]
  · next hno => exact absurd ht (hno r t hr)

/-- Settles O55: starts by `updStart_free`, the ends by the operation under way. -/
theorem updateCommandsComplete : Obligations.UpdateCommandsComplete := by
  refine ⟨?start, ?prog, ?progDone, ?verify, ?verifyDone, ?abort, ?done, ?trial⟩
  case start =>
    exact fun a v s h => ⟨fun hb => congrArg Host.Outcome.next (State.updStart_free h hb),
      fun hb => congrArg Host.Outcome.next (State.updStart_free h hb), fun hb => congrArg Host.Outcome.next (State.updStart_free h hb),
      fun hb => congrArg Host.Outcome.next (State.updStart_free h hb), fun hb => congrArg Host.Outcome.next (State.updStart_free h hb),
      fun hb => congrArg Host.Outcome.next (State.updStart_free h hb)⟩
  case prog =>
    exact fun a v p s h hb hp => doOn_writeReg h (by simp only [DieState.progGo, hb, hp, Bool.false_eq_true, if_false])
  case progDone =>
    refine fun i p u s ho => ⟨doOn_eq_set ?_, doOn_eq_set ?_⟩ <;>
      simp only [ho, Bool.not_true, Bool.not_false, Bool.false_eq_true, if_false, if_true]
  case verify =>
    exact fun a v s h hb hs hn => doOn_writeReg h (by
      simp only [DieState.verifyGo, hb, hs, Nat.not_lt.mpr hn, ne_eq, not_true_eq_false, Bool.false_eq_true, if_false])
  case verifyDone => exact fun i p u s ho => doOn_eq_set (by simp only [ho])
  case abort => exact fun a v s h hb => doOn_writeReg h (if_neg (by simp [hb]))
  case done =>
    refine fun i p q s => ⟨fun ho hp => doOn_eq_set ?_, fun ho => doOn_eq_set ?_, fun ho => doOn_eq_set ?_, fun ho => doOn_eq_set ?_,
      fun ho hp => doOn_eq_set ?_, fun ho hp => doOn_eq_set ?_⟩ <;> simp only [ho]
    · exact if_neg (by simp [hp])
    · exact if_neg (by simp)
    · exact if_neg (by simp)
    · exact if_neg (by simp)
    · exact if_neg (by simp [hp])
    · exact if_neg (by simp [hp])
  case trial =>
    intro i r t s d hr ht ha ho h1 hn hd
    show execUpdTrialExpiry i s = _
    exact execUpdTrialExpiry_due hr ht ha (Option.isNone_iff_eq_none.mpr ho) h1 hn hd

/-! ### Errors, the event log, perturbation -/

/-- Settles O56: the keys by `unlockKey`, the others by PRT_STAT.OPEN or the unit in error. -/
theorem guardCommandsComplete : Obligations.GuardCommandsComplete := by
  refine ⟨?error, ?linkError, ?log, ?unlock, ?relock, ?arm, ?watchdog, ?pause⟩
  case error => exact fun i u s hu => congrArg Host.Outcome.next (if_neg fun h => hu h.1)
  case linkError =>
    intro i u s x hu hf
    have hx : s.on i (fun x => x.unitError u.cls.val u.idx) = s.set i x := by rw [hu]; rfl
    show Host.Outcome.next (if u.cls.val = 15 ∧ ((s.on i fun x => x.unitError u.cls.val u.idx).get i).fences.contains 79 = true then
      (s.on i fun x => x.unitError u.cls.val u.idx).linkDown 0 else _) = _
    rw [hx, State.get_set_same, if_pos ⟨hu, hf⟩]
  case log =>
    exact fun a v s h he => doOn_eq_set (by
      rw [he]; exact DieState.writeReg_okay _ _ _ _ _ _ _ h)
  case unlock =>
    refine fun a v s h => ⟨fun hk => doOn_writeReg h ?_, fun hk hhalf ho => doOn_writeReg h ?_⟩
    · simp only [DieState.unlockKey, hk, if_true]
    · simp only [DieState.unlockKey, hk, hhalf, ho, Bool.not_false, and_self, if_true, Nat.reduceEqDiff, if_false]
  case relock => exact fun a v s h ho => doOn_writeReg h (if_pos ho)
  case arm => exact fun a c v s h ho => doOn_writeReg h (if_pos ho)
  case watchdog => exact fun a v s h ho => doOn_writeReg h (if_pos ho)
  case pause => exact fun i p on s hp => doOn_eq_set (if_pos hp)

end Sys2Proof.Machine
end
